-- ==== Sys2Proof/Word.lean ====
section
/-! DEFINITION. Word.lean: the fixed-width values of the Rungel TQ4's records and registers. -/

namespace Sys2Proof

/-- One byte of a record, of a frame or of a fixture module (R181, R214). -/
abbrev Byte := BitVec 8

/-- A 16-bit field of a record (chapter 11). -/
abbrev Word16 := BitVec 16

/-- A 32-bit register or field (R1, chapter 11). -/
abbrev Word32 := BitVec 32

/-- Rack time: a 32-bit count of milliseconds since the last part reset, wrapping to 0
(00_scope.md, Conventions). -/
abbrev RackTime := BitVec 32

end Sys2Proof
end

