-- ==== Sys2Proof/Syntax.lean ====
section
/-! DEFINITION. Syntax.lean: the commands of the Rungel TQ4, one constructor of `Instr` for each row of
spec/opcode_table.json, and the types of their operands. -/

namespace Sys2Proof

/-- The four fixture positions of the rack (00_scope.md, Terms). -/
inductive Bay where
  | bay0 | bay1 | bay2 | bay3
deriving DecidableEq, Repr

/-- One value for each bay. -/
structure PerBay (α : Type) where
  bay0 : α
  bay1 : α
  bay2 : α
  bay3 : α
deriving DecidableEq, Repr

/-- The two slots of a bay (R6, section 1.2). -/
inductive Slot where
  | a | b
deriving DecidableEq, Repr

/-- The two halves of the exchange area base (R2). -/
inductive XbaseHalf where
  | low | high
deriving DecidableEq, Repr

/-- The outcome of one step (section 2.9). -/
inductive StepOutcome where
  | done | pass | marginal | fail | noData | noAnswer | timedOut | error | cut | aborted | skipped
deriving DecidableEq, Repr

/-- The causes that abort a run (R44). -/
inductive AbortCause where
  | request | operator | overcurrent | undervoltage | overvoltage | lidOpen | exchange | bayDisabled
deriving DecidableEq, Repr

/-- The outcome of a fixture bus entry (R169). -/
inductive BusOutcome where
  | done | noAckAddr | noAckData | lost | timeout | busFailed
deriving DecidableEq, Repr

/-- The detail code of a step's result (R61, section 11.8). -/
inductive Detail where
  | none
  | badCode | noSuchChannel | noSuchEntry | noSuchModule | panelModule | badProbeCount | zeroPeriod
  | badWindow | badLength | textOutside | repeatedChannel | repeatedLine
  | superseded | stopped
  | abort (cause : AbortCause)
  | bus (outcome : BusOutcome)
  | restarted | notSettled | mismatch | unusedEntry | late
deriving DecidableEq, Repr

/-- How a transmission attempt ends (R104). -/
inductive AttemptOutcome where
  | acked | lostArb | noAck | busError
deriving DecidableEq, Repr

/-- A frame received without error from another node (R92): `extended` marks a 29-bit identifier and
`remote` a request for data that carries no data. -/
structure RxFrame where
  extended : Bool
  remote : Bool
  id : Nat
  data : List Byte
deriving DecidableEq, Repr

/-- The four conditions that the supply monitor watches (R148). -/
inductive Condition where
  | overcurrent | undervoltage | overvoltage | lidOpen
deriving DecidableEq, Repr

/-- The read of the exchange area that a memory error concerns (R20, R22). `pass` is the read that the
scan pass in progress is waiting on. -/
inductive ReadAccess where
  | pass
  | withdrawal (bay : Bay)
  | backToBack (bay : Bay)
  | loading (bay : Bay)
deriving DecidableEq, Repr

/-- The slot writes with which CLOSING hands a run back: the result records not yet written, the part-written header fields
and the FINISHED word (R46, parts 1, 5 and 6). -/
inductive HandBackWrite where
  | record | header | finished
deriving DecidableEq, Repr

/-- The write of the exchange area that a memory error concerns (R20, R22, R23). `slot bay held` is a
write into a slot of the bay; `held` is false when the report comes after the bay has left the
CLOSING of the run that the write belongs to. `handBack bay write` is one of the writes with which the run held is handed
back, which the card will not accept: its report comes at the event of that write, while the slot is still held
(notes/assumptions/49.md). -/
inductive WriteAccess where
  | slot (bay : Bay) (held : Bool)
  | handBack (bay : Bay) (write : HandBackWrite)
  | withdrawal (bay : Bay)
  | bayStatus (bay : Bay)
  | rackStatus
deriving DecidableEq, Repr

/-- What one bay shows the part at a millisecond boundary (R117, R118, R147, R201): the readings of the
analogue sources before they are brought into range, the level of the interlock line, and the level of
the panel's attention line. `monitorFirst` says which of the two orders of R75, R138 and R157 this
boundary takes in the bay: set, the conditions recognized at the boundary are acted on before the
boundary is counted for the bay's other blocks. `startsHere` and `armedHere` name what has happened in the bay since the
boundary before and coincides with this one, so that this one is not counted for it although it is taken after it: the
steps that started (R133, R145), and the arming of the prompt (R206). `stopsHere` says that the bay's entry to CLOSING, by a stop, an
abort or otherwise, came since the boundary before and coincides with this one, which is taken after it but still advances the
actions stopped and still recognizes the conditions then armed (R76, R77, R157; notes/assumptions/58.md). -/
structure BayInputs where
  ai : Vector Int 8
  ls : Vector Int 8
  snd : Int
  supv : Int
  supi : Int
  lidOpen : Bool
  attention : Bool
  monitorFirst : Bool
  startsHere : List Nat
  armedHere : Bool
  stopsHere : Bool
deriving DecidableEq, Repr

/-- The commands: register accesses, requests, exchange-area accesses and events, one for each row of
spec/opcode_table.json. -/
inductive Instr where
  -- register window (chapter 1)
  | partReset
  | resetComplete
  | xbaseWrite (half : XbaseHalf) (value : Word32)
  | runSet
  | runClear
  | bayenSet (bay : Bay)
  | bayDisable (bay : Bay)
  | irqenWrite (on : Bool)
  | scanpWrite (value : Byte)
  | reset
  | eventsClear (mask : Word32)
  | merrRead (lanes : BitVec 4)
  | merrWrite (value : Word32)
  | nudge (value : Word32)
  | registerWriteOther (offset : BitVec 12) (lanes : BitVec 4) (value : Word32)
  -- the boundary and the scan (chapters 1 and 5)
  | millisecondBoundary (inputs : PerBay BayInputs)
  | scanTimerExpiry
  | commandBlockReadComplete (data : List Byte)
  | abortRun (bay : Bay) (seq : Word16)
  | withdraw (bay : Bay) (seq : Word16) (argument : Word32)
  | clearFaults (bay : Bay) (seq : Word16)
  | recoverBus (seq : Word16)
  | unknownRequest (bay : Option Bay) (seq : Word16)
  | withdrawReadComplete (bay : Bay) (word : Word32) (headerAccepted : Bool)
  | ownershipWordReadComplete (word : Word32)
  | backToBackReadComplete (bay : Bay) (word : Word32)
  | loadingReadComplete (bay : Bay) (data : List Byte)
  -- steps of a run (chapter 2)
  | dwellEnd (bay : Bay) (step : Nat)
  | stepEnd (bay : Bay) (step : Nat) (outcome : StepOutcome) (detail : Detail)
  | stepTimeout (bay : Bay) (step : Nat)
  -- status blocks and memory errors (chapter 1)
  | statusBlockWriteComplete (bay : Option Bay)
  | readTimeout (access : ReadAccess)
  | readError (access : ReadAccess)
  | writeError (access : WriteAccess)
  -- stimulus channels (chapter 3)
  | actionReachesTarget (bay : Bay) (channel : Fin 14)
  | pulsePeriodEnd (bay : Bay) (channel : Fin 2)
  -- vehicle network (chapter 4)
  | release (bay : Bay) (entry : Fin 16)
  | attemptStart (bay : Bay)
  | attemptEnd (bay : Bay) (outcome : AttemptOutcome)
  | probeTimerExpiry (bay : Bay)
  | receipt (bay : Bay) (frame : RxFrame)
  | tapStale (bay : Bay) (tap : Fin 8)
  -- measurement (chapter 5)
  | fiRisingEdge (bay : Bay) (input : Fin 2) (tick : Nat)
  | fiEdgeTimeout (bay : Bay) (input : Fin 2)
  | checkEarlyDecision (bay : Bay) (step : Nat)
  | periodEnd (bay : Bay) (step : Nat)
  -- supply and interlock (chapter 6)
  | notSettled (bay : Bay)
  | conditionRecognized (bay : Bay) (condition : Condition)
  | retryOffTimeEnd (bay : Bay)
  | retrySettleFailed (bay : Bay)
  -- fixture bus (chapter 7)
  | transactionBegin
  | transactionEnd (refused : Option Nat) (data : List Byte) (attention : Bool)
  | stretchTimeout
  | sclRiseAfterTimeout (sda : Bool)
  | sclHeld
  | arbitrationLost
  | otherMasterStart (sclFell : Bool) (meetsOwnStart : Bool)
  | otherMasterStop
  | busyOtherTimeout
  | sdaHeldTimeout
  | recoveryEnd (readings : List Bool) (afterStop : Bool)
  | recoverySclTimeout
  -- panel (chapter 9)
  | attentionAsserted (bay : Bay)
  | keyYes (bay : Bay)
  | keyNo (bay : Bay)
  | keyStart (bay : Bay)
  | keyAbort (bay : Bay)
  | noAnswer (bay : Bay)
  | fixtureBusLineChange (scl : Bool) (sda : Bool)
deriving DecidableEq, Repr

end Sys2Proof
end

