-- ==== Sys2Proof/Decode.lean ====
section
/-! DEFINITION. Decode.lean: the command that a word of the table's bits spells. No row of spec/opcode_table.json
gives bits: the commands of the Rungel TQ4 are events, not words (notes/assumptions/6.md). -/

namespace Sys2Proof

/-- The command that `nbits` bits of a word spell by the table: none, since no row of the table gives bits. -/
def decodeTableWord (_nbits _w : Nat) : Option Instr := none

end Sys2Proof
end

