-- ==== Sys2Proof/Config.lean ====
section
/-! DEFINITION. Config.lean: the values that the manual leaves open (free values). -/

namespace Sys2Proof

/-- A free value: nothing constrains it. The machine applies it to a plain counter of State
(`freeIndex`), so that each use has a value of its own. Used where the spec gives a result field and
states no value for it (notes/assumptions/7.md), and for the bytes sent in a transaction that is cut short
(notes/assumptions/47.md). -/
opaque Config.freeWord : Nat → Word32

/-- A free value: the form in which the retry fault, given by its bit in a fault set, appears in the unnamed bits of the
flags byte of the bay status block (R158, notes/assumptions/45.md). -/
opaque Config.retryFaultCode : Byte → BitVec 5

end Sys2Proof
end

