-- ==== Sys2Proof/Machine/State.lean ====
section
/-! DEFINITION. Machine/State.lean: everything the manual gives the Rungel TQ4 to hold, as plain data, the
value of each item after a part reset, and the reasons a step can stop. -/

namespace Sys2Proof.Machine

open Sys2Proof

/-! ### Codes and small types -/

/-- The bay states (section 2.5). -/
inductive Phase where
  | offline | idle | loading | checking | arming | running | paused | closing | halted
deriving DecidableEq, Repr

/-- A fault set, one byte: bit 0 OVERCURRENT, 1 UNDERVOLTAGE, 2 OVERVOLTAGE, 3 LID_OPEN, 4 EXCHANGE
(section 11.2). -/
abbrev FaultSet := BitVec 8

/-- The verdict of a run (R59). WITHDRAWN is written by a withdrawal only (R15). -/
inductive Verdict where
  | pass | fail | aborted | refused | withdrawn
deriving DecidableEq, Repr

/-- The end cause recorded with a verdict (R60). A refusal with LID_OPEN carries the same code as an
abort by LID_OPEN. -/
inductive EndCause where
  | none
  | abort (cause : AbortCause)
  | invalidRun | fixtureMismatch | serviceDue | fixtureBus | stoppedOnFail
deriving DecidableEq, Repr

/-- The result of an acted request: nothing before the first one (section 11.2, R14). -/
inductive EchoResult where
  | none | done | ignored
deriving DecidableEq, Repr

/-! ### Stimulus unit (chapter 3) -/

/-- The common part of a channel setup (R65). -/
structure ChanRange where
  min : Int
  max : Int
  dflt : Int
deriving DecidableEq, Repr

/-- The conversion parameters of a pulse channel (R65, R79, R80). -/
structure PulseConv where
  n : Nat
  d : Nat
  duty : Nat
deriving DecidableEq, Repr

/-- The conversion of a level channel (R84 to R86). A STAIRCASE lists steps 1 upward as (threshold, ohms). -/
inductive LevelMode where
  | direct
  | linear (points : List (Int × Int))
  | staircase (ohms0 : Int) (steps : List (Int × Int)) (hysteresis : Int)
deriving DecidableEq, Repr

/-- The byte order of a packed field (R97). -/
inductive ByteOrder where
  | lowFirst | highFirst
deriving DecidableEq, Repr

/-- A field inside a frame's payload (R97). -/
structure Field where
  start : Nat
  length : Nat
  order : ByteOrder
  signed : Bool
deriving DecidableEq, Repr

/-- The packing of a network-signal channel (R65, R88); `entry` is none when the packing is unused. -/
structure NetConv where
  entry : Option (Fin 16)
  field : Field
  resNum : Nat
  resDen : Nat
  offset : Int
deriving DecidableEq, Repr

/-- The STIMULUS setup part: fourteen channel setups in the order P0, P1, A0 to A3, N0 to N7 (R65). -/
structure StimSetup where
  ranges : Vector ChanRange 14
  pulse : Vector PulseConv 2
  level : Vector LevelMode 4
  net : Vector NetConv 8
deriving DecidableEq, Repr

/-- What a DRIVE action does (section 3.2). -/
inductive ActKind where
  | value | opened | shorted
deriving DecidableEq, Repr

/-- The shape of a DRIVE action (R71 to R73). -/
inductive Shape where
  | step
  | timed (ms : Nat)
  | rate (perMs : Nat)
deriving DecidableEq, Repr

/-- What an action that a claim, stop or abort takes from a channel leaves for a boundary of the same event that comes after
it: the value that it was to give the channel at its next counted boundary (R76). `step`, `start` and `early` say of the
action's own step what its entry in flight said, so that it is known whether that boundary is counted for it. The model's
own (notes/assumptions/58.md). -/
structure Handed where
  step : Nat
  start : RackTime
  early : Bool
  value : Int
deriving DecidableEq, Repr

/-- The action in force on a channel (section 3.1). `reached` is set when the action has made its final
counted boundary and its end has not been taken yet (R74). `older` is the model's own: the actions cut on the channel since
the boundary before, the latest first, from which a boundary that coincides with the claim takes the channel's value
(R76; notes/assumptions/58.md). -/
structure Action where
  step : Nat
  position : Nat
  kind : ActKind
  shape : Shape
  v0 : Int
  v1 : Int
  count : Nat
  clamped : Bool
  reached : Bool
  older : List Handed
deriving DecidableEq, Repr

/-- The form of a level channel (section 3.1). -/
inductive Form where
  | converted | opened | shorted
deriving DecidableEq, Repr

/-- A level output: disconnected, or a resistance in ohms (0 for SHORT) (R83). -/
inductive LevelOut where
  | opened
  | ohms (value : Int)
deriving DecidableEq, Repr

/-- A pulse generator, with the period and high time in ticks of the period in progress (R81). -/
inductive Generator where
  | stopped
  | running (period high : Nat)
deriving DecidableEq, Repr

/-- The stimulus unit of a bay (section 3.1). `frequency` is the frequency in millihertz computed at the
most recent boundary, none for stopped (R79); `stair` is the present staircase step, none for "to be
chosen" (R87). `stopped` is the model's own: what the actions stopped or aborted since the boundary before leave for a
boundary of the same event (R76, R77; notes/assumptions/58.md). -/
structure Stimulus where
  setup : StimSetup
  values : Vector Int 14
  actions : Vector (Option Action) 14
  stopped : Vector (List Handed) 14
  forms : Vector Form 4
  stair : Vector (Option Nat) 4
  levelOut : Vector LevelOut 4
  frequency : Vector (Option Nat) 2
  generators : Vector Generator 2
  lines : BitVec 16
  lineOut : BitVec 16
  safe : Bool
deriving DecidableEq, Repr

/-! ### Network emulator (chapter 4) -/

/-- The network state (R93). -/
inductive NetState where
  | stopped | live | noPartner
deriving DecidableEq, Repr

/-- The injection modes (R112). -/
inductive InjMode where
  | normal | freezeCounter | badChecksum | silent
deriving DecidableEq, Repr

/-- The part of its byte that a rolling counter occupies (R95, R97). -/
inductive CounterPart where
  | lowNibble | highNibble | wholeByte
deriving DecidableEq, Repr

/-- The rolling counter of a schedule entry (R95). -/
structure CounterSetup where
  byte : Nat
  part : CounterPart
  modulus : Nat
  initial : Nat
deriving DecidableEq, Repr

/-- The setup of a schedule entry (R95). -/
structure EntrySetup where
  enabled : Bool
  auto : Bool
  id : Nat
  length : Nat
  bytes : List Byte
  period : Nat
  phase : Nat
  counter : Option CounterSetup
  checksum : Option Nat
  mode : InjMode
deriving DecidableEq, Repr

/-- The working part of a schedule entry (R96). `untilRelease` counts the boundaries to the next release
moment, and `due` is set at a release moment until the release is made (R98). -/
structure EntryWork where
  on : Bool
  bytes : List Byte
  mode : InjMode
  counter : Nat
  late : Nat
  anchor : Option RackTime
  untilRelease : Nat
  due : Bool
deriving DecidableEq, Repr

/-- A frame in the transmit queue (R102). `rebuilt` is set when a release has replaced its content during
the attempt in progress (R103); `probe` marks the probe frame of NO_PARTNER (R106). -/
structure QFrame where
  entry : Fin 16
  id : Nat
  data : List Byte
  probe : Bool
  rebuilt : Bool
deriving DecidableEq, Repr

/-- The attempt in progress, with the content fixed at its start (R103). -/
structure Attempt where
  entry : Fin 16
  id : Nat
  data : List Byte
deriving DecidableEq, Repr

/-- The setup of a receive tap (R113). -/
structure TapSetup where
  inUse : Bool
  id : Nat
  field : Field
  resNum : Nat
  resDen : Nat
  offset : Int
  timeout : Nat
deriving DecidableEq, Repr

/-- A receive tap (R113, R114). -/
structure Tap where
  setup : TapSetup
  value : Int
  fresh : Bool
  receipt : RackTime
deriving DecidableEq, Repr

/-- The SCHEDULE setup part (R95): bit rate in kbit/s and 16 entries. -/
structure SchedSetup where
  bitRate : Nat
  entries : Vector EntrySetup 16
deriving DecidableEq, Repr

/-- The network emulator of a bay (section 4.1). `probeTimer` is the rack time at which the 500 ms to the next expiry of
the probe timer began, none when it is stopped (R105). -/
structure Network where
  state : NetState
  failures : Nat
  probeTimer : Option RackTime
  attempt : Option Attempt
  queue : List QFrame
  setup : SchedSetup
  work : Vector EntryWork 16
  taps : Vector Tap 8
deriving DecidableEq, Repr

/-! ### Sense unit (chapter 5) -/

/-- A frequency input: last-edge tick and value in millihertz (R119). -/
structure FreqInput where
  lastEdge : Option Nat
  value : Nat
deriving DecidableEq, Repr

/-- The modes of a probe (section 5.5). -/
inductive ProbeMode where
  | hold | reach | final | count
deriving DecidableEq, Repr

/-- The outcome in a probe entry (R140): NONE for an unused place, PENDING for an undecided probe. -/
inductive ProbeOutcome where
  | none | pass | marginal | fail | noData | pending
deriving DecidableEq, Repr

/-- The fields of a probe (R120), in force once the step has started. -/
structure ProbeSetup where
  source : Fin 29
  mode : ProbeMode
  low : Int
  high : Int
  guard : Int
  filter : Nat
  deglitch : Nat
  countMin : Int
  countMax : Int
deriving DecidableEq, Repr

/-- The level of a COUNT probe (R130). -/
inductive CountLevel where
  | none | above | below
deriving DecidableEq, Repr

/-- A probe place: fields and working state (R121). `lastStale` records whether the sample of the latest
counted boundary was STALE (R132). -/
structure Probe where
  setup : ProbeSetup
  state : ProbeOutcome
  history : List Int
  filtered : Option Int
  fresh : Nat
  run : Nat
  violation : Bool
  margin : Bool
  level : CountLevel
  count : Nat
  periodWorst : Option Int
  runWorst : Option Int
  lastStale : Bool
deriving DecidableEq, Repr

/-- A CHECK step in flight (section 5.6): counted boundaries, period, restart mark and the probe places it
has taken. -/
structure CheckWork where
  k : Nat
  period : Nat
  restarted : Bool
  probes : List Probe
deriving DecidableEq, Repr

/-! ### Supply monitor (chapter 6) -/

/-- The modes of a fault (R150). -/
inductive FaultMode where
  | latch | retry | report | off
deriving DecidableEq, Repr

/-- One value for each monitored condition (R148). -/
structure PerCondition (α : Type) where
  overcurrent : α
  undervoltage : α
  overvoltage : α
  lidOpen : α
deriving DecidableEq, Repr

/-- The SUPERVISION setup part (R143). -/
structure Supervision where
  modes : PerCondition FaultMode
  currentLimit : Nat
  uvBand : Nat
  ovBand : Nat
  deglitch : PerCondition Nat
  retryTime : Nat
  retryMax : Nat
  nominal : Nat
deriving DecidableEq, Repr

/-- The phase of a supply retry (R153) with its boundary count. -/
inductive RetryPhase where
  | none
  | offTime (count : Nat)
  | settling (count : Nat)
deriving DecidableEq, Repr

/-- A condition's persistence count and recognized mark (R149). `pending` is set when the condition has
been recognized and the recognition has not been acted on yet. -/
structure Watch where
  count : Nat
  recognized : Bool
  pending : Bool
deriving DecidableEq, Repr

/-- The settle judgement of a POWER ON step (R145): the step and its boundary count. -/
structure Settle where
  step : Nat
  count : Nat
deriving DecidableEq, Repr

/-- The supply monitor of a bay (section 6.1). `atClosing` is the model's own: the watches of the conditions that were armed
at an entry to CLOSING since the boundary before, as they stood then, for a boundary of the same event that comes after it
(R157; notes/assumptions/58.md). -/
structure Supply where
  setup : Supervision
  on : Bool
  setting : Nat
  armed : Bool
  watches : PerCondition Watch
  atClosing : PerCondition (Option Watch)
  settle : Option Settle
  retry : RetryPhase
  retryFault : Option Condition
  retryCount : Nat
  latched : FaultSet
  reported : FaultSet
  lidOpen : Bool
deriving DecidableEq, Repr

/-! ### Run engine (chapter 2) -/

/-- The rack-written header fields of a run (R27). -/
structure Header where
  label : Word32
  fixtureType : Nat
  waitStart : Bool
  eventOnFinish : Bool
  stopOnFirstFail : Bool
  marginalIsFail : Bool
  ignoreService : Bool
  stepCount : Nat
  hasStimulus : Bool
  hasSchedule : Bool
  hasTaps : Bool
  hasSupervision : Bool
  passText : Nat
  failText : Nat
deriving DecidableEq, Repr

/-- An action of a DRIVE step as posted (section 11.7). -/
structure DriveAction where
  position : Nat
  channel : Fin 14
  kind : ActKind
  shape : Shape
  target : Int
deriving DecidableEq, Repr

/-- The actions of a FRAME step (section 4.5). -/
inductive FrameAction where
  | start
  | stop
  | setBytes (bytes : List Byte)
  | inject (mode : InjMode)
deriving DecidableEq, Repr

/-- The forms of a prompt (section 9.5). -/
inductive PromptForm where
  | note | ask | ack
deriving DecidableEq, Repr

/-- The body of a step record (section 11.7). A PROMPT holds its 48 display bytes (R199); a JOIN holds the
tag it waits on, none for ALL (R34). -/
inductive StepBody where
  | drive (actions : List DriveAction) (linesOn linesOff : BitVec 16)
  | dwell (ms : Nat)
  | check (period : Nat) (probes : List ProbeSetup)
  | prompt (text : List Byte) (form : PromptForm) (timeout : Nat)
  | frame (entry : Fin 16) (action : FrameAction)
  | fixture (module : Fin 16) (write : Bool) (index : Byte) (data expected mask : List Byte)
  | power (on : Bool) (setting : Nat)
  | join (tag : Option Nat)
deriving DecidableEq, Repr

/-- A step record (R31). -/
structure Step where
  overlap : Bool
  stopOnFail : Bool
  notCounted : Bool
  tag : Nat
  timeout : Nat
  body : StepBody
deriving DecidableEq, Repr

/-- What the carrying block holds for a step in flight (R32). A DRIVE lists the positions of its
unfinished actions and whether one of its actions has reached its target (R54). -/
inductive Work where
  | drive (unfinished : List Nat) (anyReached : Bool)
  | dwell (left : Nat)
  | check (work : CheckWork)
  | prompt
  | frame
  | fixture (write : Bool) (expected mask : List Byte)
  | power
  | join (tag : Option Nat)
deriving DecidableEq, Repr

/-- An entry of the in-flight table (R32): the step, the rack time of its start, its remaining timeout, and
the flags that its result will carry (R61). `early` is the model's own: an action of the step that cut another one ended at
its start (R74), so that the step's start came before the next boundary (R76; notes/assumptions/58.md). -/
structure InFlight where
  index : Nat
  tag : Nat
  overlap : Bool
  start : RackTime
  early : Bool
  timeout : Option Nat
  clamped : BitVec 4
  reported : FaultSet
  work : Work
deriving DecidableEq, Repr

/-- The result of a step (R61). -/
structure StepResult where
  index : Nat
  tag : Nat
  outcome : StepOutcome
  detail : Detail
  clamped : BitVec 4
  reported : FaultSet
  start : RackTime
  stop : RackTime
  probes : List (ProbeOutcome × Int)
deriving DecidableEq, Repr

/-- The part of the slot that LOADING is reading (R35). -/
inductive LoadRead where
  | header | stimulus | schedule | taps | supervision
  | record (index : Nat)
  | text
deriving DecidableEq, Repr

/-- A read of the exchange area as it was issued: its physical address, formed with the base in force at the issue
(R2), and its timeout interval in microseconds (R20). -/
structure ReadIssue where
  address : Nat
  interval : Nat
deriving DecidableEq, Repr

/-- LOADING in progress: the read outstanding as it was issued, and the cause of an abort that has arrived and waits
for that read (R35), with the sequence of the ABORT_RUN request whose echo waits for CLOSING (R14). -/
structure Loading where
  read : LoadRead
  issue : ReadIssue
  abort : Option AbortCause
  echo : Option Word16
deriving DecidableEq, Repr

/-- The run engine's own copy of the run (R29): the bytes read, and the steps once validated. -/
structure RunCopy where
  header : Option Header
  stimulus : List Byte
  schedule : List Byte
  taps : List Byte
  supervision : List Byte
  records : List (List Byte)
  text : List Byte
  steps : List Step
deriving DecidableEq, Repr

/-- The ident values of a run (R182, section 8.2). -/
structure Ident where
  typeCode : Nat
  serial : Word32
  cycles : Word32
  limit : Word32
deriving DecidableEq, Repr

/-- What CLOSING is waiting for (R46): the bay's transaction on the bus, the cycle-count write, or the
verdict display. -/
inductive ClosingStage where
  | none | bus | cycle | panel
deriving DecidableEq, Repr

/-- The run engine of a bay (chapter 2, section 8.2). A claim names an in-flight DRIVE step and the position
of its action (section 2.8). `lost` is set when a write into the held slot has failed (R23). -/
structure RunEngine where
  slot : Option Slot
  lastTaken : Option Slot
  load : Option Loading
  copy : RunCopy
  next : Nat
  inFlight : List InFlight
  claims : Vector (Option (Nat × Nat)) 14
  results : List StepResult
  takeTime : RackTime
  startTime : RackTime
  endTime : RackTime
  ran : Bool
  verdict : Option Verdict
  cause : EndCause
  offending : Nat
  lost : Bool
  identMark : Bool
  ident : Option Ident
  cycleAfter : Word32
  closing : ClosingStage
deriving DecidableEq, Repr

/-! ### Panel handler (chapter 9) -/

/-- The fixed texts that may wait for the display (section 9.2). -/
inductive FixedText where
  | clear | pressStart | closeLid
deriving DecidableEq, Repr

/-- The purpose of a display write (section 9.2). -/
inductive DisplayPurpose where
  | fixed (text : FixedText)
  | prompt (step : Nat)
  | verdictText
deriving DecidableEq, Repr

/-- The states of a prompt in the queue (section 9.5); an ENDED prompt has left the queue. -/
inductive PromptState where
  | waiting | writing | armed
deriving DecidableEq, Repr

/-- A prompt of the prompt queue (section 9.2). The remaining answer timeout is none for a prompt whose
timeout never expires. `armedAt` is the model's own mark: the rack time of the arming, which tells whether the arming has
come since the boundary before (R206; notes/assumptions/58.md). -/
structure Prompt where
  step : Nat
  form : PromptForm
  text : List Byte
  timeout : Nat
  remaining : Option Nat
  state : PromptState
  armedAt : Option RackTime
deriving DecidableEq, Repr

/-- The key read state (section 9.2). -/
inductive KeyRead where
  | none | outstanding | waitBoundary
deriving DecidableEq, Repr

/-- The panel handler of a bay (section 9.2). `lampWrite` is the byte of the lamp write outstanding and
`lampWaiting` the byte of one that is to follow it (R200); `attention` is the level of the panel's
attention line. -/
structure Panel where
  prompts : List Prompt
  display : Option DisplayPurpose
  waitingText : Option FixedText
  lampWrite : Option Byte
  lampWaiting : Option Byte
  keyRead : KeyRead
  closeLid : Bool
  attention : Bool
deriving DecidableEq, Repr

/-! ### Exchange unit (chapter 1) -/

/-- A status block write: none in progress, one in progress, or one in progress and one further marked
(R18). -/
inductive WriteProgress where
  | idle | busy | busyMarked
deriving DecidableEq, Repr

/-- A withdrawal waiting for the read of its slot's ownership word (R15). -/
structure Withdrawal where
  slot : Slot
  seq : Word16
  issue : ReadIssue
deriving DecidableEq, Repr

/-- What the exchange unit holds for one bay besides the status block (sections 1.3 to 1.5).
`backToBack` is the back-to-back read outstanding: the slot whose ownership word it reads, and the read as it was
issued (R11). `refused` is the model's own: the write of the run's hand-back that the card will not accept, as a WRITE_ERROR
has said it (R23; notes/assumptions/49.md). -/
structure BayExchange where
  enabled : Bool
  lastSeq : Word16
  next : Slot
  waiting : Option Slot
  write : WriteProgress
  backToBack : Option (Slot × ReadIssue)
  withdrawal : Option Withdrawal
  refused : Option HandBackWrite
deriving DecidableEq, Repr

/-- The items of the bay status block copy that no other block of the bay holds (R17). -/
structure BayStatus where
  label : Word32
  lostLabel : Word32
  runLost : Bool
  cycleFailed : Bool
  lampFailed : Bool
  echoSeq : Word16
  echo : EchoResult
  identType : Nat
  identSerial : Word32
  identCycles : Word32
  finished : Word32
  passed : Word32
  failed : Word32
deriving DecidableEq, Repr

/-- The reads of a scan pass (R8). `word bay slot second` is the read of one ownership word, the bay's next slot
first. -/
inductive PassRead where
  | rackBlock
  | bayBlock (bay : Bay)
  | word (bay : Bay) (slot : Slot) (second : Bool)
deriving DecidableEq, Repr

/-- The scan pass in progress (R8). `read` is its latest read, as it was issued, and `waits` says that this read has
completed and that the next one waits for the end of a withdrawal (R13, R15). `posted` lists the slots of the present
bay found POSTED and not taken, in the order read (R9); `withdrawn` lists the slots withdrawn in the pass (R10, R15);
`discard` is set when the bay's BAYEN bit has been cleared while the pass reads its blocks (R8); `ending` is set when
CTRL.RUN has gone to 0 (R3). -/
structure Pass where
  read : PassRead
  issue : ReadIssue
  waits : Bool
  posted : List Slot
  withdrawn : List (Bay × Slot)
  discard : Bool
  ending : Bool
deriving DecidableEq, Repr

/-- The kinds of memory error (R20). -/
inductive ErrorKind where
  | none | readError | writeError | timeout
deriving DecidableEq, Repr

/-- The memory-error report (R21); `bay` is none for RACK. -/
structure Merr where
  kind : ErrorKind
  bay : Option Bay
  multi : Bool
  interval : Byte
deriving DecidableEq, Repr

/-- Which record a write of the exchange area carries. -/
inductive WriteKind where
  | active (bay : Bay)
  | result (bay : Bay) (step : Nat)
  | header (bay : Bay)
  | finished (bay : Bay)
  | bayStatus (bay : Bay)
  | rackStatus
deriving DecidableEq, Repr

/-- An item of the part's one output stream (R24): a write of the exchange area, with its physical address
and bytes, or an interrupt message (R26). -/
inductive StreamItem where
  | write (kind : WriteKind) (address : Nat) (bytes : List Byte)
  | interrupt
deriving DecidableEq, Repr

/-- The exchange unit (chapter 1). `stream` holds what the part has issued since the last part reset, oldest
first; `readData` is the value of the latest MERR read; `scanTimer` is the period in microseconds that the
scan timer is counting, none when it is stopped. -/
structure Exchange where
  resetting : Bool
  xbaseLo : Word32
  xbaseHi : Word32
  run : Bool
  irqen : Bool
  scanp : Byte
  events : Word32
  merr : Merr
  scanTimer : Option Nat
  pass : Option Pass
  follow : Bool
  rackSeq : Word16
  rackEchoSeq : Word16
  rackEcho : EchoResult
  rackWrite : WriteProgress
  stream : List StreamItem
  readData : Word32
deriving DecidableEq, Repr

/-! ### Fixture bus master (chapter 7) -/

/-- The fixture bus states (section 7.4). -/
inductive BusState where
  | idle | active | busyOther | recovering | failed
deriving DecidableEq, Repr

/-- The last failure cause of the bus (R179). -/
inductive BusCause where
  | none | stretchTimeout | sclHeld | sdaStuck
deriving DecidableEq, Repr

/-- The result of the last recovery (R179). -/
inductive Recovery where
  | none | recovered | stillFailed
deriving DecidableEq, Repr

/-- Who asked for a transaction (R162). -/
inductive Owner where
  | fixtureCheck
  | cycleCount
  | step (index : Nat)
  | display (purpose : DisplayPurpose)
  | lamp
  | key
deriving DecidableEq, Repr

/-- The operation of a transaction, with the bytes to send or the count of bytes to read (R162). -/
inductive BusOp where
  | write (data : List Byte)
  | read (count : Nat)
deriving DecidableEq, Repr

/-- A transaction entry (R162). -/
structure BusEntry where
  bay : Bay
  owner : Owner
  module : Fin 16
  op : BusOp
  index : Byte
  losses : Nat
  started : Bool
deriving DecidableEq, Repr

/-- The fixture bus master (chapter 7). `onBus` says that the head of the queue is on the bus; `waitScl` is the rack
time since which the part waits for SCL after a TIMEOUT, none when it does not wait (R165); `scl` and `sda` are the
levels of the lines; `fast` is the speed selected and `fastInUse` the speed of the present transaction or recovery
(R160); `wire` lists the bytes the part sends in the transaction begun last: all it is to send, cut after the refused
byte when one is refused, and after the last whole byte when arbitration is lost or the clock is held 25 ms (R163 to R165,
R173; notes/assumptions/47.md);
`countsFrom` is the rack time at which the 35 ms counts and the free time last restarted (R160, R171, R172). -/
structure Bus where
  state : BusState
  cause : BusCause
  recovery : Recovery
  fast : Bool
  fastInUse : Bool
  queue : List BusEntry
  held : List BusEntry
  onBus : Bool
  waitScl : Option RackTime
  scl : Bool
  sda : Bool
  wire : List Byte
  countsFrom : RackTime
deriving DecidableEq, Repr

/-! ### The whole machine -/

/-- Everything the manual gives one bay. -/
structure BayState where
  phase : Phase
  run : RunEngine
  stim : Stimulus
  net : Network
  fi : Vector FreqInput 2
  supply : Supply
  panel : Panel
  xu : BayExchange
  status : BayStatus
deriving DecidableEq, Repr

/-- The state of the part. `pending` is the queue of commands waiting, first in first out; `tick` is the tick
of the generator clock at the latest millisecond boundary, counted from the completion of the part reset;
`freeIndex` numbers the free values used so far (notes/assumptions/7.md). -/
structure State where
  pending : List Instr
  rackTime : RackTime
  tick : Nat
  freeIndex : Nat
  xu : Exchange
  bus : Bus
  bays : PerBay BayState
deriving DecidableEq, Repr

/-- Reasons a step can stop with a fault. -/
inductive Fault where
  /-- Raised by no command: every command of the table has its effect (notes/assumptions/1.md). Safe. -/
  | neverRaised
deriving DecidableEq, Repr

/-- Reasons a step can be refused. -/
inductive Refusal where
  /-- Raised by an arm of `exec` whose command has no meaning yet; no arm does. Safe: the machine stops. -/
  | notModelled (mnemonic : String)
deriving DecidableEq, Repr

/-! ### Reset values -/

/-- The default channel setups (R65, table of defaults). -/
def StimSetup.reset : StimSetup where
  ranges := #v[⟨0, 1000000000, 0⟩, ⟨0, 1000000000, 0⟩,
    ⟨10, 4000, 4000⟩, ⟨10, 4000, 4000⟩, ⟨10, 4000, 4000⟩, ⟨10, 4000, 4000⟩,
    ⟨0, 1000000, 0⟩, ⟨0, 1000000, 0⟩, ⟨0, 1000000, 0⟩, ⟨0, 1000000, 0⟩,
    ⟨0, 1000000, 0⟩, ⟨0, 1000000, 0⟩, ⟨0, 1000000, 0⟩, ⟨0, 1000000, 0⟩]
  pulse := Vector.replicate 2 ⟨1, 1, 50⟩
  level := Vector.replicate 4 .direct
  net := Vector.replicate 8 ⟨none, ⟨0, 32, .lowFirst, false⟩, 1, 1, 0⟩

/-- The stimulus unit after a part reset (R64). -/
def Stimulus.reset : Stimulus where
  setup := StimSetup.reset
  values := #v[0, 0, 4000, 4000, 4000, 4000, 0, 0, 0, 0, 0, 0, 0, 0]
  actions := Vector.replicate 14 none
  stopped := Vector.replicate 14 []
  forms := Vector.replicate 4 .converted
  stair := Vector.replicate 4 none
  levelOut := Vector.replicate 4 .opened
  frequency := Vector.replicate 2 none
  generators := Vector.replicate 2 .stopped
  lines := 0
  lineOut := 0
  safe := true

/-- A schedule entry after a part reset (R95). -/
def EntrySetup.reset : EntrySetup :=
  ⟨false, false, 0, 0, List.replicate 8 0, 10, 0, none, none, .normal⟩

/-- The working part of a schedule entry after a part reset (R96). -/
def EntryWork.reset : EntryWork := ⟨false, List.replicate 8 0, .normal, 0, 0, none, 0, false⟩

/-- A receive tap after a part reset: not in use, value 0, STALE (R113). Its receipt time is 0, and so it is after a load of
TAPS: the model's choice (notes/assumptions/18.md). -/
def Tap.reset : Tap := ⟨⟨false, 0, ⟨0, 1, .lowFirst, false⟩, 1, 1, 0, 10⟩, 0, false, 0⟩

/-- The network emulator after a part reset (R91, R93, R95, R96, R113). -/
def Network.reset : Network where
  state := .stopped
  failures := 0
  probeTimer := none
  attempt := none
  queue := []
  setup := ⟨500, Vector.replicate 16 EntrySetup.reset⟩
  work := Vector.replicate 16 EntryWork.reset
  taps := Vector.replicate 8 Tap.reset

/-- The supervision defaults (R143). -/
def Supervision.reset : Supervision where
  modes := ⟨.latch, .latch, .latch, .latch⟩
  currentLimit := 1000
  uvBand := 10
  ovBand := 10
  deglitch := ⟨10, 10, 10, 10⟩
  retryTime := 1000
  retryMax := 3
  nominal := 12000

/-- A monitored condition that has not been seen (R142). -/
def Watch.clear : Watch := ⟨0, false, false⟩

/-- The supply monitor after a part reset (section 6.1, R142). -/
def Supply.reset : Supply where
  setup := Supervision.reset
  on := false
  setting := 12000
  armed := false
  watches := ⟨Watch.clear, Watch.clear, Watch.clear, Watch.clear⟩
  atClosing := ⟨none, none, none, none⟩
  settle := none
  retry := .none
  retryFault := none
  retryCount := 0
  latched := 0
  reported := 0
  lidOpen := false

/-- A run engine's copy before anything has been read (R29, R38). -/
def RunCopy.empty : RunCopy := ⟨none, [], [], [], [], [], [], []⟩

/-- The run engine after a part reset: it holds no run (R38, section 8.2). -/
def RunEngine.reset : RunEngine where
  slot := none
  lastTaken := none
  load := none
  copy := RunCopy.empty
  next := 0
  inFlight := []
  claims := Vector.replicate 14 none
  results := []
  takeTime := 0
  startTime := 0
  endTime := 0
  ran := false
  verdict := none
  cause := .none
  offending := 0
  lost := false
  identMark := false
  ident := none
  cycleAfter := 0
  closing := .none

/-- The panel handler after a part reset (section 9.2). -/
def Panel.reset : Panel := ⟨[], none, none, none, none, .none, false, false⟩

/-- The exchange unit's items of a bay after a part reset (R4). -/
def BayExchange.reset : BayExchange := ⟨false, 0, .a, none, .idle, none, none, none⟩

/-- The bay status block copy after a part reset (R4, R38, R185). -/
def BayStatus.reset : BayStatus := ⟨0, 0, false, false, false, 0, .none, 0, 0, 0, 0, 0, 0⟩

/-- A bay after a part reset: OFFLINE (R38). -/
def BayState.reset : BayState where
  phase := .offline
  run := RunEngine.reset
  stim := Stimulus.reset
  net := Network.reset
  fi := Vector.replicate 2 ⟨none, 0⟩
  supply := Supply.reset
  panel := Panel.reset
  xu := BayExchange.reset
  status := BayStatus.reset

/-- The exchange unit after a part reset (R4, section 1.1). -/
def Exchange.reset : Exchange where
  resetting := false
  xbaseLo := 0
  xbaseHi := 0
  run := false
  irqen := false
  scanp := 0
  events := 0
  merr := ⟨.none, none, false, 16⟩
  scanTimer := none
  pass := none
  follow := false
  rackSeq := 0
  rackEchoSeq := 0
  rackEcho := .none
  rackWrite := .idle
  stream := []
  readData := 0

/-- The fixture bus master after a part reset (R180): idle, empty, both lines released. -/
def Bus.reset : Bus where
  state := .idle
  cause := .none
  recovery := .none
  fast := false
  fastInUse := false
  queue := []
  held := []
  onBus := false
  waitScl := none
  scl := true
  sda := true
  wire := []
  countsFrom := 0

/-- The part right after a part reset has completed (R4). -/
def State.reset : State where
  pending := []
  rackTime := 0
  tick := 0
  freeIndex := 0
  xu := Exchange.reset
  bus := Bus.reset
  bays := ⟨BayState.reset, BayState.reset, BayState.reset, BayState.reset⟩

end Sys2Proof.Machine
end

