-- ==== Sys2Proof/Machine/Operands.lean ====
section
/-! DEFINITION. Machine/Operands.lean: exact arithmetic, access to tables, the fields of the exchange records
(chapter 11) read from bytes and written as bytes, and the checks of validation (R36). -/

namespace Sys2Proof.Machine

open Sys2Proof

/-! ### Tables -/

/-- The value of one bay. -/
def bayGet {α : Type} (t : PerBay α) : Bay → α
  | .bay0 => t.bay0
  | .bay1 => t.bay1
  | .bay2 => t.bay2
  | .bay3 => t.bay3

/-- The table with one bay's value replaced. -/
def baySet {α : Type} (t : PerBay α) (b : Bay) (x : α) : PerBay α :=
  match b with
  | .bay0 => { t with bay0 := x }
  | .bay1 => { t with bay1 := x }
  | .bay2 => { t with bay2 := x }
  | .bay3 => { t with bay3 := x }

/-- The number of a bay. -/
def bayNum : Bay → Nat
  | .bay0 => 0
  | .bay1 => 1
  | .bay2 => 2
  | .bay3 => 3

/-- The four bays in order. -/
def allBays : List Bay := [.bay0, .bay1, .bay2, .bay3]

/-- The bays after a bay, in the order a pass reads them (R8). -/
def baysAfter : Bay → List Bay
  | .bay0 => [.bay1, .bay2, .bay3]
  | .bay1 => [.bay2, .bay3]
  | .bay2 => [.bay3]
  | .bay3 => []

/-- The other slot of the bay (R12). -/
def otherSlot : Slot → Slot
  | .a => .b
  | .b => .a

/-- The number of a slot. -/
def slotNum : Slot → Nat
  | .a => 0
  | .b => 1

/-- The value of one condition. -/
def condGet {α : Type} (t : PerCondition α) : Condition → α
  | .overcurrent => t.overcurrent
  | .undervoltage => t.undervoltage
  | .overvoltage => t.overvoltage
  | .lidOpen => t.lidOpen

/-- The table with one condition's value replaced. -/
def condSet {α : Type} (t : PerCondition α) (c : Condition) (x : α) : PerCondition α :=
  match c with
  | .overcurrent => { t with overcurrent := x }
  | .undervoltage => { t with undervoltage := x }
  | .overvoltage => { t with overvoltage := x }
  | .lidOpen => { t with lidOpen := x }

/-- The four conditions in the order of the modes (section 11.6). -/
def allConditions : List Condition := [.overcurrent, .undervoltage, .overvoltage, .lidOpen]

/-- The indices 0 to n − 1. -/
def indices (n : Nat) : List (Fin n) :=
  (List.range n).filterMap fun i => if h : i < n then some ⟨i, h⟩ else none

/-- The table with one place replaced. -/
def tabSet {α : Type} {n : Nat} (t : Vector α n) (i : Fin n) (x : α) : Vector α n := t.set i.1 x i.2

/-- The table with a function of the index applied to each place. -/
def tabMap {α β : Type} {n : Nat} (f : Nat → α → β) (t : Vector α n) : Vector β n :=
  ⟨⟨t.toList.zipIdx.map fun p => f p.2 p.1⟩, by simp⟩

/-! ### Exact arithmetic (00_scope.md, Conventions) -/

/-- Division rounded to the nearest integer, halves away from zero, for a positive divisor. -/
def roundDiv (a b : Int) : Int :=
  if 0 ≤ a then (2 * a + b) / (2 * b) else -((2 * -a + b) / (2 * b))

/-- A number brought to the nearer end of a range. -/
def clampTo (lo hi v : Int) : Int := if v < lo then lo else if hi < v then hi else v

/-- A count brought to the nearer end of a range. -/
def clampNat (lo hi v : Nat) : Nat := if v < lo then lo else if hi < v then hi else v

/-- The value bound, −1,000,000,000 to +1,000,000,000. -/
def valueBound (v : Int) : Int := clampTo (-1000000000) 1000000000 v

/-- A count that holds at 65,535 (R96). -/
def lateUp (n : Nat) : Nat := if n < 65535 then n + 1 else 65535

/-! ### Little-endian bytes -/

/-- Byte i of a record; a byte the record does not have reads as 0 (notes/assumptions/5.md). -/
def byteAt (d : List Byte) (i : Nat) : Nat := (d.getD i 0).toNat

/-- A 2-byte field. -/
def u16At (d : List Byte) (i : Nat) : Nat := byteAt d i + 256 * byteAt d (i + 1)

/-- A 4-byte unsigned field. -/
def u32At (d : List Byte) (i : Nat) : Nat := u16At d i + 65536 * u16At d (i + 2)

/-- A 4-byte signed field. -/
def s32At (d : List Byte) (i : Nat) : Int :=
  if u32At d i < 2147483648 then (u32At d i : Int) else (u32At d i : Int) - 4294967296

/-- n bytes from offset i. -/
def bytesAt (d : List Byte) (i n : Nat) : List Byte := (List.range n).map fun j => d.getD (i + j) 0

/-- A number as n bytes, least significant first. -/
def leBytes : Nat → Nat → List Byte
  | 0, _ => []
  | n + 1, v => BitVec.ofNat 8 v :: leBytes n (v / 256)

/-- A 32-bit word as bytes. -/
def wordBytes (w : Word32) : List Byte := leBytes 4 w.toNat

/-- A 16-bit word as bytes. -/
def halfBytes (w : Word16) : List Byte := leBytes 2 w.toNat

/-- A signed engineering value as 4 bytes in two's complement. -/
def s32Bytes (v : Int) : List Byte := leBytes 4 (v % 4294967296).toNat

/-- A byte of 0 or 1 bit set at a position. -/
def flagBit (b : Bool) (k : Nat) : Nat := if b then 2 ^ k else 0

/-! ### Fields inside a payload (R97) -/

/-- The bit position that follows p. -/
def nextPosition (order : ByteOrder) (p : Int) : Int :=
  match order with
  | .lowFirst => p + 1
  | .highFirst => if p % 8 = 7 then p - 15 else p + 1

/-- n bit positions from p on, in order of rising significance. -/
def positionsFrom (order : ByteOrder) : Nat → Int → List Int
  | 0, _ => []
  | n + 1, p => p :: positionsFrom order n (nextPosition order p)

/-- The bit positions of a field, least significant first. -/
def fieldPositions (f : Field) : List Int := positionsFrom f.order f.length f.start

/-- Whether a list of bit positions lies within a frame of the given length. -/
def withinFrame (ps : List Int) (length : Nat) : Bool := ps.all fun p => 0 ≤ p && p < 8 * (length : Int)

/-- The payload with one bit set to a value. -/
def setPayloadBit (d : List Byte) (p : Nat) (bit : Bool) : List Byte :=
  let old := d.getD (p / 8) 0
  let m : Byte := BitVec.ofNat 8 (2 ^ (p % 8))
  d.set (p / 8) (if bit then old ||| m else old &&& ~~~m)

/-- The payload with the bits of `raw` placed at the positions, least significant first. -/
def placeBits (ps : List Int) (raw : Nat) (d : List Byte) : List Byte :=
  match ps with
  | [] => d
  | p :: rest => placeBits rest (raw / 2) (setPayloadBit d p.toNat (raw % 2 = 1))

/-- The unsigned number read at the positions of a payload, least significant first. -/
def readBits (d : List Byte) : List Int → Nat
  | [] => 0
  | p :: rest => flagBit ((byteAt d (p.toNat / 8)).testBit (p.toNat % 8)) 0 + 2 * readBits d rest

/-- The raw value of a field: unsigned, or two's complement over its length (R97, R114). -/
def readField (d : List Byte) (f : Field) : Int :=
  let raw := readBits d (fieldPositions f)
  if f.signed && 2 ^ (f.length - 1) ≤ raw then (raw : Int) - (2 ^ f.length : Nat) else (raw : Int)

/-- The bit positions of a rolling counter (R97). -/
def counterPositions (c : CounterSetup) : List Int :=
  match c.part with
  | .lowNibble => positionsFrom .lowFirst 4 (8 * c.byte)
  | .highNibble => positionsFrom .lowFirst 4 (8 * c.byte + 4)
  | .wholeByte => positionsFrom .lowFirst 8 (8 * c.byte)

/-- The bit positions of a checksum byte (R97). -/
def checksumPositions (b : Nat) : List Int := positionsFrom .lowFirst 8 (8 * b)

/-! ### Codes (sections 11.2 to 11.8) -/

/-- Bay state codes. -/
def phaseCode : Phase → Nat
  | .offline => 0 | .idle => 1 | .loading => 2 | .checking => 3 | .arming => 4
  | .running => 5 | .paused => 6 | .closing => 7 | .halted => 8

/-- Bus state codes. -/
def busStateCode : BusState → Nat
  | .idle => 0 | .active => 1 | .busyOther => 2 | .recovering => 3 | .failed => 4

/-- Last failure cause codes. -/
def busCauseCode : BusCause → Nat
  | .none => 0 | .stretchTimeout => 1 | .sclHeld => 2 | .sdaStuck => 3

/-- Result of the last recovery codes. -/
def recoveryCode : Recovery → Nat
  | .none => 0 | .recovered => 1 | .stillFailed => 2

/-- Network state codes. -/
def netStateCode : NetState → Nat
  | .stopped => 0 | .live => 1 | .noPartner => 2

/-- Echo result codes. -/
def echoCode : EchoResult → Nat
  | .none => 0 | .done => 1 | .ignored => 2

/-- Slot codes: 0xFF for none. -/
def slotCode : Option Slot → Nat
  | none => 0xFF
  | some s => slotNum s

/-- Memory-error kind codes. -/
def errorKindCode : ErrorKind → Nat
  | .none => 0 | .readError => 1 | .writeError => 2 | .timeout => 3

/-- Verdict codes. -/
def verdictCode : Verdict → Nat
  | .pass => 1 | .fail => 2 | .aborted => 3 | .refused => 4 | .withdrawn => 5

/-- End-cause codes of the abort causes. -/
def abortCode : AbortCause → Nat
  | .request => 1 | .operator => 2 | .overcurrent => 3 | .undervoltage => 4
  | .overvoltage => 5 | .lidOpen => 6 | .exchange => 7 | .bayDisabled => 8

/-- End-cause codes. -/
def endCauseCode : EndCause → Nat
  | .none => 0
  | .abort c => abortCode c
  | .invalidRun => 9 | .fixtureMismatch => 10 | .serviceDue => 11 | .fixtureBus => 12
  | .stoppedOnFail => 13

/-- Step outcome codes. -/
def outcomeCode : StepOutcome → Nat
  | .done => 1 | .pass => 2 | .marginal => 3 | .fail => 4 | .noData => 5 | .noAnswer => 6
  | .timedOut => 7 | .error => 8 | .cut => 9 | .aborted => 10 | .skipped => 11

/-- Probe entry outcome codes. -/
def probeOutcomeCode : ProbeOutcome → Nat
  | .none => 0 | .pass => 2 | .marginal => 3 | .fail => 4 | .noData => 5 | .pending => 12

/-- Bus outcome detail codes; DONE carries none. -/
def busOutcomeCode : BusOutcome → Nat
  | .done => 0 | .noAckAddr => 48 | .noAckData => 49 | .lost => 50 | .timeout => 51 | .busFailed => 52

/-- Detail codes. -/
def detailCode : Detail → Nat
  | .none => 0
  | .badCode => 1 | .noSuchChannel => 2 | .noSuchEntry => 3 | .noSuchModule => 4 | .panelModule => 5
  | .badProbeCount => 6 | .zeroPeriod => 7 | .badWindow => 8 | .badLength => 9 | .textOutside => 10
  | .repeatedChannel => 11 | .repeatedLine => 12
  | .superseded => 16 | .stopped => 17
  | .abort c => 32 + abortCode c
  | .bus o => busOutcomeCode o
  | .restarted => 64 | .notSettled => 65 | .mismatch => 66 | .unusedEntry => 67 | .late => 68

/-! ### The exchange area (section 1.2) -/

/-- The base address held in XBASE (R2). -/
def xbase (x : Exchange) : Nat := x.xbaseHi.toNat * 4294967296 + x.xbaseLo.toNat

/-- The physical address of an area offset with the base in force (R2). Past the end of the 64-bit address space it
wraps: the model's choice (notes/assumptions/39.md). -/
def areaAddress (x : Exchange) (offset : Nat) : Nat := (xbase x + offset) % 18446744073709551616

/-- The area offset of a bay command block (section 1.2). -/
def bayCommandOffset (b : Bay) : Nat := 0x0040 + 16 * bayNum b

/-- The area offset of a slot. -/
def slotOffset (b : Bay) (s : Slot) : Nat := 0x1000 + (2 * bayNum b + slotNum s) * 0x5000

/-- The area offset of a bay status block. -/
def bayStatusOffset (b : Bay) : Nat := 0x0100 + 256 * bayNum b

/-! ### The register window (R1, R5, section 11.1) -/

/-- The part state code of STATUS (R5). -/
def partStateCode (x : Exchange) : Nat := if x.resetting then 2 else if x.run then 1 else 0

/-- The value STATUS reads at this moment (R5). -/
def statusWord (s : State) : Word32 :=
  BitVec.ofNat 32 (partStateCode s.xu
    + 16 * phaseCode s.bays.bay0.phase + 256 * phaseCode s.bays.bay1.phase
    + 4096 * phaseCode s.bays.bay2.phase + 65536 * phaseCode s.bays.bay3.phase
    + 1048576 * busStateCode s.bus.state)

/-- The value CTRL reads (R3, R4). -/
def ctrlWord (s : State) : Word32 :=
  BitVec.ofNat 32 (flagBit s.xu.run 0 + flagBit s.bays.bay0.xu.enabled 1
    + flagBit s.bays.bay1.xu.enabled 2 + flagBit s.bays.bay2.xu.enabled 3
    + flagBit s.bays.bay3.xu.enabled 4 + flagBit s.xu.irqen 5
    + 256 * s.xu.scanp.toNat + flagBit s.xu.resetting 31)

/-- The code of MERR.bay: 4 for RACK. -/
def merrBayCode : Option Bay → Nat
  | none => 4
  | some b => bayNum b

/-- The value MERR reads (R21). -/
def merrWord (m : Merr) : Word32 :=
  BitVec.ofNat 32 (errorKindCode m.kind + 16 * merrBayCode m.bay + flagBit m.multi 7
    + 256 * m.interval.toNat)

/-- The value a whole-word read of the register window gives at this moment (R1). NUDGE and offsets that
hold no register read as 0. -/
def readRegister (s : State) (offset : Nat) : Word32 :=
  match offset with
  | 0x000 => s.xu.xbaseLo
  | 0x004 => s.xu.xbaseHi
  | 0x008 => ctrlWord s
  | 0x00C => statusWord s
  | 0x010 => s.xu.events
  | 0x014 => merrWord s.xu.merr
  | _ => 0

/-- The bits of a word that lie in the byte lanes addressed (R1). -/
def laneMask (lanes : BitVec 4) : Word32 :=
  BitVec.ofNat 32 (255 * (flagBit (lanes.getLsbD 0) 0 + flagBit (lanes.getLsbD 1) 8
    + flagBit (lanes.getLsbD 2) 16 + flagBit (lanes.getLsbD 3) 24))

/-! ### The slot header and the command blocks -/

/-- The rack-written header fields (section 11.5). -/
def parseHeader (d : List Byte) : Header :=
  let options := u16At d 0x0A
  let parts := u16At d 0x0E
  { label := BitVec.ofNat 32 (u32At d 0x04)
    fixtureType := u16At d 0x08
    waitStart := options.testBit 0
    eventOnFinish := options.testBit 1
    stopOnFirstFail := options.testBit 2
    marginalIsFail := options.testBit 3
    ignoreService := options.testBit 4
    stepCount := u16At d 0x0C
    hasStimulus := parts.testBit 0
    hasSchedule := parts.testBit 1
    hasTaps := parts.testBit 2
    hasSupervision := parts.testBit 3
    passText := u16At d 0x10
    failText := u16At d 0x12 }

/-- Whether the header's step count lies in 1 to 96 (R35). -/
def stepCountValid (h : Header) : Bool := 1 ≤ h.stepCount && h.stepCount ≤ 96

/-- A verdict-text offset is none (0) or names 48 bytes within the 4 KiB text area (R27, R36). -/
def textOffsetValid (o : Nat) : Bool := o = 0 || o + 48 ≤ 4096

/-! ### Setup parts (section 11.6) -/

/-- The common part of a channel setup at offset o: refused when the minimum exceeds the maximum as read
(R36); then the fields are brought into range (R65). -/
def parseRange (d : List Byte) (o : Nat) : Option ChanRange :=
  let lo := s32At d o
  let hi := s32At d (o + 4)
  if hi < lo then none
  else
    let lo' := valueBound lo
    let hi' := valueBound hi
    some ⟨lo', hi', clampTo lo' hi' (s32At d (o + 8))⟩

/-- A pulse channel's conversion (R65). The 1-byte duty is read unsigned: the model's choice (notes/assumptions/60.md). -/
def parsePulse (d : List Byte) (o : Nat) : PulseConv :=
  ⟨clampNat 1 65535 (u16At d (o + 0x0C)), clampNat 1 65535 (u16At d (o + 0x0E)),
    clampNat 10 90 (byteAt d (o + 0x10))⟩

/-- Point j of a level channel: x or threshold, and ohms brought into 10 to 4,000 (R65). The 2-byte ohms are read unsigned: the
model's choice (notes/assumptions/60.md). -/
def levelPoint (d : List Byte) (o j : Nat) : Int × Int :=
  (s32At d (o + 0x14 + 8 * j), clampTo 10 4000 (u16At d (o + 0x14 + 8 * j + 4)))

/-- Whether the first components rise strictly (R36). -/
def risingPoints : List (Int × Int) → Bool
  | [] => true
  | [_] => true
  | p :: q :: rest => p.1 < q.1 && risingPoints (q :: rest)

/-- A level channel's mode: an unknown mode code, a list of fewer than 2 or more than 6 points, or points
not strictly rising are refused (R36). -/
def parseLevel (d : List Byte) (o : Nat) : Option LevelMode :=
  let n := byteAt d (o + 0x0D)
  let points := (List.range n).map (levelPoint d o)
  let countValid := 2 ≤ n && n ≤ 6
  match byteAt d (o + 0x0C) with
  | 0 => some .direct
  | 1 => if countValid && risingPoints points then some (.linear points) else none
  | 2 =>
    if countValid && risingPoints points.tail then
      some (.staircase (levelPoint d o 0).2 points.tail (clampTo 0 1000000000 (s32At d (o + 0x10))))
    else none
  | _ => none

/-- A byte-order code (section 11.6). -/
def parseOrder : Nat → Option ByteOrder
  | 0 => some .lowFirst
  | 1 => some .highFirst
  | _ => none

/-- A signedness code (section 11.6). -/
def parseSigned : Nat → Option Bool
  | 0 => some false
  | 1 => some true
  | _ => none

/-- A field's placement, refused for an unknown code or a length outside 1 to 32 (R36). -/
def parseField (start length order signed : Nat) : Option Field :=
  match parseOrder order, parseSigned signed with
  | some o, some s => if 1 ≤ length && length ≤ 32 then some ⟨start, length, o, s⟩ else none
  | _, _ => none

/-- A packing entry code: 0 to 15, or 0xFF for unused; the outer none refuses the run (R36). -/
def parsePacking (c : Nat) : Option (Option (Fin 16)) :=
  if h : c < 16 then some (some ⟨c, h⟩) else if c = 0xFF then some none else none

/-- A network-signal channel's packing (R65). -/
def parseNet (d : List Byte) (o : Nat) : Option NetConv :=
  let num := u16At d (o + 0x12)
  let den := u16At d (o + 0x14)
  match parsePacking (byteAt d (o + 0x0C)),
      parseField (byteAt d (o + 0x0D)) (byteAt d (o + 0x0E)) (byteAt d (o + 0x0F)) (byteAt d (o + 0x10)) with
  | some e, some f =>
    if num = 0 || den = 0 then none else some ⟨e, f, num, den, valueBound (s32At d (o + 0x18))⟩
  | _, _ => none

/-- The STIMULUS part: 14 channel setups of 96 bytes; none when a check of R36 on it fails. -/
def parseStimulus (d : List Byte) : Option StimSetup :=
  let at_ (i : Nat) : Nat := 96 * i
  match (List.range 14).mapM (fun i => parseRange d (at_ i)),
      (List.range 4).mapM (fun i => parseLevel d (at_ (i + 2))),
      (List.range 8).mapM (fun i => parseNet d (at_ (i + 6))) with
  | some [r0, r1, r2, r3, r4, r5, r6, r7, r8, r9, r10, r11, r12, r13], some [l0, l1, l2, l3],
      some [n0, n1, n2, n3, n4, n5, n6, n7] =>
    some { ranges := #v[r0, r1, r2, r3, r4, r5, r6, r7, r8, r9, r10, r11, r12, r13]
           pulse := #v[parsePulse d (at_ 0), parsePulse d (at_ 1)]
           level := #v[l0, l1, l2, l3]
           net := #v[n0, n1, n2, n3, n4, n5, n6, n7] }
  | _, _, _ => none

/-- An injection mode code (section 11.6). -/
def parseMode : Nat → Option InjMode
  | 0 => some .normal
  | 1 => some .freezeCounter
  | 2 => some .badChecksum
  | 3 => some .silent
  | _ => none

/-- A rolling counter: the inner none is "no counter"; an unknown part or modulus code is refused (R214).
A nibble counter has modulus 16, and the initial value is taken modulo the modulus (R95). -/
def parseCounter (part byte modulus initial : Nat) : Option (Option CounterSetup) :=
  if 1 < modulus then none
  else
    let m := if modulus = 0 then 16 else 256
    match part with
    | 0 => some none
    | 1 => some (some ⟨byte, .lowNibble, 16, initial % 16⟩)
    | 2 => some (some ⟨byte, .highNibble, 16, initial % 16⟩)
    | 3 => some (some ⟨byte, .wholeByte, m, initial % m⟩)
    | _ => none

/-- A schedule entry at offset o (R95). -/
def parseEntry (d : List Byte) (o : Nat) : Option EntrySetup :=
  match parseMode (byteAt d (o + 0x03)),
      parseCounter (byteAt d (o + 0x0A)) (byteAt d (o + 0x0B)) (byteAt d (o + 0x0C)) (byteAt d (o + 0x0D)) with
  | some mode, some counter =>
    some { enabled := byteAt d o ≠ 0
           auto := byteAt d (o + 0x01) ≠ 0
           id := u16At d (o + 0x04) % 2048
           length := clampNat 0 8 (byteAt d (o + 0x02))
           bytes := bytesAt d (o + 0x10) 8
           period := clampNat 10 10000 (u16At d (o + 0x06))
           phase := clampNat 0 9999 (u16At d (o + 0x08))
           counter := counter
           checksum := if byteAt d (o + 0x0E) = 0xFF then none else some (byteAt d (o + 0x0E))
           mode := mode }
  | _, _ => none

/-- A bit-rate code in kbit/s (section 11.6). -/
def parseBitRate : Nat → Option Nat
  | 0 => some 125
  | 1 => some 250
  | 2 => some 500
  | _ => none

/-- The SCHEDULE part: a 16-byte head and 16 entries of 32 bytes. -/
def parseSchedule (d : List Byte) : Option SchedSetup :=
  match parseBitRate (byteAt d 0), (List.range 16).mapM (fun i => parseEntry d (16 + 32 * i)) with
  | some rate, some es => if h : es.length = 16 then some ⟨rate, ⟨⟨es⟩, by simpa using h⟩⟩ else none
  | _, _ => none

/-- A tap setup at offset o (R113). -/
def parseTap (d : List Byte) (o : Nat) : Option TapSetup :=
  let num := u16At d (o + 0x08)
  let den := u16At d (o + 0x0A)
  match parseField (clampNat 0 63 (byteAt d (o + 0x03))) (byteAt d (o + 0x04)) (byteAt d (o + 0x01))
      (byteAt d (o + 0x02)) with
  | some f =>
    if num = 0 || den = 0 then none
    else some ⟨byteAt d o ≠ 0, u16At d (o + 0x06) % 2048, f, num, den, valueBound (s32At d (o + 0x0C)),
      clampNat 10 10000 (u16At d (o + 0x10))⟩
  | none => none

/-- The TAPS part: 8 tap setups of 24 bytes. -/
def parseTaps (d : List Byte) : Option (Vector TapSetup 8) :=
  match (List.range 8).mapM (fun i => parseTap d (24 * i)) with
  | some ts => if h : ts.length = 8 then some ⟨⟨ts⟩, by simpa using h⟩ else none
  | none => none

/-- A fault mode code (section 11.6). -/
def parseFaultMode : Nat → Option FaultMode
  | 0 => some .latch
  | 1 => some .retry
  | 2 => some .report
  | 3 => some .off
  | _ => none

/-- A band code in percent (section 11.6). -/
def parseBand : Nat → Option Nat
  | 0 => some 5
  | 1 => some 10
  | 2 => some 15
  | 3 => some 20
  | _ => none

/-- The SUPERVISION part (R143). Its 2-byte fields are read unsigned: the model's choice (notes/assumptions/60.md). -/
def parseSupervision (d : List Byte) : Option Supervision :=
  match parseFaultMode (byteAt d 0), parseFaultMode (byteAt d 1), parseFaultMode (byteAt d 2),
      parseFaultMode (byteAt d 3), parseBand (byteAt d 6), parseBand (byteAt d 7) with
  | some m0, some m1, some m2, some m3, some uv, some ov =>
    some { modes := ⟨m0, m1, m2, m3⟩
           currentLimit := clampNat 100 5000 ((roundDiv (u16At d 4) 10).toNat * 10)
           uvBand := uv
           ovBand := ov
           deglitch := ⟨clampNat 1 255 (byteAt d 8), clampNat 1 255 (byteAt d 9),
             clampNat 1 255 (byteAt d 10), clampNat 1 255 (byteAt d 11)⟩
           retryTime := clampNat 100 10000 (u16At d 0x0C)
           retryMax := clampNat 1 7 (byteAt d 0x0E)
           nominal := clampNat 6000 18000 (u16At d 0x10) }
  | _, _, _, _, _, _ => none

/-- Whether no two members are equal. -/
def distinct {α : Type} [DecidableEq α] : List α → Bool
  | [] => true
  | x :: rest => !rest.contains x && distinct rest

/-- The bit positions that an entry's packed fields, counter and checksum take (R36, R95). -/
def entryPositions (stim : StimSetup) (e : Fin 16) (setup : EntrySetup) : List Int :=
  (stim.net.toList.filter (fun n => n.entry = some e)).flatMap (fun n => fieldPositions n.field)
    ++ (match setup.counter with | some c => counterPositions c | none => [])
    ++ (match setup.checksum with | some b => checksumPositions b | none => [])

/-- Two enabled entries never carry the same identifier, and within each entry every packed field, counter
and checksum lies within its length and overlaps no other (R36, R95). -/
def setupConsistent (stim : StimSetup) (sched : SchedSetup) : Bool :=
  distinct ((sched.entries.toList.filter (fun e => e.enabled)).map (fun e => e.id))
    && (indices 16).all fun i =>
      let e := sched.entries[i]
      let ps := entryPositions stim i e
      withinFrame ps e.length && distinct ps

/-! ### Step records (section 11.7) -/

/-- The tag of a step record (R31). -/
def recordTag (r : List Byte) : Nat := u16At r 2

/-- The NOT_COUNTED flag of a step record (R31). -/
def recordNotCounted (r : List Byte) : Bool := (byteAt r 1).testBit 2

/-- The timeout of a step: 0 for none, at most 3,600,000 ms (R31). -/
def stepTimeoutOf (v : Nat) : Nat := clampNat 0 3600000 v

/-- The action code and shape of a DRIVE action place. -/
def parseShape (code v : Nat) : Option Shape :=
  match code with
  | 0 => some .step
  | 1 => some (.timed v)
  | 2 => some (.rate v)
  | _ => none

/-- A DRIVE action code. -/
def parseActKind : Nat → Option ActKind
  | 0 => some .value
  | 1 => some .opened
  | 2 => some .shorted
  | _ => none

/-- A DRIVE action place as posted: position, channel code, action code, shape code, target, time or rate. -/
structure ActionPlace where
  position : Nat
  channel : Nat
  action : Nat
  shape : Nat
  target : Int
  parameter : Nat
deriving DecidableEq, Repr

/-- The used action places of a DRIVE record, in position order: a channel code of 0xFF marks an unused
place. A rate is read unsigned: the model's choice (notes/assumptions/60.md). -/
def actionPlaces (r : List Byte) : List ActionPlace :=
  ((List.range 4).map fun p =>
    let o := 0x0C + 12 * p
    ⟨p, byteAt r o, byteAt r (o + 1), byteAt r (o + 2), s32At r (o + 4), u32At r (o + 8)⟩).filter
    fun a => a.channel ≠ 0xFF

/-- A DRIVE action from its place, when its codes are known and its channel exists. -/
def actionOf (a : ActionPlace) : Option DriveAction :=
  match parseActKind a.action, parseShape a.shape a.parameter with
  | some kind, some shape => if h : a.channel < 14 then some ⟨a.position, ⟨a.channel, h⟩, kind, shape, a.target⟩ else none
  | _, _ => none

/-- The body of a DRIVE record (R36, DRIVE row). -/
def parseDrive (r : List Byte) : Except Detail StepBody :=
  let places := actionPlaces r
  let on := u16At r 0x3C
  let off := u16At r 0x3E
  if places.any (fun a => 2 < a.action || 2 < a.shape) then .error .badCode
  else if places.any (fun a => 14 ≤ a.channel) then .error .noSuchChannel
  else if places.any (fun a => a.action ≠ 0 && !(2 ≤ a.channel && a.channel ≤ 5)) then .error .noSuchChannel
  else if !distinct (places.map (fun a => a.channel)) then .error .repeatedChannel
  else if BitVec.ofNat 16 on &&& BitVec.ofNat 16 off ≠ 0 then .error .repeatedLine
  else .ok (.drive (places.filterMap actionOf) (BitVec.ofNat 16 on) (BitVec.ofNat 16 off))

/-- A probe mode code. -/
def parseProbeMode : Nat → Option ProbeMode
  | 0 => some .hold
  | 1 => some .reach
  | 2 => some .final
  | 3 => some .count
  | _ => none

/-- The bytes of probe record j of a CHECK step, 32 bytes of the text area (R214). -/
def probeRecord (text : List Byte) (offset j : Nat) : List Byte := bytesAt text (offset + 32 * j) 32

/-- A probe from its record, its fields as read; none for an unknown source or mode. -/
def parseProbe (p : List Byte) : Option ProbeSetup :=
  match parseProbeMode (byteAt p 1) with
  | some mode =>
    if h : byteAt p 0 < 29 then
      some ⟨⟨byteAt p 0, h⟩, mode, s32At p 4, s32At p 8, s32At p 0x0C, byteAt p 2, byteAt p 3,
        s32At p 0x10, s32At p 0x14⟩
    else none
  | none => none

/-- A filter length (R120). -/
def filterLengthValid (n : Nat) : Bool := n = 1 || n = 2 || n = 4 || n = 8 || n = 16

/-- The body of a CHECK record with its probe records (R36, CHECK row; R214). -/
def parseCheck (text r : List Byte) : Except Detail StepBody :=
  let period := u32At r 0x0C
  let n := byteAt r 0x10
  let offset := u16At r 0x12
  let records := (List.range n).map (probeRecord text offset)
  if n = 0 || 4 < n then .error .badProbeCount
  else if period = 0 then .error .zeroPeriod
  else if 4096 < offset + 32 * n then .error .textOutside
  else
    match records.mapM parseProbe with
    | none => .error .badCode
    | some probes =>
      if probes.any (fun p => p.high < p.low) then .error .badWindow
      else if probes.any (fun p => !filterLengthValid p.filter) then .error .badLength
      else if probes.any (fun p => p.mode = .count && p.countMax < p.countMin) then .error .badWindow
      else .ok (.check period probes)

/-- A prompt form code. -/
def parseForm : Nat → Option PromptForm
  | 0 => some .note
  | 1 => some .ask
  | 2 => some .ack
  | _ => none

/-- A text of n bytes followed by spaces to make 48 (R199). -/
def paddedText (text : List Byte) (offset n : Nat) : List Byte :=
  bytesAt text offset n ++ List.replicate (48 - n) 0x20

/-- The body of a PROMPT record (R36, PROMPT row). An empty text at an offset above the length of the text area lies outside
it, and one at that length within it: the model's choice (notes/assumptions/67.md). -/
def parsePrompt (text r : List Byte) : Except Detail StepBody :=
  let offset := u16At r 0x0C
  let n := byteAt r 0x0E
  match parseForm (byteAt r 0x0F) with
  | none => .error .badCode
  | some form =>
    if 48 < n then .error .badLength
    else if 4096 < offset + n then .error .textOutside
    else .ok (.prompt (paddedText text offset n) form (u32At r 0x10))

/-- The body of a FRAME record (R36, FRAME row); the injection mode is checked for INJECT only. -/
def parseFrame (r : List Byte) : Except Detail StepBody :=
  let e := byteAt r 0x0C
  if h : e < 16 then
    match byteAt r 0x0D with
    | 0 => .ok (.frame ⟨e, h⟩ .start)
    | 1 => .ok (.frame ⟨e, h⟩ .stop)
    | 2 => .ok (.frame ⟨e, h⟩ (.setBytes (bytesAt r 0x10 8)))
    | 3 =>
      match parseMode (byteAt r 0x0E) with
      | some m => .ok (.frame ⟨e, h⟩ (.inject m))
      | none => .error .badCode
    | _ => .error .badCode
  else .error .noSuchEntry

/-- The body of a FIXTURE record (R36, FIXTURE row; R190). Bytes at and beyond the data length are
disregarded. -/
def parseFixture (r : List Byte) : Except Detail StepBody :=
  let m := byteAt r 0x0C
  let op := byteAt r 0x0D
  let n := byteAt r 0x0F
  if m = 1 then .error .panelModule
  else if h : m < 16 then
    if 1 < op then .error .badCode
    else if n = 0 || 8 < n then .error .badLength
    else .ok (.fixture ⟨m, h⟩ (op = 0) (BitVec.ofNat 8 (byteAt r 0x0E)) (bytesAt r 0x10 n) (bytesAt r 0x18 n)
      (bytesAt r 0x20 n))
  else .error .noSuchModule

/-- The body of a POWER record (R36, POWER row). Its setting is read unsigned: the model's choice
(notes/assumptions/60.md). -/
def parsePower (r : List Byte) : Except Detail StepBody :=
  match byteAt r 0x0C with
  | 0 => .ok (.power false (u32At r 0x10))
  | 1 => .ok (.power true (u32At r 0x10))
  | _ => .error .badCode

/-- The body of a JOIN record (R36, JOIN row). -/
def parseJoin (r : List Byte) : Except Detail StepBody :=
  match byteAt r 0x0C with
  | 0 => .ok (.join none)
  | 1 => .ok (.join (some (u16At r 0x0E)))
  | _ => .error .badCode

/-- The body of a step record by its kind (R36). -/
def parseBody (text r : List Byte) : Except Detail StepBody :=
  match byteAt r 0 with
  | 1 => parseDrive r
  | 2 => .ok (.dwell (u32At r 0x0C))
  | 3 => parseCheck text r
  | 4 => parsePrompt text r
  | 5 => parseFrame r
  | 6 => parseFixture r
  | 7 => parsePower r
  | 8 => parseJoin r
  | _ => .error .badCode

/-- A step record validated: its common part (R31) and body, or the detail code of the check that failed
(R37). OVERLAP is disregarded on a JOIN step. -/
def parseStep (text r : List Byte) : Except Detail Step :=
  match parseBody text r with
  | .error e => .error e
  | .ok body =>
    .ok { overlap := (byteAt r 1).testBit 0 && byteAt r 0 ≠ 8
          stopOnFail := (byteAt r 1).testBit 1
          notCounted := recordNotCounted r
          tag := recordTag r
          timeout := stepTimeoutOf (u32At r 4)
          body := body }

/-- The step records in index order, or the first one that fails and its detail code (R36). -/
def parseSteps (text : List Byte) : Nat → List (List Byte) → Except (Nat × Detail) (List Step)
  | _, [] => .ok []
  | i, r :: rest =>
    match parseStep text r with
    | .error e => .error (i, e)
    | .ok step =>
      match parseSteps text (i + 1) rest with
      | .error e => .error e
      | .ok steps => .ok (step :: steps)

/-! ### Fixture modules (chapters 7 and 8) -/

/-- The 7-bit address of a module (R161). -/
def moduleAddress (b : Bay) (m : Fin 16) : Nat := 0x20 + 16 * bayNum b + m.1

/-- The address byte with its direction bit: 0 for write, 1 for read (R161). -/
def addressByte (b : Bay) (m : Fin 16) (read : Bool) : Byte :=
  BitVec.ofNat 8 (2 * moduleAddress b m + flagBit read 0)

/-- The bytes the part sends in a transaction, in order (R163, R164). -/
def wireBytes (e : BusEntry) : List Byte :=
  match e.op with
  | .write data => addressByte e.bay e.module false :: e.index :: data
  | .read _ => [addressByte e.bay e.module false, e.index, addressByte e.bay e.module true]

/-- The outcome of a transaction whose STOP is complete, by the position of the byte that was refused among
the bytes the part sent, if any (R163, R164). -/
def transactionOutcome (e : BusEntry) (refused : Option Nat) : BusOutcome :=
  match refused with
  | none => .done
  | some i =>
    if i = 0 then .noAckAddr
    else
      match e.op with
      | .write data => if i < data.length + 2 then .noAckData else .done
      | .read _ => if i = 1 then .noAckData else if i = 2 then .noAckAddr else .done

/-- The bytes a READ ending DONE hands over, in the order received (R164). -/
def transactionData (e : BusEntry) (data : List Byte) : List Byte :=
  match e.op with
  | .write _ => []
  | .read n => bytesAt data 0 n

/-- The ident values of the 14 bytes read from module 0 (R182). -/
def parseIdent (d : List Byte) : Ident :=
  ⟨u16At d 0, BitVec.ofNat 32 (u32At d 2), BitVec.ofNat 32 (u32At d 6), BitVec.ofNat 32 (u32At d 10)⟩

/-- Whether every masked bit of the bytes read matches the expected bytes (R193). -/
def maskedMatch : List Byte → List Byte → List Byte → Bool
  | expected :: es, mask :: ms, read =>
    (read.headD 0 &&& mask == expected &&& mask) && maskedMatch es ms read.tail
  | _, _, _ => true

/-- The fixed display texts of 48 bytes in 7-bit ASCII (R196, R199). -/
def fixedTextBytes : FixedText → List Byte
  | .clear => List.replicate 48 0x20
  | .pressStart =>
    [0x50, 0x52, 0x45, 0x53, 0x53, 0x20, 0x53, 0x54, 0x41, 0x52, 0x54] ++ List.replicate 37 0x20
  | .closeLid => [0x43, 0x4C, 0x4F, 0x53, 0x45, 0x20, 0x4C, 0x49, 0x44] ++ List.replicate 39 0x20

end Sys2Proof.Machine
end

