-- ==== Sys2Proof/Machine/Flags.lean ====
section
/-! DEFINITION. Machine/Flags.lean: the flags, marks and judgements that the manual computes from values: the
class of an outcome, the zones of a probe, fault and event bits, the clamped flags of conversions, and the
limits of the monitored conditions. -/

namespace Sys2Proof.Machine

open Sys2Proof

/-! ### Outcomes (section 2.9) -/

/-- Whether an outcome is failing, given the option MARGINAL_IS_FAIL (R55). -/
def failing (marginalIsFail : Bool) : StepOutcome → Bool
  | .fail | .noData | .noAnswer | .timedOut | .error => true
  | .marginal => marginalIsFail
  | .done | .pass | .cut | .aborted | .skipped => false

/-- Whether an outcome enters the passed count (R60). -/
def passing (marginalIsFail : Bool) : StepOutcome → Bool
  | .done | .pass => true
  | .marginal => !marginalIsFail
  | .fail | .noData | .noAnswer | .timedOut | .error | .cut | .aborted | .skipped => false

/-! ### Fault sets and events -/

/-- The bit of a condition in a fault set (section 11.2). -/
def condBit : Condition → FaultSet
  | .overcurrent => 1
  | .undervoltage => 2
  | .overvoltage => 4
  | .lidOpen => 8

/-- The bit of EXCHANGE in the latched-fault set (section 11.2). -/
def exchangeBit : FaultSet := 16

/-- The abort cause of a latched condition (R44, R151). -/
def condCause : Condition → AbortCause
  | .overcurrent => .overcurrent
  | .undervoltage => .undervoltage
  | .overvoltage => .overvoltage
  | .lidOpen => .lidOpen

/-- The DONE bit of a bay in EVENTS (section 11.1). -/
def doneBit (b : Bay) : Nat := bayNum b

/-- The ALERT bit of a bay in EVENTS. -/
def alertBit (b : Bay) : Nat := 4 + bayNum b

/-- The BUSFAIL bit of EVENTS. -/
def busfailBit : Nat := 8

/-- The XFAULT bit of EVENTS. -/
def xfaultBit : Nat := 9

/-! ### Probe zones and margins (R123, R124) -/

/-- Whether a filtered value lies outside the window. -/
def isOut (p : ProbeSetup) (v : Int) : Bool := v < p.low || p.high < v

/-- Whether a filtered value lies in the guard zone. -/
def isGuard (p : ProbeSetup) (v : Int) : Bool :=
  !isOut p v && (v < p.low + p.guard || p.high - p.guard < v)

/-- The margin of a filtered value. -/
def marginOf (p : ProbeSetup) (v : Int) : Int :=
  if v - p.low ≤ p.high - v then v - p.low else p.high - v

/-- A filtered value offered to a worst value: it replaces none, or a value of strictly larger margin. -/
def offerWorst (p : ProbeSetup) (v : Int) (worst : Option Int) : Option Int :=
  match worst with
  | none => some v
  | some w => if marginOf p v < marginOf p w then some v else some w

/-- The fields of a probe in the ranges in force at its step's start (R120). -/
def probeInRange (p : ProbeSetup) : ProbeSetup :=
  { p with
    low := valueBound p.low
    high := valueBound p.high
    guard := clampTo 0 1000000000 p.guard
    deglitch := clampNat 1 255 p.deglitch
    countMin := clampTo 0 1000000000 p.countMin
    countMax := clampTo 0 1000000000 p.countMax }

/-- The rank of a probe outcome in PASS < MARGINAL < FAIL < NO_DATA (R136). -/
def probeRank : ProbeOutcome → Nat
  | .none => 0 | .pass => 0 | .marginal => 1 | .fail => 2 | .noData => 3 | .pending => 0

/-- The step outcome of the worst rank among its probes (R136). -/
def checkOutcome (probes : List Probe) : StepOutcome :=
  match probes.foldl (fun n p => max n (probeRank p.state)) 0 with
  | 0 => .pass
  | 1 => .marginal
  | 2 => .fail
  | _ => .noData

/-! ### Conversions and their clamped flags (R78) -/

/-- The frequency of a pulse channel in millihertz, none when stopped, and whether it was capped (R79). -/
def pulseFrequency (value : Int) (c : PulseConv) : Option Nat × Bool :=
  let f := roundDiv (value * c.n) c.d
  if value < 0 || f < 100 then (none, false)
  else if 20000000 < f then (some 20000000, true)
  else (some f.toNat, false)

/-- The period in ticks of a frequency (R80). -/
def periodTicks (f : Nat) : Nat := (roundDiv 50000000000 f).toNat

/-- The high time in ticks of a period, at least 1 (R80). -/
def highTicks (period duty : Nat) : Nat := max 1 (roundDiv ((period : Int) * duty) 100).toNat

/-- A value in DIRECT mode: the resistance, and whether the clamp to 10 to 4,000 changed it (R84). -/
def directOhms (value : Int) : Int × Bool := (clampTo 10 4000 value, clampTo 10 4000 value ≠ value)

/-- A value in LINEAR mode (R85). -/
def linearOhms (x : Int) : List (Int × Int) → Int
  | [] => 10
  | [p] => p.2
  | p :: q :: rest =>
    if x < p.1 then p.2
    else if x ≤ q.1 then p.2 + roundDiv ((q.2 - p.2) * (x - p.1)) (q.1 - p.1)
    else linearOhms x (q :: rest)

/-- The threshold of staircase step j, for j from 1 (R86). -/
def stairThreshold (steps : List (Int × Int)) (j : Nat) : Option Int :=
  if j = 0 then none else (steps[j - 1]?).map (fun p => p.1)

/-- The ohms of staircase step j (R86). -/
def stairOhms (ohms0 : Int) (steps : List (Int × Int)) (j : Nat) : Int :=
  if j = 0 then ohms0 else ((steps[j - 1]?).map (fun p => p.2)).getD ohms0

/-- The step reached from j by rising while the value is at least the next threshold plus H (R86). -/
def stairRise (steps : List (Int × Int)) (h x : Int) : Nat → Nat → Nat
  | 0, j => j
  | fuel + 1, j =>
    match stairThreshold steps (j + 1) with
    | some t => if t + h ≤ x then stairRise steps h x fuel (j + 1) else j
    | none => j

/-- The step reached from j by falling while the value is below the step's threshold less H (R86). -/
def stairFall (steps : List (Int × Int)) (h x : Int) : Nat → Nat
  | 0 => 0
  | j + 1 =>
    match stairThreshold steps (j + 1) with
    | some t => if x < t - h then stairFall steps h x j else j + 1
    | none => j + 1

/-- The move of a step already chosen: it only rises or only falls (R86). -/
def stairMove (steps : List (Int × Int)) (h x : Int) (j : Nat) : Nat :=
  let up := stairRise steps h x steps.length j
  if j < up then up else stairFall steps h x j

/-- The choice of a step without hysteresis: the highest j whose threshold is at most the value (R87). -/
def stairChoose (steps : List (Int × Int)) (x : Int) : Nat :=
  (steps.filter (fun p => p.1 ≤ x)).length

/-- The raw value of a network-signal channel, and whether the field's range clamped it (R88). -/
def rawValue (value : Int) (c : NetConv) : Int × Bool :=
  let raw := roundDiv ((value - c.offset) * c.resDen) c.resNum
  let lo : Int := if c.field.signed then -(2 ^ (c.field.length - 1) : Nat) else 0
  let hi : Int := if c.field.signed then (2 ^ (c.field.length - 1) : Nat) - 1 else (2 ^ c.field.length : Nat) - 1
  (clampTo lo hi raw, clampTo lo hi raw ≠ raw)

/-- A raw value as the bits of its field, in two's complement (R97). -/
def rawBits (raw : Int) (length : Nat) : Nat := (raw % (2 ^ length : Nat)).toNat

/-- The checksum byte of a payload whose checksum stands at byte `at_` (R100). -/
def checksumOf (id : Nat) (d : List Byte) (at_ : Nat) : Nat :=
  255 - ((id % 256 + id / 256 + ((d.set at_ 0).map (fun x => x.toNat)).sum) % 256)

/-! ### Supply limits (R145, R148) -/

/-- Whether a sample of SUPV lies in the settle window of a setting (R145). -/
def inSettleWindow (setting : Nat) (supv : Int) : Bool :=
  roundDiv ((setting : Int) * 95) 100 ≤ supv && supv ≤ roundDiv ((setting : Int) * 105) 100

/-- Whether a condition is shown by a boundary's samples and interlock level (R148). -/
def conditionShown (p : Supply) (supv supi : Int) : Condition → Bool
  | .overcurrent => (p.setup.currentLimit : Int) < supi
  | .undervoltage => supv < roundDiv ((p.setting : Int) * (100 - p.setup.uvBand)) 100
  | .overvoltage => roundDiv ((p.setting : Int) * (100 + p.setup.ovBand)) 100 < supv
  | .lidOpen => p.lidOpen

/-- Whether a condition is armed (R148). -/
def conditionArmed (p : Supply) (phase : Phase) (c : Condition) : Bool :=
  condGet p.setup.modes c ≠ .off &&
  match c with
  | .overcurrent => p.on
  | .undervoltage => p.on && p.armed
  | .overvoltage => p.on && p.armed
  | .lidOpen => p.on || phase = .arming

/-- The persistence rule of R149 at one boundary: the watch after it. -/
def watchStep (deglitch : Nat) (armed shown : Bool) (w : Watch) : Watch :=
  if armed then
    if shown then
      if w.recognized then w
      else if deglitch ≤ w.count + 1 then { w with count := deglitch, recognized := true, pending := true }
      else { w with count := w.count + 1 }
    else { w with count := 0, recognized := false }
  else { w with count := 0, recognized := false }

end Sys2Proof.Machine
end

