-- ==== Sys2Proof/Machine/Ops.lean ====
section
/-! DEFINITION. Machine/Ops.lean: the named operations over State that every family uses: reading and changing
one block, the output stream, events, memory errors, status block writes, and the fixture bus queue. -/

namespace Sys2Proof.Machine

open Sys2Proof

/-! ### One block of the state -/

/-- The state of one bay. -/
def State.bay (s : State) (b : Bay) : BayState := bayGet s.bays b

/-- A change of one bay. -/
def State.modBay (s : State) (b : Bay) (f : BayState → BayState) : State :=
  { s with bays := baySet s.bays b (f (s.bay b)) }

/-- A change of the exchange unit. -/
def State.modXu (s : State) (f : Exchange → Exchange) : State := { s with xu := f s.xu }

/-- A change of the fixture bus master. -/
def State.modBus (s : State) (f : Bus → Bus) : State := { s with bus := f s.bus }

/-- A change of a bay's run engine. -/
def State.modRun (s : State) (b : Bay) (f : RunEngine → RunEngine) : State :=
  s.modBay b fun x => { x with run := f x.run }

/-- A change of a bay's stimulus unit. -/
def State.modStim (s : State) (b : Bay) (f : Stimulus → Stimulus) : State :=
  s.modBay b fun x => { x with stim := f x.stim }

/-- A change of a bay's network emulator. -/
def State.modNet (s : State) (b : Bay) (f : Network → Network) : State :=
  s.modBay b fun x => { x with net := f x.net }

/-- A change of a bay's supply monitor. -/
def State.modSupply (s : State) (b : Bay) (f : Supply → Supply) : State :=
  s.modBay b fun x => { x with supply := f x.supply }

/-- A change of a bay's panel handler. -/
def State.modPanel (s : State) (b : Bay) (f : Panel → Panel) : State :=
  s.modBay b fun x => { x with panel := f x.panel }

/-- A change of what the exchange unit holds for a bay. -/
def State.modBayXu (s : State) (b : Bay) (f : BayExchange → BayExchange) : State :=
  s.modBay b fun x => { x with xu := f x.xu }

/-- A change of the stored items of a bay's status block copy. -/
def State.modStatus (s : State) (b : Bay) (f : BayStatus → BayStatus) : State :=
  s.modBay b fun x => { x with status := f x.status }

/-- An operation made for each member of a list in turn. -/
def forAll {α : Type} (xs : List α) (f : α → State → State) (s : State) : State :=
  xs.foldl (fun t x => f x t) s

/-! ### The run held (section 2.6) -/

/-- The number of steps of the run held: 0 until a header with a valid step count has been read (R35). -/
def stepCount (r : RunEngine) : Nat :=
  match r.copy.header with
  | some h => if stepCountValid h then h.stepCount else 0
  | none => 0

/-- Whether a step of the run has its result (R62). -/
def hasResult (r : RunEngine) (i : Nat) : Bool := r.results.any fun x => x.index = i

/-- The oldest unfinished step of the run held, 0xFF when none (R17, section 2.6). -/
def oldestUnfinished (r : RunEngine) : Nat :=
  match r.slot with
  | none => 0xFF
  | some _ => ((List.range (stepCount r)).find? fun i => !hasResult r i).getD 0xFF

/-- An option of the run held; false when no header has been read. -/
def runOption (r : RunEngine) (f : Header → Bool) : Bool :=
  match r.copy.header with
  | some h => f h
  | none => false

/-- The tag of step i, 0 when its record was not read (R35). -/
def tagOf (r : RunEngine) (i : Nat) : Nat := ((r.copy.records[i]?).map recordTag).getD 0

/-- Whether step i is counted: it carries no NOT_COUNTED flag (R31; notes/assumptions/16.md for a record that
was not read). -/
def countedStep (r : RunEngine) (i : Nat) : Bool := !(((r.copy.records[i]?).map recordNotCounted).getD false)

/-- The in-flight entry of a step. -/
def findInFlight (r : RunEngine) (i : Nat) : Option InFlight := r.inFlight.find? fun e => e.index = i

/-- A change of one step's in-flight entry. -/
def State.modInFlight (s : State) (b : Bay) (i : Nat) (f : InFlight → InFlight) : State :=
  s.modRun b fun r => { r with inFlight := r.inFlight.map fun e => if e.index = i then f e else e }

/-! ### The output stream, events and memory errors -/

/-- An item issued at the end of the part's one stream (R24). -/
def emit (item : StreamItem) (s : State) : State :=
  s.modXu fun x => { x with stream := x.stream ++ [item] }

/-- A write of the exchange area at an area offset, with the base in force at its issue (R2). -/
def writeArea (kind : WriteKind) (offset : Nat) (bytes : List Byte) (s : State) : State :=
  emit (.write kind (areaAddress s.xu offset) bytes) s

/-- An EVENTS bit set whatever its former value; a bit going from 0 to 1 with IRQEN set sends one interrupt
message (R25, R26). -/
def setEvent (n : Nat) (s : State) : State :=
  let fresh := !s.xu.events.getLsbD n && s.xu.irqen
  let s1 := s.modXu fun x => { x with events := x.events ||| BitVec.ofNat 32 (2 ^ n) }
  if fresh then emit .interrupt s1 else s1

/-- A memory error recorded in MERR: the first since the last read, or MULTI; XFAULT is set (R21). -/
def recordError (kind : ErrorKind) (bay : Option Bay) (s : State) : State :=
  setEvent xfaultBit (s.modXu fun x =>
    { x with merr :=
        if x.merr.kind = .none then { x.merr with kind := kind, bay := bay } else { x.merr with multi := true } })

/-- The timeout interval in microseconds of a read issued now (R20). -/
def readInterval (s : State) : Nat := s.xu.merr.interval.toNat * 64

/-- A read of the exchange area at an area offset issued now (R2, R20). -/
def readAt (offset : Nat) (s : State) : ReadIssue := ⟨areaAddress s.xu offset, readInterval s⟩

/-- The area offset of a pass's read (section 1.2). -/
def passOffset : PassRead → Nat
  | .rackBlock => 0x0000
  | .bayBlock b => bayCommandOffset b
  | .word b x _ => slotOffset b x

/-- The offset of a read of LOADING inside its slot (sections 1.2 and 11.6). -/
def loadOffset : LoadRead → Nat
  | .header => 0x0000
  | .stimulus => 0x0100
  | .schedule => 0x0640
  | .taps => 0x0850
  | .supervision => 0x0910
  | .record i => 0x1000 + 64 * i
  | .text => 0x4000

/-- The scan period in microseconds (R3, R7). -/
def scanPeriod (s : State) : Nat := max 1 s.xu.scanp.toNat * 50

/-! ### Status block writes (R17 to R19) -/

/-- The number of a bay's entries in the fixture bus queue, the one on the bus included (R167). -/
def busCount (b : Bay) (q : List BusEntry) : Nat := (q.filter fun e => e.bay = b).length

/-- The bits of the flags byte that section 11.4 does not name. The retry fault appears in them while its retry is in
progress (R158), in a form that the layout does not give: a free value (notes/assumptions/45.md). -/
def retryFaultBits (p : Supply) : Nat :=
  match p.retryFault with
  | none => 0
  | some c => 8 * (Config.retryFaultCode (condBit c)).toNat

/-- The 256 bytes of a bay status block as the copy stands (R17, R158, section 11.4). -/
def bayStatusBytes (b : Bay) (s : State) : List Byte :=
  let y := s.bay b
  leBytes 1 (phaseCode y.phase) ++ leBytes 1 (slotCode y.run.slot) ++ leBytes 1 (slotCode y.xu.waiting)
    ++ leBytes 1 (oldestUnfinished y.run) ++ leBytes 1 y.run.inFlight.length ++ [y.supply.latched]
    ++ [y.supply.reported] ++ leBytes 1 y.supply.retryCount ++ leBytes 1 (netStateCode y.net.state)
    ++ leBytes 1 (busCount b s.bus.queue)
    ++ leBytes 1 (flagBit y.status.runLost 0 + flagBit y.status.cycleFailed 1 + flagBit y.status.lampFailed 2
      + retryFaultBits y.supply)
    ++ leBytes 1 (echoCode y.status.echo) ++ halfBytes y.status.echoSeq ++ leBytes 2 y.status.identType
    ++ wordBytes y.status.label ++ wordBytes y.status.lostLabel ++ wordBytes y.status.identSerial
    ++ wordBytes y.status.identCycles ++ wordBytes y.status.finished ++ wordBytes y.status.passed
    ++ wordBytes y.status.failed ++ wordBytes s.rackTime ++ List.replicate 208 0

/-- A write of a bay status block issued now. -/
def issueBayStatus (b : Bay) (s : State) : State :=
  writeArea (.bayStatus b) (bayStatusOffset b) (bayStatusBytes b s) s

/-- A trigger of a bay status block write: it issues the write, or marks one further write while one is in
progress (R18). -/
def triggerBay (b : Bay) (s : State) : State :=
  match (s.bay b).xu.write with
  | .idle => issueBayStatus b (s.modBayXu b fun x => { x with write := .busy })
  | .busy => s.modBayXu b fun x => { x with write := .busyMarked }
  | .busyMarked => s

/-- The 48 bytes of the rack status block as the copy stands (R19, section 11.4). -/
def rackStatusBytes (s : State) : List Byte :=
  leBytes 1 (busStateCode s.bus.state) ++ leBytes 1 (busCauseCode s.bus.cause) ++ leBytes 1 s.bus.queue.length
    ++ leBytes 1 (recoveryCode s.bus.recovery) ++ halfBytes s.xu.rackEchoSeq ++ leBytes 1 (echoCode s.xu.rackEcho)
    ++ [0] ++ wordBytes s.rackTime ++ List.replicate 36 0

/-- A write of the rack status block issued now. -/
def issueRackStatus (s : State) : State := writeArea .rackStatus 0x0010 (rackStatusBytes s) s

/-- A trigger of a rack status block write, coalesced like a bay's (R19). -/
def triggerRack (s : State) : State :=
  match s.xu.rackWrite with
  | .idle => issueRackStatus (s.modXu fun x => { x with rackWrite := .busy })
  | .busy => s.modXu fun x => { x with rackWrite := .busyMarked }
  | .busyMarked => s

/-- The end of the status block write in progress: a marked further write is issued with the copy as it then
stands (R18, R19). -/
def statusWriteEnd (target : Option Bay) (s : State) : State :=
  match target with
  | some b =>
    match (s.bay b).xu.write with
    | .idle => s
    | .busy => s.modBayXu b fun x => { x with write := .idle }
    | .busyMarked => issueBayStatus b (s.modBayXu b fun x => { x with write := .busy })
  | none =>
    match s.xu.rackWrite with
    | .idle => s
    | .busy => s.modXu fun x => { x with rackWrite := .idle }
    | .busyMarked => issueRackStatus (s.modXu fun x => { x with rackWrite := .busy })

/-- A change of bay state, which triggers a write of the bay status block (section 2.5, R18). -/
def setPhase (b : Bay) (p : Phase) (s : State) : State := triggerBay b (s.modBay b fun y => { y with phase := p })

/-- A change of the waiting slot triggers a write of the bay status block (R9, R18). -/
def setWaiting (b : Bay) (w : Option Slot) (s : State) : State :=
  if (s.bay b).xu.waiting = w then s else triggerBay b (s.modBayXu b fun x => { x with waiting := w })

/-- A fault added to a bay's latched-fault set; a change of the set triggers a write (R18, R156). -/
def addLatched (b : Bay) (f : FaultSet) (s : State) : State :=
  if (s.bay b).supply.latched ||| f = (s.bay b).supply.latched then s
  else triggerBay b (s.modSupply b fun p => { p with latched := p.latched ||| f })

/-- The latched-fault set emptied (R156). -/
def clearLatched (b : Bay) (s : State) : State :=
  if (s.bay b).supply.latched = 0 then s else triggerBay b (s.modSupply b fun p => { p with latched := 0 })

/-- A fault added to a bay's reported-fault set; a change of the set triggers a write (R18, R155). -/
def addReported (b : Bay) (f : FaultSet) (s : State) : State :=
  if (s.bay b).supply.reported ||| f = (s.bay b).supply.reported then s
  else triggerBay b (s.modSupply b fun p => { p with reported := p.reported ||| f })

/-- The echo of a bay request, written with the whole block (R14, R18). -/
def echoBay (b : Bay) (seq : Word16) (result : EchoResult) (s : State) : State :=
  triggerBay b (s.modStatus b fun t => { t with echoSeq := seq, echo := result })

/-- The echo of a rack request (R14, R19). -/
def echoRack (seq : Word16) (result : EchoResult) (s : State) : State :=
  triggerRack (s.modXu fun x => { x with rackEchoSeq := seq, rackEcho := result })

/-! ### The fixture bus queue (R162, R166 to R168) -/

/-- A change of the bus state, which triggers a write of the rack status block (section 7.4, R19). -/
def setBusState (st : BusState) (s : State) : State :=
  if s.bus.state = st then s else triggerRack (s.modBus fun u => { u with state := st })

/-- The entry on the bus. -/
def onBusEntry (u : Bus) : Option BusEntry := if u.onBus then u.queue.head? else none

/-- Whether one of a bay's transactions is on the bus (R46). -/
def bayOnBus (u : Bus) (b : Bay) : Bool :=
  match onBusEntry u with
  | some e => e.bay = b
  | none => false

/-- Whether the entry to FAILED is ending entries or held requests of a bay one by one: its last one has not ended yet
(R177). -/
def busEnding (u : Bus) (b : Bay) : Bool := u.state = .failed && (u.queue ++ u.held).any fun e => e.bay = b

/-- Whether a bay in CLOSING has a transaction to wait for (R46): one on the bus, or those that are ending BUS_FAILED at an
entry to FAILED, so that nothing of the bay is outstanding after the wait (R177, R212). -/
def busHolds (u : Bus) (b : Bay) : Bool := bayOnBus u b || busEnding u b

/-- A new entry: loss count 0 and started mark clear (R162). -/
def newEntry (b : Bay) (owner : Owner) (module : Fin 16) (op : BusOp) (index : Byte) : BusEntry :=
  ⟨b, owner, module, op, index, 0, false⟩

/-- The 35 ms counts when a request joins the queue: those of IDLE start when the queue stops being empty, and those of
BUSY_OTHER only at a change of the lines (R171, R172). -/
def countsAtRequest (now : RackTime) (u : Bus) : RackTime :=
  if u.queue = [] && u.state = .idle then now else u.countsFrom

/-- A request made to the fixture bus master: it joins the queue or the held list. The answer is none when the
bus is FAILED, where the request ends BUS_FAILED at the event of the request (R166). -/
def busRequest (e : BusEntry) (s : State) : Option State :=
  if s.bus.state = .failed then none
  else if s.bus.queue.length < 16 && busCount e.bay s.bus.queue < 6 && s.bus.held.all (fun h => h.bay ≠ e.bay) then
    some (s.modBus fun u =>
      { u with queue := u.queue ++ [e], countsFrom := countsAtRequest s.rackTime u })
  else some (s.modBus fun u => { u with held := u.held ++ [e] })

/-- The admissions of R166: the oldest held request whose bay has fewer than 6 entries, as long as the queue
holds fewer than 16. -/
def admitLoop : Nat → List BusEntry → List BusEntry → List BusEntry × List BusEntry
  | 0, q, h => (q, h)
  | fuel + 1, q, h =>
    if 16 ≤ q.length then (q, h)
    else
      match h.find? (fun e => busCount e.bay q < 6) with
      | none => (q, h)
      | some e => admitLoop fuel (q ++ [e]) (h.erase e)

/-- The held list served after an entry has left the queue (R166). -/
def serveHeld (s : State) : State :=
  s.modBus fun u =>
    let r := admitLoop u.held.length u.queue u.held
    { u with queue := r.1, held := r.2 }

/-- The entries and held requests that satisfy a test and are not on the bus leave with no outcome; the held
list is served and the bay concerned has its status block written (R168). However many leave at one event, the write is
triggered once, after all of them have left: the model's choice (notes/assumptions/55.md). At an entry to FAILED nothing is
removed: every entry and held request ends BUS_FAILED (R177). -/
def removeEntries (b : Bay) (test : BusEntry → Bool) (s : State) : State :=
  let fixed := if s.bus.onBus then s.bus.queue.take 1 else []
  let loose := if s.bus.onBus then s.bus.queue.drop 1 else s.bus.queue
  let goes := fun e => e.bay = b && test e
  if s.bus.state ≠ .failed && (loose.any goes || s.bus.held.any goes) then
    triggerBay b (serveHeld (s.modBus fun u =>
      { u with queue := fixed ++ loose.filter (fun e => !goes e), held := u.held.filter (fun e => !goes e) }))
  else s

/-! ### The register window's own gate -/

/-- While a part reset is in progress nothing but the reset goes on (R4). -/
def whenUp (f : State → State) (s : State) : State := if s.xu.resetting then s else f s

/-- An operation that goes on only when a condition holds; otherwise the event does not arise and nothing
changes (notes/assumptions/2.md). -/
def whenever (c : Bool) (f : State → State) (s : State) : State := if c then f s else s

end Sys2Proof.Machine
end

