-- ==== Sys2Proof/Machine/Stimulus.lean ====
section
/-! DEFINITION. Machine/Stimulus.lean: the stimulus unit (chapter 3): channel values, DRIVE actions, pulse and
level conversion, the outputs' safe state, and the commands ACTION_REACHES_TARGET's and PULSE_PERIOD_END's
shared operations. -/

namespace Sys2Proof.Machine

open Sys2Proof

/-- The channel index of pulse channel i: P0 and P1 are channels 0 and 1 (section 11.7). -/
def pulseChannel (i : Fin 2) : Fin 14 := ⟨i.1, by omega⟩

/-- The channel index of level channel i: A0 to A3 are channels 2 to 5. -/
def levelChannel (i : Fin 4) : Fin 14 := ⟨i.1 + 2, by omega⟩

/-- The channel index of network-signal channel i: N0 to N7 are channels 6 to 13. -/
def netChannel (i : Fin 8) : Fin 14 := ⟨i.1 + 6, by omega⟩

/-- The level channel of a channel index, if it is one. -/
def levelOf (c : Fin 14) : Option (Fin 4) := if h : 2 ≤ c.1 ∧ c.1 < 6 then some ⟨c.1 - 2, by omega⟩ else none

/-- The clamped flag of an action set in the entry of its DRIVE step (R61). -/
def flagEntry (position : Nat) (e : InFlight) : InFlight :=
  match e.work with
  | .drive _ _ => { e with clamped := e.clamped ||| BitVec.ofNat 4 (2 ^ position) }
  | _ => e

/-- The clamped flag of the action in force on a channel set, if there is one; it stays with the action's
step (R78, R61). -/
def flagClamped (b : Bay) (c : Fin 14) (s : State) : State :=
  match (s.bay b).stim.actions[c] with
  | none => s
  | some a =>
    (s.modStim b fun u => { u with actions := tabSet u.actions c (some { a with clamped := true }) }).modInFlight b
      a.step (flagEntry a.position)

/-! ### Advance at a counted boundary (R70 to R73) -/

/-- The value an action gives its channel at its next counted boundary, and whether it reaches its target
there. OPEN and SHORT leave the value and reach their target at the first boundary (R70). -/
def nextValue (a : Action) (v : Int) : Int × Bool :=
  match a.kind with
  | .opened | .shorted => (v, true)
  | .value =>
    match a.shape with
    | .step => (a.v1, true)
    | .timed d =>
      (a.v0 + roundDiv ((a.v1 - a.v0) * (a.count + 1 : Nat)) d, decide (d ≤ a.count + 1))
    | .rate r =>
      if a.v1 - v ≤ r && v - a.v1 ≤ r then (a.v1, true)
      else if v < a.v1 then (v + r, false) else (v - r, false)

/-- Whether an action reaches its target at its start: a TIMED or RATE whose target equals its start value
(R74). -/
def endsAtStart (a : Action) : Bool :=
  match a.kind, a.shape with
  | .value, .timed _ => a.v0 = a.v1
  | .value, .rate _ => a.v0 = a.v1
  | _, _ => false

/-- The advance of the action in force on a channel for a counted boundary (R75). -/
def advanceChannel (u : Stimulus) (c : Fin 14) : Stimulus :=
  match u.actions[c] with
  | none => u
  | some a =>
    if a.reached then u
    else
      let r := nextValue a u.values[c]
      { u with
        values := tabSet u.values c r.1
        actions := tabSet u.actions c (some { a with count := a.count + 1, reached := r.2, older := [] }) }

/-- What the action in force on a channel leaves for a boundary of this event when a claim, stop or abort takes it from the
channel: its own next value, before what it took over itself. One that has reached its target leaves nothing (R74, R76). -/
def handedOver (y : BayState) (c : Fin 14) : List Handed :=
  match y.stim.actions[c] with
  | none => []
  | some a =>
    if a.reached then []
    else
      match findInFlight y.run a.step with
      | none => []
      | some e => ⟨a.step, e.start, e.early, (nextValue a y.stim.values[c]).1⟩ :: a.older

/-- The value of a boundary that a channel takes from the actions taken from it at that event: that of the latest one whose
own start does not coincide with the boundary too (R76). `here` says of which ones it does. -/
def handedValue (here : Handed → Bool) (l : List Handed) : Option Int := (l.find? fun h => !here h).map fun h => h.value

/-- An action that claimed its channel before a boundary that coincides with the claim, with the value of that boundary: it is
its start value, and an OPEN or SHORT action's target too (R68, R76). A TIMED or RATE action whose target it is has reached
its target (R74). -/
def takeValue (v : Int) (a : Action) : Action :=
  let x : Action := { a with v0 := v, v1 := if a.kind = .value then a.v1 else v, older := [] }
  { x with reached := endsAtStart x }

/-- A channel at a boundary that coincides with the claim of its action, the claim taken first: the action makes no
advance, and the action in force before the claims of that event, if there was one, still gives the channel its value of the
boundary (R76). -/
def handChannel (here : Handed → Bool) (u : Stimulus) (c : Fin 14) : Stimulus :=
  match u.actions[c] with
  | none => u
  | some a =>
    match handedValue here a.older with
    | none => u
    | some v => { u with values := tabSet u.values c v, actions := tabSet u.actions c (some (takeValue v a)) }

/-- The channels at a boundary that comes after a stop or abort of the same event: each one that is not driven keeps the
value of that boundary (R76, R77). -/
def handStopped (here : Handed → Bool) (u : Stimulus) : Stimulus :=
  (indices 14).foldl (fun v c =>
    match v.actions[c], handedValue here v.stopped[c] with
    | none, some x => { v with values := tabSet v.values c x }
    | _, _ => v) u

/-- What the actions in force leave for a boundary of the event at which the run stops or is aborted: nothing, unless the
bay is RUNNING (R75, R77). -/
def stoppedAtClosing (y : BayState) : Vector (List Handed) 14 :=
  if y.phase = .running then (indices 14).foldl (fun t c => tabSet t c (handedOver y c)) (Vector.replicate 14 [])
  else Vector.replicate 14 []

/-- The advances of the fourteen channels for a counted boundary (R75). An action of a step whose start coincides with it
makes none; its channel still takes the value of the boundary from the action that it cut (R76). `atStart` and `here` say
which steps in flight and which actions cut have their start there. -/
def advanceAll (atStart : Nat → Bool) (here : Handed → Bool) (u : Stimulus) : Stimulus :=
  (indices 14).foldl (fun v c =>
    match v.actions[c] with
    | none => v
    | some a => if atStart a.step then handChannel here v c else advanceChannel v c) u

/-! ### Pulse conversion and generators (R79 to R81) -/

/-- The frequency of a pulse channel computed at a boundary; a cap flags the action in force (R79). -/
def computeFrequency (b : Bay) (i : Fin 2) (s : State) : State :=
  let u := (s.bay b).stim
  let r := pulseFrequency u.values[pulseChannel i] u.setup.pulse[i]
  let s1 := s.modStim b fun u => { u with frequency := tabSet u.frequency i r.1 }
  if r.2 then flagClamped b (pulseChannel i) s1 else s1

/-- A period at a frequency, with the channel's duty (R80). -/
def periodAt (f duty : Nat) : Generator := .running (periodTicks f) (highTicks (periodTicks f) duty)

/-- A STOPPED generator starts at a boundary whose frequency is not stopped, outside the safe state (R81). -/
def startGenerator (u : Stimulus) (i : Fin 2) : Stimulus :=
  match u.generators[i], u.frequency[i], u.safe with
  | .stopped, some f, false => { u with generators := tabSet u.generators i (periodAt f u.setup.pulse[i].duty) }
  | _, _, _ => u

/-- The end of a period: the next one at the latest frequency, or STOPPED (R81). -/
def endPeriod (u : Stimulus) (i : Fin 2) : Stimulus :=
  match u.generators[i] with
  | .stopped => u
  | .running _ _ =>
    match u.frequency[i] with
    | some f => { u with generators := tabSet u.generators i (periodAt f u.setup.pulse[i].duty) }
    | none => { u with generators := tabSet u.generators i .stopped }

/-! ### Level conversion (R83 to R87) -/

/-- The output of a level channel in form CONVERTED, its staircase step, and whether DIRECT clamped it. -/
def convertLevel (mode : LevelMode) (stair : Option Nat) (v : Int) : Int × Option Nat × Bool :=
  match mode with
  | .direct => ((directOhms v).1, stair, (directOhms v).2)
  | .linear points => (linearOhms v points, stair, false)
  | .staircase ohms0 steps h =>
    let j := match stair with
      | none => stairChoose steps v
      | some j => stairMove steps h v j
    (stairOhms ohms0 steps j, some j, false)

/-- The conversion of one level output (R83): OPEN in the safe state, else by its form. -/
def setLevel (b : Bay) (i : Fin 4) (s : State) : State :=
  let u := (s.bay b).stim
  if u.safe then s.modStim b fun u => { u with levelOut := tabSet u.levelOut i .opened }
  else
    match u.forms[i] with
    | .opened => s.modStim b fun u => { u with levelOut := tabSet u.levelOut i .opened }
    | .shorted => s.modStim b fun u => { u with levelOut := tabSet u.levelOut i (.ohms 0) }
    | .converted =>
      let r := convertLevel u.setup.level[i] u.stair[i] u.values[levelChannel i]
      let s1 := s.modStim b fun u =>
        { u with levelOut := tabSet u.levelOut i (.ohms r.1), stair := tabSet u.stair i r.2.1 }
      if r.2.2 then flagClamped b (levelChannel i) s1 else s1

/-- The conversions of one boundary, after its advances (R79, R81, R83). -/
def convertAll (b : Bay) (s : State) : State :=
  let s1 := forAll (indices 2) (computeFrequency b) s
  let s2 := s1.modStim b fun u => (indices 2).foldl startGenerator u
  forAll (indices 4) (setLevel b) s2

/-! ### The safe state of the outputs (R89, R90) -/

/-- The outputs at the entry to the safe state (R89). -/
def stimSafe (u : Stimulus) : Stimulus :=
  { u with
    generators := Vector.replicate 2 .stopped
    levelOut := Vector.replicate 4 .opened
    stair := Vector.replicate 4 none
    lineOut := 0
    safe := true }

/-- The outputs at the end of the safe state (R90). The conversions made there set the clamped flag of R84 as those of a
boundary do: the model's choice (notes/assumptions/43.md). -/
def stimUnsafe (b : Bay) (s : State) : State :=
  forAll (indices 4) (setLevel b) (s.modStim b fun u => { u with safe := false, lineOut := u.lines })

/-! ### DRIVE actions (R68, R69, R76) -/

/-- The shape of an action with its time or rate brought into range, and whether that changed it (R68). An
OPEN or SHORT action's shape, time and rate are disregarded. -/
def shapeInRange (kind : ActKind) (sh : Shape) : Shape × Bool :=
  match kind, sh with
  | .value, .timed t => (.timed (clampNat 1 600000 t), decide (clampNat 1 600000 t ≠ t))
  | .value, .rate r => (.rate (clampNat 1 1000000000 r), decide (clampNat 1 1000000000 r ≠ r))
  | _, _ => (sh, false)

/-- The action that a DRIVE step puts in force on its channel (R68). -/
def makeAction (step : Nat) (a : DriveAction) (u : Stimulus) : Action :=
  let range := u.setup.ranges[a.channel]
  let v0 := u.values[a.channel]
  let v1 := match a.kind with
    | .value => clampTo range.min range.max a.target
    | .opened | .shorted => v0
  let sh := shapeInRange a.kind a.shape
  let clampedTarget := a.kind = .value && v1 ≠ a.target
  ⟨step, a.position, a.kind, sh.1, v0, v1, 0, clampedTarget || sh.2, false, []⟩

/-- The form that an action gives a level channel (R68); entering OPEN or SHORT makes the staircase step
"to be chosen" (R83). -/
def setForm (c : Fin 14) (kind : ActKind) (u : Stimulus) : Stimulus :=
  match levelOf c with
  | none => u
  | some i =>
    match kind with
    | .value => { u with forms := tabSet u.forms i .converted }
    | .opened => { u with forms := tabSet u.forms i .opened, stair := tabSet u.stair i none }
    | .shorted => { u with forms := tabSet u.forms i .shorted, stair := tabSet u.stair i none }

/-- The line sets of a DRIVE step: settings at once, outputs unless the safe state is in force (R69). -/
def applyLines (on off : BitVec 16) (u : Stimulus) : Stimulus :=
  let lines := (u.lines ||| on) &&& ~~~off
  { u with lines := lines, lineOut := if u.safe then u.lineOut else lines }

/-- The actions of a step that are still in force stop: each channel keeps its present value (R77). -/
def stopActions (step : Nat) (u : Stimulus) : Stimulus :=
  { u with actions := tabMap (fun _ a =>
      match a with
      | some x => if x.step = step then none else some x
      | none => none) u.actions }

/-- The claims of a step released (R54). -/
def releaseClaims (step : Nat) (r : RunEngine) : RunEngine :=
  { r with claims := tabMap (fun _ c =>
      match c with
      | some x => if x.1 = step then none else some x
      | none => none) r.claims }

/-! ### Setup load (R66) -/

/-- Loading STIMULUS: setups replaced whole, values at their defaults, forms and staircase steps reset. -/
def loadStimulus (setup : StimSetup) (u : Stimulus) : Stimulus :=
  { u with
    setup := setup
    values := tabMap (fun _ r => r.dflt) setup.ranges
    stopped := Vector.replicate 14 []
    forms := Vector.replicate 4 .converted
    stair := Vector.replicate 4 none }

end Sys2Proof.Machine
end

