-- ==== Sys2Proof/Machine/Network.lean ====
section
/-! DEFINITION. Machine/Network.lean: the network emulator (chapter 4): working parts, payloads, the transmit
queue, attempts, the network state and the receive taps, and the meanings of its commands. -/

namespace Sys2Proof.Machine

open Sys2Proof

/-! ### Network state (R93, R94, R105, R107) -/

/-- Every tap STALE, keeping its value (R93, R115). -/
def staleTaps (t : Vector Tap 8) : Vector Tap 8 := tabMap (fun _ x => { x with fresh := false }) t

/-- The network at the entry to the safe state: the attempt abandoned, the queue emptied, the failure count 0,
the probe timer stopped, every tap STALE, and no anchors (R93, R98). -/
def netStopped (n : Network) : Network :=
  { n with
    state := .stopped
    failures := 0
    probeTimer := none
    attempt := none
    queue := []
    work := tabMap (fun _ w => { w with anchor := none, untilRelease := 0, due := false }) n.work
    taps := staleTaps n.taps }

/-- A change of a bay's network emulator; a change of its network state triggers a write of the bay status
block (R93, R18). -/
def changeNet (b : Bay) (f : Network → Network) (s : State) : State :=
  let s1 := s.modNet b f
  if (s1.bay b).net.state = (s.bay b).net.state then s1 else triggerBay b s1

/-- An entry anchored at the first millisecond boundary after the event (R94, R109). A boundary that coincides with the event
and is taken after it counts as that first one, also where its inputs name the step that starts there: the model's choice
(notes/assumptions/63.md). -/
def anchorEntry (now : RackTime) (setup : EntrySetup) (w : EntryWork) : EntryWork :=
  { w with anchor := some (now + 1), untilRelease := setup.phase + 1, due := false }

/-- The network at the end of the safe state: LIVE, every ON entry anchored (R94). -/
def netLive (now : RackTime) (n : Network) : Network :=
  { n with
    state := .live
    failures := 0
    work := tabMap (fun i w => if w.on then anchorEntry now (n.setup.entries.toList.getD i EntrySetup.reset) w else w)
      n.work }

/-- The return from NO_PARTNER to LIVE: failure count 0, probe timer stopped, a queued probe an ordinary frame
(R106, R107). -/
def partnerFound (n : Network) : Network :=
  { n with
    state := .live
    failures := 0
    probeTimer := none
    queue := n.queue.map fun f => { f with probe := false } }

/-- The entry to NO_PARTNER: queue emptied, probe timer started (R105). -/
def partnerLost (now : RackTime) (n : Network) : Network :=
  { n with state := .noPartner, queue := [], probeTimer := some now }

/-! ### Payloads (R88, R99 to R101) -/

/-- The network-signal channels packed into an entry. -/
def packedChannels (setup : StimSetup) (e : Fin 16) : List (Fin 8) :=
  (indices 8).filter fun i => setup.net[i].entry = some e

/-- The raw value of channel Nᵢ at a release placed into its field (R88, R97). -/
def placeChannel (u : Stimulus) (i : Fin 8) (d : List Byte) : List Byte :=
  let c := u.setup.net[i]
  placeBits (fieldPositions c.field) (rawBits (rawValue u.values[netChannel i] c).1 c.field.length) d

/-- The payload of an entry, from its working part and the present values of the bay's channels (R99). -/
def buildPayload (u : Stimulus) (e : Fin 16) (setup : EntrySetup) (w : EntryWork) : List Byte :=
  let d0 := bytesAt w.bytes 0 setup.length
  let d1 := (packedChannels u.setup e).foldl (fun d i => placeChannel u i d) d0
  let d2 := match setup.counter with
    | none => d1
    | some c => placeBits (counterPositions c) w.counter d1
  match setup.checksum with
  | none => d2
  | some k =>
    let sum := checksumOf setup.id d2 k
    d2.set k (BitVec.ofNat 8 (if w.mode = .badChecksum then (sum + 1) % 256 else sum))

/-- The counter value after a release that builds a payload (R101). -/
def advanceCounter (setup : EntrySetup) (w : EntryWork) : EntryWork :=
  match setup.counter, w.mode with
  | none, _ => w
  | some _, .freezeCounter => w
  | some c, _ => { w with counter := (w.counter + 1) % c.modulus }

/-- The clamped flags of the actions in force on the channels packed into an entry (R78, R88). -/
def flagPacked (b : Bay) (e : Fin 16) (s : State) : State :=
  forAll (packedChannels (s.bay b).stim.setup e) (fun i t =>
    let u := (t.bay b).stim
    if (rawValue u.values[netChannel i] u.setup.net[i]).2 then flagClamped b (netChannel i) t else t) s

/-- A frame of an entry built now, and its counter advanced (R99, R101). -/
def buildFrame (b : Bay) (e : Fin 16) (probe : Bool) (s : State) : QFrame × State :=
  let y := s.bay b
  let setup := y.net.setup.entries[e]
  let w := y.net.work[e]
  (⟨e, setup.id, buildPayload y.stim e setup w, probe, false⟩,
    (flagPacked b e s).modNet b fun n => { n with work := tabSet n.work e (advanceCounter setup w) })

/-! ### The transmit queue (R102) -/

/-- The late count of an entry rises by one, holding at 65,535 (R96, R102). -/
def lateEntry (e : Fin 16) (n : Network) : Network :=
  { n with work := tabSet n.work e { n.work[e] with late := lateUp n.work[e].late } }

/-- Whether a frame of the entry is in an attempt. -/
def inAttempt (n : Network) (e : Fin 16) : Bool :=
  match n.attempt with
  | some a => a.entry = e
  | none => false

/-- A release offers its frame: rebuilt in place, placed, or dropped (R102). -/
def offerFrame (f : QFrame) (n : Network) : Network :=
  if n.queue.any (fun q => q.entry = f.entry) then
    lateEntry f.entry { n with queue := n.queue.map fun q =>
      if q.entry = f.entry then { q with data := f.data, id := f.id, rebuilt := inAttempt n f.entry } else q }
  else if n.queue.length < 8 then { n with queue := n.queue ++ [f] }
  else lateEntry f.entry n

/-- The release of an entry whose release moment is due (R98): nothing for SILENT, a frame built and discarded
in NO_PARTNER, a frame offered in LIVE. -/
def releaseEntry (b : Bay) (e : Fin 16) (s : State) : State :=
  let n := (s.bay b).net
  let w := n.work[e]
  let s1 := s.modNet b fun n => { n with work := tabSet n.work e { n.work[e] with due := false } }
  if w.due && w.on && n.setup.entries[e].enabled && n.state ≠ .stopped && w.mode ≠ .silent then
    let r := buildFrame b e false s1
    if n.state = .live then r.2.modNet b (offerFrame r.1) else r.2
  else s1

/-- The release moments of one boundary: each anchored entry counts down, and falls due (R98). -/
def countReleases (n : Network) : Network :=
  { n with work := tabMap (fun i w =>
      match w.anchor with
      | none => w
      | some _ =>
        if w.untilRelease ≤ 1 then
          { w with untilRelease := (n.setup.entries.toList.getD i EntrySetup.reset).period, due := true }
        else { w with untilRelease := w.untilRelease - 1 }) n.work }

/-! ### Attempts (R103 to R107) -/

/-- The queued frame of lowest identifier (R103). -/
def lowestFrame : List QFrame → Option QFrame
  | [] => none
  | f :: rest =>
    match lowestFrame rest with
    | none => some f
    | some g => if g.id < f.id then some g else some f

/-- The controller begins an attempt with the queued frame of lowest identifier (R91, R103). -/
def startAttempt (n : Network) : Network :=
  match n.attempt, n.state with
  | some _, _ => n
  | none, .stopped => n
  | none, _ =>
    match lowestFrame n.queue with
    | none => n
    | some f =>
      { n with
        attempt := some ⟨f.entry, f.id, f.data⟩
        queue := n.queue.map fun q => if q.entry = f.entry then { q with rebuilt := false } else q }

/-- Whether an entry's frame is removed at the attempt's end whatever the outcome: it is OFF or SILENT then
(R104, R110, R112). -/
def silenced (n : Network) (e : Fin 16) : Bool := !n.work[e].on || n.work[e].mode = .silent

/-- Whether the frame of an ended attempt leaves the queue (R104, R106). A probe goes by its mark, which an attempt that
lost arbitration does not take: the model's choice where no receipt follows (notes/assumptions/70.md). -/
def frameLeaves (n : Network) (f : QFrame) (o : AttemptOutcome) : Bool :=
  silenced n f.entry ||
  match o with
  | .acked => !f.rebuilt
  | .lostArb => false
  | .noAck | .busError => f.probe && n.state = .noPartner

/-- The failure count and network state after an attempt's end (R104 to R106). -/
def attemptCount (now : RackTime) (probe : Bool) (o : AttemptOutcome) (n : Network) : Network :=
  match o, n.state with
  | .acked, .noPartner => if probe then partnerFound n else { n with failures := 0 }
  | .acked, _ => { n with failures := 0 }
  | .lostArb, _ => n
  | _, .live =>
    if 32 ≤ n.failures + 1 then partnerLost now { n with failures := 32 } else { n with failures := n.failures + 1 }
  | _, _ => n

/-- The end of the attempt in progress (R104). A probe that lost arbitration keeps its mark until the receipt of the
cluster's frame makes it an ordinary frame (`partnerFound`). R106 speaks of that received case only: where the cluster's
frame ends with an error, and so is no receipt (R92), the frame is still the probe of NO_PARTNER, so its next NO_ACK or
BUS_ERROR takes it from the queue with the count unchanged, and its next ACKED returns the state to LIVE: the model's choice
(notes/assumptions/70.md). -/
def endAttempt (now : RackTime) (o : AttemptOutcome) (n : Network) : Network :=
  match n.attempt with
  | none => n
  | some a =>
    match n.queue.find? (fun f => f.entry = a.entry) with
    | none => attemptCount now false o { n with attempt := none }
    | some f =>
      let queue := if frameLeaves n f o then n.queue.filter (fun q => q.entry ≠ a.entry)
        else n.queue.map fun q => if q.entry = a.entry then { q with rebuilt := false } else q
      attemptCount now f.probe o { n with attempt := none, queue := queue }

/-- The probe entry: lowest identifier among the entries enabled, ON and not SILENT (R106). -/
def probeEntry (n : Network) : Option (Fin 16) :=
  ((indices 16).filter fun i => n.setup.entries[i].enabled && n.work[i].on && n.work[i].mode ≠ .silent).foldl
    (fun best i =>
      match best with
      | none => some i
      | some j => if n.setup.entries[i].id < n.setup.entries[j].id then some i else some j) none

/-- The period of the probe timer in milliseconds (R105). -/
def probePeriod : Nat := 500

/-- The rack time at which the present period of a bay's probe timer began, when the timer runs in NO_PARTNER and the
period has passed (R105). -/
def probeDue (now : RackTime) (n : Network) : Option RackTime :=
  match n.state, n.probeTimer with
  | .noPartner, some t => if probePeriod ≤ (now - t).toNat then some t else none
  | _, _ => none

/-- The probe that an expiry of the probe timer makes: a frame of the probe entry, when there is one and the queue is
empty (R106). -/
def makeProbe (b : Bay) (s : State) : State :=
  let n := (s.bay b).net
  match n.queue, probeEntry n with
  | [], some e =>
    let r := buildFrame b e true s
    r.2.modNet b fun n => { n with queue := n.queue ++ [r.1] }
  | _, _ => s

/-- An expiry of the probe timer in NO_PARTNER: the next period begins where the one over ends, and a probe is made
(R105, R106). -/
def probeExpiry (b : Bay) (s : State) : State :=
  match probeDue s.rackTime (s.bay b).net with
  | none => s
  | some t => makeProbe b (s.modNet b fun n => { n with probeTimer := some (t + BitVec.ofNat 32 probePeriod) })

/-! ### FRAME actions on the working part (R108 to R112) -/

/-- The frames of an entry that wait in the queue leave it; a frame in an attempt stays (R110, R112). -/
def dropWaiting (e : Fin 16) (n : Network) : Network :=
  if inAttempt n e then n else { n with queue := n.queue.filter fun f => f.entry ≠ e }

/-- The effect of a FRAME step on an enabled entry (R109 to R112). -/
def frameAction (now : RackTime) (e : Fin 16) (act : FrameAction) (n : Network) : Network :=
  let w := n.work[e]
  match act with
  | .start =>
    if w.on then n
    else
      let w1 := { w with on := true }
      { n with work := tabSet n.work e (if n.state = .stopped then w1 else anchorEntry now n.setup.entries[e] w1) }
  | .stop =>
    if w.on then
      dropWaiting e { n with work := tabSet n.work e { w with on := false, anchor := none, untilRelease := 0, due := false } }
    else n
  | .setBytes bytes => { n with work := tabSet n.work e { w with bytes := bytes } }
  | .inject mode =>
    let n1 := { n with work := tabSet n.work e { w with mode := mode } }
    if mode = .silent then dropWaiting e n1 else n1

/-- The detail code of a FRAME step (R108). -/
def frameDetail (n : Network) (e : Fin 16) : Detail :=
  if !n.setup.entries[e].enabled then .unusedEntry else if n.work[e].late ≠ 0 then .late else .none

/-! ### Setup loads (R95, R96, R113) -/

/-- The working part of an entry set from its setup (R96). -/
def workFromSetup (setup : EntrySetup) : EntryWork :=
  { on := setup.enabled && setup.auto
    bytes := setup.bytes
    mode := setup.mode
    counter := match setup.counter with | some c => c.initial | none => 0
    late := 0
    anchor := none
    untilRelease := 0
    due := false }

/-- The working parts set when a valid run leaves LOADING (R96). -/
def setWorkingParts (n : Network) : Network := { n with work := tabMap (fun _ e => workFromSetup e) n.setup.entries }

/-- Loading TAPS: setups replaced whole, values 0 and marks STALE (R113). The receipt times become 0: the model's choice
(notes/assumptions/18.md). -/
def loadTaps (ts : Vector TapSetup 8) (n : Network) : Network :=
  { n with taps := tabMap (fun _ t => ⟨t, 0, false, 0⟩) ts }

/-! ### Receipts (R92, R107, R114, R115) -/

/-- The value a tap takes from a raw value (R114). -/
def tapValue (t : TapSetup) (raw : Int) : Int := valueBound (roundDiv (raw * t.resNum) t.resDen + t.offset)

/-- The update of one tap by a received data frame with an 11-bit identifier (R114). -/
def updateTap (now : RackTime) (id : Nat) (d : List Byte) (t : Tap) : Tap :=
  if t.setup.inUse && t.setup.id = id && withinFrame (fieldPositions t.setup.field) d.length then
    { t with value := tapValue t.setup (readField d t.setup.field), fresh := true, receipt := now }
  else t

/-- A receipt: the network state, then the taps (R92, R107, R114). -/
def receive (now : RackTime) (f : RxFrame) (n : Network) : Network :=
  if n.state = .stopped then n
  else
    let n1 := if n.state = .noPartner then partnerFound n else n
    if f.extended || f.remote then n1 else { n1 with taps := tabMap (fun _ t => updateTap now f.id f.data t) n1.taps }

/-- Whether a FRESH tap's staleness timeout has passed by the coming boundary (R115): the expiry may be taken
before or after that boundary's samples (R116). -/
def tapDue (now : RackTime) (t : Tap) : Bool := t.fresh && t.setup.timeout ≤ (now + 1 - t.receipt).toNat

/-- A tap becomes STALE, keeping its value (R115). -/
def staleTap (i : Fin 8) (n : Network) : Network := { n with taps := tabSet n.taps i { n.taps[i] with fresh := false } }

/-! ### Meanings -/

/-- RELEASE (R98): at an entry's release moment. -/
def execRelease (b : Bay) (e : Fin 16) (s : State) : Host.Outcome State Fault Refusal :=
  .next (whenUp (whenever (s.bay b).net.work[e].due (releaseEntry b e)) s)

/-- ATTEMPT_START (R103). -/
def execAttemptStart (b : Bay) (s : State) : Host.Outcome State Fault Refusal :=
  .next (whenUp (fun t => t.modNet b startAttempt) s)

/-- ATTEMPT_END (R104). -/
def execAttemptEnd (b : Bay) (o : AttemptOutcome) (s : State) : Host.Outcome State Fault Refusal :=
  .next (whenUp (changeNet b (endAttempt s.rackTime o)) s)

/-- PROBE_TIMER_EXPIRY (R106). -/
def execProbeTimerExpiry (b : Bay) (s : State) : Host.Outcome State Fault Refusal :=
  .next (whenUp (probeExpiry b) s)

/-- RECEIPT (R92). One that is taken before a boundary of the same event carries the rack time before that boundary as its
receipt time, so the timeout of its taps runs from there: the model's choice (R115, R116; notes/assumptions/68.md). -/
def execReceipt (b : Bay) (f : RxFrame) (s : State) : Host.Outcome State Fault Refusal :=
  .next (whenUp (changeNet b (receive s.rackTime f)) s)

/-- TAP_STALE (R115). -/
def execTapStale (b : Bay) (i : Fin 8) (s : State) : Host.Outcome State Fault Refusal :=
  .next (whenUp (whenever (tapDue s.rackTime (s.bay b).net.taps[i]) fun t => t.modNet b (staleTap i)) s)

/-- PULSE_PERIOD_END (R81). -/
def execPulsePeriodEnd (b : Bay) (i : Fin 2) (s : State) : Host.Outcome State Fault Refusal :=
  .next (whenUp (fun t => t.modStim b fun u => endPeriod u i) s)

end Sys2Proof.Machine
end

