-- ==== Sys2Proof/Machine/Sense.lean ====
section
/-! DEFINITION. Machine/Sense.lean: the sense unit (chapter 5): sources and samples, the frequency inputs, probes
and their modes, and the period of a CHECK step. -/

namespace Sys2Proof.Machine

open Sys2Proof

/-! ### Frequency inputs (R119) -/

/-- The value of an interval in ticks, clamped to 1,000,000,000 mHz; below 50 ticks it is the clamped value
(R119). -/
def intervalValue (interval : Nat) : Nat :=
  if interval < 50 then 1000000000 else min 1000000000 (roundDiv 50000000000 interval).toNat

/-- A rising edge at a tick (R119). -/
def risingEdge (tick : Nat) (f : FreqInput) : FreqInput :=
  match f.lastEdge with
  | none => { f with lastEdge := some tick }
  | some t => ⟨some tick, intervalValue (tick - t)⟩

/-- Whether 2,000 ms have passed since the last edge at a given boundary's tick (R119). -/
def edgeExpired (boundaryTick : Nat) (f : FreqInput) : Bool :=
  match f.lastEdge with
  | none => false
  | some t => 100000000 ≤ boundaryTick - t

/-- The expiry of a frequency input: value 0, no last edge (R119). -/
def edgeTimeout (f : FreqInput) : FreqInput := if f.lastEdge = none then f else ⟨none, 0⟩

/-- The ticks of the generator clock in one millisecond. -/
def ticksPerMs : Nat := 50000

/-! ### Samples (R117, R118) -/

/-- The sample that source `src` of a bay gives at a boundary: its value, none for a STALE sample. Readings
are brought into the range of their source (R118); taps carry their mark (R116). -/
def sampleOf (y : BayState) (inp : BayInputs) (src : Fin 29) : Int × Bool :=
  if h : src.1 < 8 then (clampTo 0 30000 inp.ai[src.1], true)
  else if h : src.1 < 16 then (clampTo 0 65535 (inp.ls[src.1 - 8]'(by omega)), true)
  else if src.1 = 16 then (clampTo 0 1200 inp.snd, true)
  else if src.1 = 17 then ((y.fi[0].value : Int), true)
  else if src.1 = 18 then ((y.fi[1].value : Int), true)
  else if src.1 = 19 then (clampTo 0 30000 inp.supv, true)
  else if src.1 = 20 then (clampTo 0 10000 inp.supi, true)
  else
    let t := y.net.taps[src.1 - 21]'(by omega)
    (t.value, t.fresh)

/-! ### Probes (R121 to R132) -/

/-- A probe at its step's start or at a restart (R121, R139). -/
def freshProbe (setup : ProbeSetup) : Probe :=
  ⟨setup, .pending, [], none, 0, 0, false, false, .none, 0, none, none, false⟩

/-- The filter history after a fresh sample: at most N samples, oldest first (R122). -/
def pushHistory (n : Nat) (history : List Int) (x : Int) : List Int :=
  let h := history ++ [x]
  h.drop (h.length - n)

/-- The mean of a filter history, rounded half away from zero (R122). -/
def meanOf (history : List Int) : Int := roundDiv history.sum history.length

/-- HOLD on a new filtered value (R125). An out run shorter than the deglitch count sets the margin flag whatever the guard
is, so a probe with g = 0 may end MARGINAL by it, although R123 says that it gives no MARGINAL outcome: the model's choice
(notes/assumptions/59.md). -/
def holdValue (p : Probe) (v : Int) : Probe :=
  let p1 := { p with periodWorst := offerWorst p.setup v p.periodWorst }
  if isOut p.setup v then
    let run := if p.run < p.setup.deglitch then p.run + 1 else p.run
    { p1 with run := run, violation := p.violation || run = p.setup.deglitch }
  else
    { p1 with run := 0, margin := p.margin || (0 < p.run && p.run < p.setup.deglitch) || isGuard p.setup v }

/-- REACH on a new filtered value (R127). -/
def reachValue (p : Probe) (v : Int) : Probe :=
  let p1 := { p with periodWorst := offerWorst p.setup v p.periodWorst }
  if isOut p.setup v then { p1 with run := 0, runWorst := none }
  else
    let p2 := { p1 with runWorst := offerWorst p.setup v p.runWorst, run := p.run + 1 }
    if p.setup.deglitch ≤ p.run + 1 then
      { p2 with state := if isGuard p.setup v then .marginal else .pass }
    else p2

/-- COUNT on a new filtered value (R130). -/
def countValue (p : Probe) (v : Int) : Probe :=
  match p.level with
  | .none => { p with level := if p.setup.low + p.setup.guard ≤ v then .above else .below }
  | .below =>
    if p.setup.low + p.setup.guard ≤ v then { p with count := p.count + 1, level := .above } else p
  | .above => if v ≤ p.setup.low - p.setup.guard then { p with level := .below } else p

/-- A new filtered value acted on by the probe's mode. -/
def modeValue (p : Probe) (v : Int) : Probe :=
  match p.setup.mode with
  | .hold => holdValue p v
  | .reach => reachValue p v
  | .final => p
  | .count => countValue p v

/-- A PENDING probe takes the sample of a counted boundary: a fresh one by its filter and mode, a stale one by
being skipped (R122, R134). -/
def takeSample (x : Int) (fresh : Bool) (p : Probe) : Probe :=
  if p.state ≠ .pending then p
  else if !fresh then { p with lastStale := true }
  else
    let history := pushHistory p.setup.filter p.history x
    let v := meanOf history
    modeValue { p with history := history, filtered := some v, fresh := p.fresh + 1, lastStale := false } v

/-- The outcome of a probe still PENDING at period end (R126, R128, R129, R131, R132). -/
def periodEndOutcome (p : Probe) : ProbeOutcome :=
  if p.fresh = 0 || p.lastStale then .noData
  else
    match p.setup.mode with
    | .hold =>
      if p.violation then .fail
      else if p.margin || (0 < p.run && p.run < p.setup.deglitch) then .marginal else .pass
    | .reach => .fail
    | .final =>
      match p.filtered with
      | none => .noData
      | some v => if isOut p.setup v then .fail else if isGuard p.setup v then .marginal else .pass
    | .count => if p.setup.countMin ≤ p.count && (p.count : Int) ≤ p.setup.countMax then .pass else .fail

/-- A probe decided at period end; a decided probe stays as it is (R136). -/
def decideProbe (p : Probe) : Probe := if p.state = .pending then { p with state := periodEndOutcome p } else p

/-- The value of a probe's entry in the result record (R140). -/
def probeValue (p : Probe) : Int :=
  match p.setup.mode with
  | .hold => p.periodWorst.getD 0
  | .reach =>
    match p.state with
    | .pass | .marginal => p.runWorst.getD 0
    | _ => p.periodWorst.getD 0
  | .final => p.filtered.getD 0
  | .count => p.count

/-- The four probe entries of a result record (R140): unused positions carry NONE and 0. -/
def probeEntries (probes : List Probe) : List (ProbeOutcome × Int) :=
  let used := (probes.take 4).map fun p => (p.state, probeValue p)
  used ++ List.replicate (4 - used.length) (.none, 0)

/-! ### The CHECK step (R133 to R139) -/

/-- The working state of a CHECK step at its start (R133). -/
def startCheck (period : Nat) (probes : List ProbeSetup) : CheckWork :=
  ⟨0, clampNat 1 600000 period, false, probes.map fun p => freshProbe (probeInRange p)⟩

/-- A counted boundary of a CHECK step (R134). -/
def countCheck (y : BayState) (inp : BayInputs) (c : CheckWork) : CheckWork :=
  { c with
    k := c.k + 1
    probes := c.probes.map fun p =>
      let x := sampleOf y inp p.setup.source
      takeSample x.1 x.2 p }

/-- The restart of a CHECK step at the return from PAUSED (R139). -/
def restartCheck (c : CheckWork) : CheckWork :=
  { c with k := 0, restarted := true, probes := c.probes.map fun p => freshProbe p.setup }

/-- Whether every probe of the step is decided (R135). -/
def allDecided (c : CheckWork) : Bool := c.probes.all fun p => p.state ≠ .pending

/-- Whether the step's observation period has ended (R136). -/
def periodOver (c : CheckWork) : Bool := c.period ≤ c.k

/-- A CHECK step with every pending probe decided at period end (R136). -/
def decideCheck (c : CheckWork) : CheckWork := { c with probes := c.probes.map decideProbe }

/-- The detail code of a CHECK step at its own end (R136). -/
def checkDetail (c : CheckWork) : Detail := if c.restarted then .restarted else .none

/-! ### Meanings -/

/-- FI_RISING_EDGE (R119). -/
def execFiRisingEdge (b : Bay) (i : Fin 2) (tick : Nat) (s : State) : Host.Outcome State Fault Refusal :=
  .next (whenUp (fun t => t.modBay b fun y => { y with fi := tabSet y.fi i (risingEdge tick y.fi[i]) }) s)

/-- FI_EDGE_TIMEOUT (R119): the expiry of the coming boundary, taken before its sample. -/
def execFiEdgeTimeout (b : Bay) (i : Fin 2) (s : State) : Host.Outcome State Fault Refusal :=
  .next (whenUp (whenever (edgeExpired (s.tick + ticksPerMs) (s.bay b).fi[i]) fun t =>
    t.modBay b fun y => { y with fi := tabSet y.fi i (edgeTimeout y.fi[i]) }) s)

end Sys2Proof.Machine
end

