-- ==== Sys2Proof/Machine/Supply.lean ====
section
/-! DEFINITION. Machine/Supply.lean: the supply output, the safe state of a bay as a whole, and the persistence of
the monitored conditions (chapter 6, R89, R90). -/

namespace Sys2Proof.Machine

open Sys2Proof

/-! ### The safe state (R89, R90, R93, R94) -/

/-- The safe state of a bay entered: the outputs and the network go quiet (R89, R93). -/
def enterSafe (b : Bay) (s : State) : State := changeNet b netStopped (s.modStim b stimSafe)

/-- The safe state of a bay ended: outputs take their settings, the network is LIVE (R90, R94). -/
def endSafe (b : Bay) (s : State) : State := changeNet b (netLive s.rackTime) (stimUnsafe b s)

/-! ### The supply output (R144) -/

/-- A persistence count and recognized mark cleared; a recognition already made and not yet acted on stays
(R144, R157). -/
def clearWatch (w : Watch) : Watch := { w with count := 0, recognized := false }

/-- The supply monitor at a switch-off. The settle judgement of a POWER ON step in flight is kept at the
switch-off that starts a retry (R146) and abandoned at every other (R144; notes/assumptions/11.md). -/
def supplyOff (keepSettle : Bool) (p : Supply) : Supply :=
  { p with
    on := false
    armed := false
    watches := ⟨clearWatch p.watches.overcurrent, clearWatch p.watches.undervoltage,
      clearWatch p.watches.overvoltage, clearWatch p.watches.lidOpen⟩
    settle := if keepSettle then p.settle else none }

/-- The supply output switched off: with the output already off nothing changes but the safe state holding
(R144, R146). -/
def switchOff (b : Bay) (keepSettle : Bool) (s : State) : State :=
  if (s.bay b).supply.on then enterSafe b (s.modSupply b (supplyOff keepSettle)) else s

/-- The voltage watch DISARMED and its persistence counts 0 at a POWER ON step (R145). The recognized marks of the two
conditions are cleared with them, as R149 clears them while not armed: the model's choice (notes/assumptions/53.md). -/
def disarm (p : Supply) : Supply :=
  { p with
    armed := false
    watches := { p.watches with
      undervoltage := clearWatch p.watches.undervoltage
      overvoltage := clearWatch p.watches.overvoltage } }

/-- The supply monitor at the start of a POWER ON step (R145). -/
def powerOn (step setting : Nat) (p : Supply) : Supply :=
  let v := if setting = 0 then p.setup.nominal else clampNat 6000 18000 setting
  { disarm p with setting := v, on := true, settle := some ⟨step, 0⟩ }

/-- Loading SUPERVISION (R143). -/
def loadSupervision (x : Supervision) (p : Supply) : Supply := { p with setup := x }

/-- The supply monitor at a take (R39, R142). -/
def supplyAtTake (p : Supply) : Supply :=
  { p with retryCount := 0, reported := 0, setting := p.setup.nominal, armed := false }

/-- What an entry to CLOSING leaves of a condition's watch for a boundary of the same event that comes after it: the watch, if
the condition was armed (R149, R157). -/
def watchAtClosing (p : Supply) (phase : Phase) (c : Condition) : Option Watch :=
  if conditionArmed p phase c then some (condGet p.watches c) else none

/-- The supply monitor at the entry to CLOSING from a bay state: a retry in progress ends without effect, its count kept, and
a POWER ON step's settle judgement is lost, whether the output is on or off (R52, R56, R57, R145, R151, R154). The watches of
the armed conditions are kept for a boundary of that event (R157). -/
def supplyAtClosing (phase : Phase) (p : Supply) : Supply :=
  { p with
    atClosing := ⟨watchAtClosing p phase .overcurrent, watchAtClosing p phase .undervoltage,
      watchAtClosing p phase .overvoltage, watchAtClosing p phase .lidOpen⟩
    retry := .none
    retryFault := none
    settle := none }

/-! ### One boundary of the supply monitor (R147, R149, R153) -/

/-- The watch of one condition after a boundary. -/
def watchAt (p : Supply) (phase : Phase) (supv supi : Int) (c : Condition) : Watch :=
  watchStep (condGet p.setup.deglitch c) (conditionArmed p phase c) (conditionShown p supv supi c)
    (condGet p.watches c)

/-- The retry phase after a boundary: the off-time and the settle wait count up (R153). -/
def countRetry : RetryPhase → RetryPhase
  | .none => .none
  | .offTime n => .offTime (n + 1)
  | .settling n => .settling (n + 1)

/-- The supply monitor after it has taken a boundary's samples: interlock level, persistence counts, retry
phase (R147, R149, R153). -/
def monitorBoundary (phase : Phase) (supv supi : Int) (lid : Bool) (p : Supply) : Supply :=
  let p1 := { p with lidOpen := lid }
  { p1 with
    watches := ⟨watchAt p1 phase supv supi .overcurrent, watchAt p1 phase supv supi .undervoltage,
      watchAt p1 phase supv supi .overvoltage, watchAt p1 phase supv supi .lidOpen⟩
    retry := countRetry p1.retry }

/-- Whether a condition's deglitch completes at a boundary by the watch that an entry to CLOSING of the same event, taken
first, has left (R149, R157). -/
def recognizedLate (p : Supply) (supv supi : Int) (c : Condition) : Bool :=
  match condGet p.atClosing c with
  | none => false
  | some w =>
    (watchStep (condGet p.setup.deglitch c) true (conditionShown p supv supi c) { w with pending := false }).pending

/-- Whether a retry's settle succeeds at the boundary just taken (R153). -/
def retrySettles (p : Supply) (supv : Int) : Bool :=
  match p.retry with
  | .settling _ => inSettleWindow p.setting supv
  | _ => false

/-- The settle judgement of a POWER ON step counts a boundary that does not coincide with the step's start (R145). -/
def countSettle (atStart : Nat → Bool) (p : Supply) : Supply :=
  match p.settle with
  | none => p
  | some j => if atStart j.step then p else { p with settle := some { j with count := j.count + 1 } }

end Sys2Proof.Machine
end

