-- ==== Sys2Proof/Machine/Closing.lean ====
section
/-! DEFINITION. Machine/Closing.lean: result records, the requests of the panel handler that need no prompt, and
the way of a bay through CLOSING, from its entry to OFFLINE, HALTED or IDLE (R46, R47, R61, R187, R188,
R200, R201, R212). -/

namespace Sys2Proof.Machine

open Sys2Proof

/-! ### Result records (R61, R62, section 11.8) -/

/-- The 64 bytes of a result record. -/
def resultBytes (x : StepResult) : List Byte :=
  leBytes 1 x.index ++ leBytes 1 (outcomeCode x.outcome) ++ leBytes 2 x.tag ++ leBytes 2 (detailCode x.detail)
    ++ leBytes 1 x.clamped.toNat ++ [x.reported] ++ wordBytes x.start ++ wordBytes x.stop
    ++ x.probes.flatMap (fun p => leBytes 4 (probeOutcomeCode p.1) ++ s32Bytes p.2)
    ++ List.replicate 16 0

/-- Probe entries of a result without probes (R61). -/
def noProbes : List (ProbeOutcome × Int) := List.replicate 4 (.none, 0)

/-- The probe entries that an in-flight step hands over at its end (R140). -/
def workProbes : Work → List (ProbeOutcome × Int)
  | .check c => probeEntries c.probes
  | .drive _ _ | .dwell _ | .prompt | .frame | .fixture _ _ _ | .power | .join _ => noProbes

/-- The result of an in-flight step ending now (R50, R61). -/
def resultOf (e : InFlight) (outcome : StepOutcome) (detail : Detail) (now : RackTime) : StepResult :=
  ⟨e.index, e.tag, outcome, detail, e.clamped, e.reported, e.start, now, workProbes e.work⟩

/-- The result of a step never started (R61). Its probe entries are NONE with value 0, those of a CHECK step too: the model's
choice (notes/assumptions/65.md). -/
def skippedResult (r : RunEngine) (i : Nat) : StepResult :=
  ⟨i, tagOf r i, .skipped, .none, 0, 0, 0, 0, noProbes⟩

/-- The slot a bay holds, or held last. -/
def heldOffset (b : Bay) (r : RunEngine) : Nat :=
  match r.slot with
  | some x => slotOffset b x
  | none => 0

/-- A result record handed to the exchange unit, unless a slot write of the run has failed (R23, R50). -/
def writeResult (b : Bay) (x : StepResult) (s : State) : State :=
  let r := (s.bay b).run
  if r.lost then s
  else writeArea (.result b x.index) (heldOffset b r + 0x2800 + 64 * x.index) (resultBytes x) s

/-- A step's result fixed: it is never changed afterwards (R62). -/
def addResult (b : Bay) (x : StepResult) (s : State) : State :=
  s.modRun b fun r => { r with results := r.results ++ [x] }

/-! ### Requests of the panel handler (R198, R200, R201) -/

/-- A display write's request (R162). -/
def displayEntry (b : Bay) (p : DisplayPurpose) (bytes : List Byte) : BusEntry :=
  newEntry b (.display p) 1 (.write bytes) 0x00

/-- A lamp write's request (R162, R200). -/
def lampEntry (b : Bay) (lamps : Byte) : BusEntry := newEntry b .lamp 1 (.write [lamps]) 0x40

/-- A key read's request (R162, R201). -/
def keyEntry (b : Bay) : BusEntry := newEntry b .key 1 (.read 1) 0x50

/-- The lamp-or-verdict-write-failed flag set (R200, R212). -/
def flagLampFailed (b : Bay) (s : State) : State := s.modStatus b fun t => { t with lampFailed := true }

/-- A lamp write wanted: requested now, or to follow the outstanding one (R200). A request that ends BUS_FAILED
at its event sets the flag. -/
def wantLamp (b : Bay) (lamps : Byte) (s : State) : State :=
  match (s.bay b).panel.lampWrite with
  | some _ => s.modPanel b fun p => { p with lampWaiting := some lamps }
  | none =>
    match busRequest (lampEntry b lamps) s with
    | some t => t.modPanel b fun p => { p with lampWrite := some lamps }
    | none => flagLampFailed b s

/-- The end or removal of the outstanding lamp write: a waiting one is requested (R200). -/
def lampOver (b : Bay) (s : State) : State :=
  let waiting := (s.bay b).panel.lampWaiting
  let s1 := s.modPanel b fun p => { p with lampWrite := none, lampWaiting := none }
  match waiting with
  | none => s1
  | some lamps => wantLamp b lamps s1

/-- A key read requested when the attention line is asserted, the key read state is NONE and the bay is not in
CLOSING (R201). With the bus FAILED the state becomes WAIT_BOUNDARY at once. -/
def pollKeys (b : Bay) (s : State) : State :=
  let y := s.bay b
  if y.panel.attention && y.panel.keyRead = .none && y.phase ≠ .closing then
    match busRequest (keyEntry b) s with
    | some t => t.modPanel b fun p => { p with keyRead := .outstanding }
    | none => s.modPanel b fun p => { p with keyRead := .waitBoundary }
  else s

/-! ### The end of CLOSING (R28, R46, R47) -/

/-- The counted, passed and failed step counts over the run's results (R60). -/
def stepCounts (r : RunEngine) : Nat × Nat × Nat :=
  let m := runOption r (fun h => h.marginalIsFail)
  let counted := (List.range (stepCount r)).filter (countedStep r)
  let of_ (f : StepOutcome → Bool) := (counted.filter fun i => r.results.any fun x => x.index = i && f x.outcome).length
  (counted.length, of_ (passing m), of_ (failing m))

/-- Bytes 0x80 to 0x9B of the slot header (R28, section 11.5). -/
def headerBytes (verdict cause offending counted passed failed : Nat) (take start stop serial cycles : Word32) :
    List Byte :=
  leBytes 1 verdict ++ leBytes 1 cause ++ leBytes 1 offending ++ [0] ++ leBytes 1 counted ++ leBytes 1 passed
    ++ leBytes 1 failed ++ [0] ++ wordBytes take ++ wordBytes start ++ wordBytes stop ++ wordBytes serial
    ++ wordBytes cycles

/-- The part-written header fields of a run at its closing (R28). -/
def runHeaderBytes (r : RunEngine) : List Byte :=
  let n := stepCounts r
  headerBytes (match r.verdict with | some v => verdictCode v | none => 0) (endCauseCode r.cause) r.offending
    n.1 n.2.1 n.2.2 r.takeTime (if r.ran then r.startTime else 0) r.endTime
    (match r.ident with | some x => x.serial | none => 0)
    (match r.ident with | some _ => r.cycleAfter | none => 0)

/-- The label that the bay status block records for a lost run. A run lost before its header was read has a label
that the part does not know: the value is free (notes/assumptions/7.md). -/
def lostLabelOf (r : RunEngine) (free : Word32) : Word32 :=
  match r.copy.header with
  | some h => h.label
  | none => free

/-- The run is lost (R18, R23). -/
def loseRun (b : Bay) (s : State) : State :=
  if (s.bay b).run.lost then s
  else
    let s1 := s.modBay b fun y =>
      { y with
        run := { y.run with lost := true }
        status := { y.status with runLost := true, lostLabel := lostLabelOf y.run (Config.freeWord s.freeIndex) } }
    triggerBay b { s1 with freeIndex := s.freeIndex + 1 }

/-- A write of the hand-back is reported not accepted at its event: the error is recorded, the run is lost and EXCHANGE is
latched (R20 to R23). The loss triggers the bay status block before the set changes, which triggers it too: the model's
choice (notes/assumptions/62.md). -/
def handBackFails (b : Bay) (s : State) : State :=
  addLatched b exchangeBit (loseRun b (recordError .writeError (some b) s))

/-- The FINISHED write and its DONE event (R25, R46). -/
def writeFinished (b : Bay) (s : State) : State :=
  let r := (s.bay b).run
  let t := writeArea (.finished b) (heldOffset b r) (leBytes 4 3) s
  if runOption r (fun h => h.eventOnFinish) then setEvent (doneBit b) t else t

/-- The counters that a run handed back raises (R17, R47). -/
def countRun (b : Bay) (s : State) : State :=
  let v := (s.bay b).run.verdict
  s.modStatus b fun t =>
    { t with
      finished := t.finished + 1
      passed := if v = some .pass then t.passed + 1 else t.passed
      failed := if v = some .fail then t.failed + 1 else t.failed }

/-- The header fields, the FINISHED write, its DONE event and its counters, for a run that is not lost (R25, R28,
R46, R47, R17). A write that the card does not accept ends the hand-back there: FINISHED does not follow a header that
failed, and a run whose FINISHED write failed raises no counter (R23; notes/assumptions/49.md). -/
def handBack (b : Bay) (s : State) : State :=
  let r := (s.bay b).run
  let s1 := writeArea (.header b) (heldOffset b r + 0x80) (runHeaderBytes r) s
  match (s.bay b).xu.refused with
  | some .header => handBackFails b s1
  | some .finished => handBackFails b (writeFinished b s1)
  | some .record | none => countRun b (writeFinished b s1)

/-- The faults recognized and not yet acted on join the sets before the bay leaves CLOSING (R157). -/
def settlePending (b : Bay) (c : Condition) (s : State) : State :=
  let p := (s.bay b).supply
  if (condGet p.watches c).pending then
    let s1 := s.modSupply b fun p =>
      { p with watches := condSet p.watches c { condGet p.watches c with pending := false } }
    match condGet p.setup.modes c with
    | .latch | .retry => addLatched b (condBit c) s1
    | .report => addReported b (condBit c) s1
    | .off => s1
  else s

/-- OFFLINE entered: the latched-fault set is emptied (R45). It is emptied before the state changes, and each of the two
triggers a write of the bay status block: the model's choice (notes/assumptions/55.md). -/
def goOffline (b : Bay) (s : State) : State := setPhase b .offline (clearLatched b s)

/-- HALTED entered: ALERT is set (R25, R48). The write of the bay status block is triggered before ALERT is set with its
interrupt message: the model's choice (notes/assumptions/41.md). -/
def goHalted (b : Bay) (s : State) : State := setEvent (alertBit b) (setPhase b .halted s)

/-- The back-to-back read of the other slot, which is the next slot now, requested at an entry to IDLE with
CTRL.RUN = 1 (R11, R12, R47). It takes the place of one that is still outstanding: the model's choice
(notes/assumptions/40.md). -/
def readBackToBack (b : Bay) (s : State) : State :=
  if s.xu.run then s.modBayXu b fun x => { x with backToBack := some (x.next, readAt (slotOffset b x.next) s) } else s

/-- The end of CLOSING (R47): the slot is free, and the bay enters OFFLINE, HALTED or IDLE; then a waiting key
is read (R201). -/
def closingEnd (b : Bay) (s : State) : State :=
  let s0 := forAll allConditions (settlePending b) s
  let r := (s0.bay b).run
  let s1 := if r.lost then s0 else handBack b s0
  let next := match r.slot with | some x => otherSlot x | none => (s1.bay b).xu.next
  let s2 := s1.modBay b fun y =>
    { y with
      xu := { y.xu with next := next, refused := none }
      run := { y.run with slot := none, closing := .none, inFlight := [], claims := Vector.replicate 14 none } }
  let s3 := if !(s2.bay b).xu.enabled then goOffline b s2
    else if (s2.bay b).supply.latched ≠ 0 then goHalted b s2
    else readBackToBack b (setPhase b .idle s2)
  pollKeys b s3

/-! ### The verdict display (R212) -/

/-- The lamp byte of a verdict. -/
def verdictLamp : Verdict → Byte
  | .pass => 0x01
  | .fail | .aborted => 0x02
  | .refused | .withdrawn => 0x04

/-- The 48 bytes of the verdict text, when the verdict calls for one. -/
def verdictText (r : RunEngine) : Option (List Byte) :=
  let offset := match r.verdict, r.copy.header with
    | some .pass, some h => h.passText
    | some .fail, some h => h.failText
    | _, _ => 0
  if offset = 0 then none else some (bytesAt r.copy.text offset 48)

/-- Part 4 of CLOSING goes on when neither verdict write is outstanding (R46, R212). -/
def closingPanelDone (b : Bay) (s : State) : State :=
  let p := (s.bay b).panel
  if p.lampWrite = none && p.display = none then closingEnd b s else s

/-- The verdict display: the lamp write and then, when called for, the text write, requested at one event
(R212). -/
def closingPanel (b : Bay) (s : State) : State :=
  let r := (s.bay b).run
  let s0 := s.modRun b fun r => { r with closing := .panel }
  let s1 := match r.verdict with
    | some v => wantLamp b (verdictLamp v) s0
    | none => s0
  let s2 := match verdictText r with
    | none => s1
    | some bytes =>
      match busRequest (displayEntry b .verdictText bytes) s1 with
      | some t => t.modPanel b fun p => { p with display := some .verdictText }
      | none => flagLampFailed b s1
  closingPanelDone b s2

/-! ### The cycle count (R63, R187, R188) -/

/-- The cycle count the part writes back: the count read plus one, modulo 2³² (R63, R187). -/
def cycleValue (r : RunEngine) : Word32 :=
  match r.ident with
  | some x => x.cycles + 1
  | none => 1

/-- The cycle-count write's request (R187). -/
def cycleEntry (b : Bay) (r : RunEngine) : BusEntry := newEntry b .cycleCount 0 (.write (wordBytes (cycleValue r))) 6

/-- The end of the cycle-count write (R188). -/
def cycleEnded (b : Bay) (o : BusOutcome) (s : State) : State :=
  let v := cycleValue (s.bay b).run
  let s1 := if o = .done then
      (s.modRun b fun r => { r with cycleAfter := v }).modStatus b fun t => { t with identCycles := v }
    else s.modStatus b fun t => { t with cycleFailed := true }
  closingPanel b s1

/-- Part 3 of CLOSING (R46): the cycle-count write of a run that reached RUNNING. -/
def closingCycle (b : Bay) (s : State) : State :=
  let r := (s.bay b).run
  if r.ran then
    match busRequest (cycleEntry b r) s with
    | some t => t.modRun b fun r => { r with closing := .cycle }
    | none => cycleEnded b .busFailed s
  else closingPanel b s

/-- Part 2 of CLOSING (R46): a transaction of the bay on the bus is waited for; at an entry to FAILED, the ends of the bay's
entries and held requests that are still to come at that event: the model's choice (notes/assumptions/61.md). -/
def closingBus (b : Bay) (s : State) : State :=
  if busHolds s.bus b then s.modRun b fun r => { r with closing := .bus } else closingCycle b s

/-! ### Entry to CLOSING (R46, R57, R168, R209) -/

/-- The panel handler at the entry to CLOSING: prompts and waiting text gone; a transaction that is not on the
bus is removed with its entry (R57, R201, R209). -/
def panelAtClosing (onBus : Option Owner) (p : Panel) : Panel :=
  { p with
    prompts := []
    display := match onBus with | some (.display _) => p.display | _ => none
    waitingText := none
    lampWrite := match onBus with | some .lamp => p.lampWrite | _ => none
    lampWaiting := none
    keyRead := match onBus with | some .key => p.keyRead
                                | _ => if p.keyRead = .outstanding then .none else p.keyRead
    closeLid := false }

/-- The owner of the bay's transaction on the bus. -/
def ownerOnBus (u : Bus) (b : Bay) : Option Owner :=
  match onBusEntry u with
  | some e => if e.bay = b then some e.owner else none
  | none => none

/-- The results that CLOSING hands over, in that order: those of the steps ended at its entry, and those of the steps
never started, in index order (R46, R56, R57). -/
def closingResults (ended : List StepResult) (r : RunEngine) : List StepResult :=
  ended ++ ((List.range (stepCount r)).filter fun i =>
    !hasResult { r with results := r.results ++ ended } i).map (skippedResult r)

/-- Result records handed over in CLOSING, each step end triggering a write of the bay status block (R18, R46). -/
def handOver (b : Bay) (results : List StepResult) (s : State) : State :=
  forAll results (fun x t => triggerBay b (writeResult b x t)) s

/-- A result record handed over in CLOSING is reported not accepted at that event (R23; notes/assumptions/49.md). -/
def recordsRefused (b : Bay) (results : List StepResult) (s : State) : State :=
  if (s.bay b).xu.refused = some .record && !results.isEmpty && !(s.bay b).run.lost then handBackFails b s else s

/-- In-flight entries in index order. -/
def insertByIndex (e : InFlight) : List InFlight → List InFlight
  | [] => [e]
  | x :: rest => if e.index ≤ x.index then e :: x :: rest else x :: insertByIndex e rest

/-- The in-flight table in index order. -/
def byIndex : List InFlight → List InFlight
  | [] => []
  | e :: rest => insertByIndex e (byIndex rest)

/-- The results of every step still in flight, all ending now with one outcome and detail (R56, R57). -/
def endAll (r : RunEngine) (outcome : StepOutcome) (detail : Detail) (now : RackTime) : List StepResult :=
  (byIndex r.inFlight).map fun e => resultOf e outcome detail now

/-- The run engine at the entry to CLOSING (R28, R46, R57, R62): the verdict decided, nothing in flight, no claim, and
every step with its result. The ident-read mark stays while the ident read is on the bus (R186). -/
def runAtClosing (verdict : Verdict) (cause : EndCause) (offending : Nat) (results : List StepResult) (now : RackTime)
    (onBus : Option Owner) (r : RunEngine) : RunEngine :=
  { r with
    inFlight := []
    results := r.results ++ results
    claims := Vector.replicate 14 none
    load := none
    endTime := now
    verdict := some verdict
    cause := cause
    offending := offending
    identMark := r.identMark && onBus = some .fixtureCheck }

/-- The entry to CLOSING with a verdict, an end cause and the results of the steps that end there (R46). The results
are fixed before the bay status block is first written in CLOSING, which so shows no unfinished step (R17). The bay's bus
entries leave the queue, with the write of the block and the service of the held list that their removal brings, before the
bay's state changes, so a block issued at the removal still shows the old state; and where the network is not STOPPED yet,
the write that its change to STOPPED triggers comes before both, and shows the old state too: the model's choice
(notes/assumptions/62.md). -/
def enterClosing (b : Bay) (verdict : Verdict) (cause : EndCause) (offending : Nat) (ended : List StepResult)
    (s : State) : State :=
  let owner := ownerOnBus s.bus b
  let results := closingResults ended (s.bay b).run
  let s1 := s.modBay b fun y =>
    { y with
      run := runAtClosing verdict cause offending results s.rackTime owner y.run
      stim := { y.stim with actions := Vector.replicate 14 none, stopped := stoppedAtClosing y }
      panel := panelAtClosing owner y.panel
      supply := supplyAtClosing y.phase y.supply }
  let s2 := enterSafe b (switchOff b false s1)
  let s3 := removeEntries b (fun _ => true) s2
  let s4 := setPhase b .closing s3
  closingBus b (recordsRefused b results (handOver b results s4))

/-- The release of a bay's CLOSING that waits for its transaction on the bus, or for its ends at an entry to FAILED (R46,
R169, R177). -/
def closingRelease (b : Bay) (s : State) : State :=
  if (s.bay b).phase = .closing && (s.bay b).run.closing = .bus && !busHolds s.bus b then closingCycle b s else s

end Sys2Proof.Machine
end

