-- ==== Sys2Proof/Machine/StepEnd.lean ====
section
/-! DEFINITION. Machine/StepEnd.lean: how a carrying block stops a step, how a step's end is taken, how a run
stops, and the display of the panel between prompts (R50, R52, R54, R56, R198, R205, R208, R209). -/

namespace Sys2Proof.Machine

open Sys2Proof

/-! ### Stopping a step where it stands (R52, R77, R145, R168, R209) -/

/-- A prompt leaves the queue; its display write leaves with it unless it is on the bus (R209). The held list is served at
that removal, before the next display write is requested: the model's choice (notes/assumptions/32.md). -/
def dropPrompt (b : Bay) (i : Nat) (s : State) : State :=
  let s1 := s.modPanel b fun p => { p with prompts := p.prompts.filter fun q => q.step ≠ i }
  if (s1.bay b).panel.display = some (.prompt i) && ownerOnBus s1.bus b ≠ some (.display (.prompt i)) then
    removeEntries b (fun e => e.owner = .display (.prompt i)) (s1.modPanel b fun p => { p with display := none })
  else s1

/-- The settle judgement of a POWER step abandoned (R52, R145). -/
def dropSettle (i : Nat) (p : Supply) : Supply :=
  match p.settle with
  | some j => if j.step = i then { p with settle := none } else p
  | none => p

/-- The carrying block stops a step where it stands (R52). It does so before the step leaves the in-flight table, so a bay
status block that the removal of its transaction issues still shows the step in flight: the model's choice
(notes/assumptions/32.md). -/
def stopBlock (b : Bay) (e : InFlight) (s : State) : State :=
  match e.work with
  | .drive _ _ => (s.modStim b (stopActions e.index)).modRun b (releaseClaims e.index)
  | .prompt => dropPrompt b e.index s
  | .fixture _ _ _ => removeEntries b (fun x => x.owner = .step e.index) s
  | .power => s.modSupply b (dropSettle e.index)
  | .dwell _ | .check _ | .frame | .join _ => s

/-! ### Taking a step's end (R50, R55, R56) -/

/-- Whether an end stops the run: the step is counted, its outcome is failing, and STOP_ON_FAIL is in force for
it (R50, R55, R56). -/
def endStops (r : RunEngine) (i : Nat) (o : StepOutcome) : Bool :=
  countedStep r i && failing (runOption r fun h => h.marginalIsFail) o
    && (runOption r (fun h => h.stopOnFirstFail) || ((r.copy.steps[i]?).map fun x => x.stopOnFail).getD false)

/-- The stop of a run by a failing step (R56). -/
def stopRun (b : Bay) (i : Nat) (s : State) : State :=
  enterClosing b .fail .stoppedOnFail i (endAll (s.bay b).run .cut .stopped s.rackTime) s

/-- A step out of the in-flight table, its claims released and its result fixed (R50, parts 1 and 2). -/
def leaveTable (b : Bay) (x : StepResult) (s : State) : State :=
  addResult b x (s.modRun b fun r =>
    { releaseClaims x.index r with inFlight := r.inFlight.filter fun e => e.index ≠ x.index })

/-- The end of a step in flight (R50, parts 1 to 4); an end of a step not in flight is discarded (R58). -/
def endStep (b : Bay) (i : Nat) (o : StepOutcome) (d : Detail) (s : State) : State :=
  match findInFlight (s.bay b).run i with
  | none => s
  | some e =>
    let x := resultOf e o d s.rackTime
    let s1 := triggerBay b (writeResult b x (leaveTable b x s))
    if endStops (s.bay b).run i o then stopRun b i s1 else s1

/-! ### Ends that have been reported and not yet taken (R137) -/

/-- The CHECK step whose end is due: every probe decided, or its period over (R135, R136). -/
def checkDue (e : InFlight) : Bool :=
  match e.work with
  | .check c => allDecided c || periodOver c
  | _ => false

/-- Whether a failing end that a FAILED bus brings at a request waits: it stops the run, or is that of a step whose own end is
due, and the ends of CHECK steps that are due were reported before it and are taken first (R56, R58, R137;
notes/assumptions/29.md). -/
def endWaits (r : RunEngine) (i : Nat) : Bool :=
  r.inFlight.any fun e => checkDue e && (endStops r i .error || e.index = i)

/-! ### The JOIN in flight (R34) -/

/-- Whether the condition of a JOIN step holds (R34). -/
def joinHolds (r : RunEngine) (i : Nat) (tag : Option Nat) : Bool :=
  r.inFlight.all fun e => e.index = i || (match tag with | none => false | some t => e.tag ≠ t)

/-- The JOIN in flight whose condition holds. -/
def readyJoin (r : RunEngine) : Option InFlight :=
  r.inFlight.find? fun e => match e.work with | .join tag => joinHolds r e.index tag | _ => false

/-- The JOIN in flight tests its condition (R34). -/
def joinTest (b : Bay) (s : State) : State :=
  match readyJoin (s.bay b).run with
  | some e => endStep b e.index .done .none s
  | none => s

/-! ### The display (R198, R205, R208) -/

/-- A fixed text requested; one that ends BUS_FAILED at its request is not reported (R198, R210, R211). -/
def requestFixed (b : Bay) (t : FixedText) (s : State) : State :=
  match busRequest (displayEntry b (.fixed t) (fixedTextBytes t)) s with
  | some u => u.modPanel b fun p => { p with display := some (.fixed t) }
  | none => s

/-- A fixed text wanted (R198). -/
def wantText (b : Bay) (t : FixedText) (s : State) : State :=
  if (s.bay b).panel.display = none then requestFixed b t s
  else s.modPanel b fun p => { p with waitingText := some t }

/-- The head prompt, when it can enter WRITING (R205). -/
def writable (y : BayState) : Option Prompt :=
  let p := y.panel
  if (y.phase = .running || y.phase = .paused) && p.display = none && p.waitingText = none
      && p.prompts.all (fun q => q.state = .waiting) then p.prompts.head?
  else none

/-- The state of one step's prompt changed. -/
def markPrompt (i : Nat) (f : Prompt → Prompt) (p : Panel) : Panel :=
  { p with prompts := p.prompts.map fun q => if q.step = i then f q else q }

/-- A prompt out of the queue. -/
def takePrompt (i : Nat) (p : Panel) : Panel := { p with prompts := p.prompts.filter fun q => q.step ≠ i }

/-- The head prompt enters WRITING; with the bus FAILED it ends ERROR, the JOIN in flight tests its condition, and the next
prompt follows, but an end that waits for others is left to be taken after them (R34, R205, R208). -/
def pumpPrompts (b : Bay) : Nat → State → State
  | 0, s => s
  | fuel + 1, s =>
    match writable (s.bay b) with
    | none => s
    | some q =>
      match busRequest (displayEntry b (.prompt q.step) q.text) s with
      | some u => u.modPanel b fun p =>
          { markPrompt q.step (fun x => { x with state := .writing }) p with display := some (.prompt q.step) }
      | none =>
        if endWaits (s.bay b).run q.step then s
        else
          pumpPrompts b fuel (joinTest b (endStep b q.step .error (.bus .busFailed) (s.modPanel b (takePrompt q.step))))

/-- The fixed text that waits for the end of a display write requested (R198). -/
def pumpText (b : Bay) (s : State) : State :=
  match (s.bay b).panel.display, (s.bay b).panel.waitingText with
  | none, some t => requestFixed b t (s.modPanel b fun p => { p with waitingText := none })
  | _, _ => s

/-- The display write that follows another: the waiting fixed text, or the head prompt's text (R198, R205). -/
def pumpDisplay (b : Bay) (s : State) : State := pumpPrompts b 4 (pumpText b s)

end Sys2Proof.Machine
end

