-- ==== Sys2Proof/Machine/Walker.lean ====
section
/-! DEFINITION. Machine/Walker.lean: the walker: how a step of each kind starts, the JOIN test, the end of a run,
aborts and refusals, and the pauses of a supply retry (R32, R34, R43, R44, R49, R53 to R59, R150 to R157). -/

namespace Sys2Proof.Machine

open Sys2Proof

/-! ### The start of a DRIVE step (R53, R54, R68, R69, R74, R76) -/

/-- An action of a step in flight ends: it leaves the unfinished ones, reached or cut. -/
def finishAction (position : Nat) (reached : Bool) (e : InFlight) : InFlight :=
  match e.work with
  | .drive left any => { e with work := .drive (left.filter fun p => p ≠ position) (any || reached) }
  | _ => e

/-- The action in force on a channel ends by reaching its target or by a cut: the channel is undriven and its
claim released (R54, R74, R76). -/
def endAction (b : Bay) (c : Fin 14) (reached : Bool) (s : State) : State :=
  match (s.bay b).stim.actions[c] with
  | none => s
  | some a =>
    ((s.modStim b fun u => { u with actions := tabSet u.actions c none }).modRun b fun r =>
      { r with claims := tabSet r.claims c none }).modInFlight b a.step (finishAction a.position reached)

/-- One action of a DRIVE step at its start: it cuts the older action on its channel, unless that one has
reached its target at this boundary, and claims the channel (R53, R68, R74). A boundary that coincides with the claim and
comes after it takes the channel's value from the action cut; where the new action ends at its start there is none left to
take it, and the step is marked as started before that boundary (R76; notes/assumptions/58.md). -/
def startAction (b : Bay) (i : Nat) (a : DriveAction) (s : State) : State :=
  let older := handedOver (s.bay b) a.channel
  let s1 := match (s.bay b).stim.actions[a.channel] with
    | some old => endAction b a.channel old.reached s
    | none => s
  let x := { makeAction i a (s1.bay b).stim with older := older }
  let s2 := s1.modStim b (setForm a.channel a.kind)
  let s3 := if x.clamped then
      s2.modInFlight b i fun e => { e with clamped := e.clamped ||| BitVec.ofNat 4 (2 ^ a.position) }
    else s2
  if endsAtStart x then
    s3.modInFlight b i fun e => finishAction a.position true { e with early := e.early || !older.isEmpty }
  else
    (s3.modStim b fun u => { u with actions := tabSet u.actions a.channel (some x) }).modRun b fun r =>
      { r with claims := tabSet r.claims a.channel (some (i, a.position)) }

/-- Whether a DRIVE step in flight has no unfinished action, and whether one of its actions reached its target. -/
def driveOver (e : InFlight) : Option Bool :=
  match e.work with
  | .drive [] any => some any
  | _ => none

/-- The end of a DRIVE step with no unfinished action: CUT when every one of its actions was cut, DONE otherwise
(R54). -/
def endDrive (b : Bay) (i : Nat) (s : State) : State :=
  match (findInFlight (s.bay b).run i).bind driveOver with
  | some false => endStep b i .cut .superseded s
  | some true => endStep b i .done .none s
  | none => s

/-- The start of a DRIVE step: claims, actions, line sets, and the ends that they bring (R53, R54). A step with
no actions counts as one with none cut. Older steps that lose their last actions here end in the order in which they
were started, before this step when it ends too: the model's choice (notes/assumptions/42.md). -/
def startDrive (b : Bay) (i : Nat) (actions : List DriveAction) (on off : BitVec 16) (s : State) : State :=
  let s1 := forAll actions (startAction b i) s
  let s2 := s1.modStim b (applyLines on off)
  forAll ((s2.bay b).run.inFlight.map fun e => e.index) (endDrive b) s2

/-! ### The start of the other kinds -/

/-- The start of a PROMPT step (R205). -/
def startPrompt (b : Bay) (i : Nat) (text : List Byte) (form : PromptForm) (timeout : Nat) (s : State) : State :=
  pumpDisplay b (s.modPanel b fun p =>
    { p with prompts := p.prompts ++ [⟨i, form, text, clampNat 0 3600000 timeout, none, .waiting, none⟩] })

/-- The start of a FRAME step, which ends DONE at its start (R108 to R112). -/
def startFrame (b : Bay) (i : Nat) (e : Fin 16) (act : FrameAction) (s : State) : State :=
  let n := (s.bay b).net
  let s1 := if n.setup.entries[e].enabled then s.modNet b (frameAction s.rackTime e act) else s
  endStep b i .done (frameDetail n e) s1

/-- The start of a FIXTURE step (R191). With the bus FAILED it ends ERROR at its start, unless that end waits for others
(`failHeld`). -/
def startFixture (b : Bay) (i : Nat) (m : Fin 16) (write : Bool) (index : Byte) (data : List Byte) (s : State) :
    State :=
  let op := if write then BusOp.write data else BusOp.read data.length
  match busRequest (newEntry b (.step i) m op index) s with
  | some u => u
  | none => if endWaits (s.bay b).run i then s else endStep b i .error (.bus .busFailed) s

/-- The start of a POWER step (R144 to R146, R90). A POWER OFF step's change of the network to STOPPED triggers the bay
status block before the step's end triggers it: the model's choice (notes/assumptions/62.md). -/
def startPower (b : Bay) (i : Nat) (on : Bool) (setting : Nat) (s : State) : State :=
  if on then
    let s1 := s.modSupply b (powerOn i setting)
    if (s1.bay b).stim.safe then endSafe b s1 else s1
  else endStep b i .done .none (switchOff b false s)

/-- The work of a step at its start. -/
def startWork : StepBody → Work
  | .drive actions _ _ => .drive (actions.map fun a => a.position) actions.isEmpty
  | .dwell ms => .dwell (clampNat 1 600000 ms)
  | .check period probes => .check (startCheck period probes)
  | .prompt _ _ _ => .prompt
  | .frame _ _ => .frame
  | .fixture _ write _ _ expected mask => .fixture write expected mask
  | .power _ _ => .power
  | .join tag => .join tag

/-- The entry of a step in the in-flight table at its start (R32, R51). -/
def startEntry (i : Nat) (x : Step) (now : RackTime) : InFlight :=
  ⟨i, x.tag, x.overlap, now, false, if x.timeout = 0 then none else some x.timeout, 0, 0, startWork x.body⟩

/-- A step's body handed to the block that carries it out (R32). -/
def startBody (b : Bay) (i : Nat) (body : StepBody) (s : State) : State :=
  match body with
  | .drive actions on off => startDrive b i actions on off s
  | .dwell _ => s
  | .check _ _ => s
  | .prompt text form timeout => startPrompt b i text form timeout s
  | .frame e act => startFrame b i e act s
  | .fixture m write index data _ _ => startFixture b i m write index data s
  | .power on setting => startPower b i on setting s
  | .join _ => joinTest b s

/-- The walker starts the next step and moves to the following one (R32, R49). -/
def startStep (b : Bay) (s : State) : State :=
  let r := (s.bay b).run
  let s1 := s.modRun b fun r => { r with next := r.next + 1 }
  match r.copy.steps[r.next]? with
  | none => s1
  | some x =>
    startBody b r.next x.body (s1.modRun b fun r' =>
      { r' with inFlight := r'.inFlight ++ [startEntry r.next x s.rackTime] })

/-! ### The walker (R49, R59) -/

/-- Whether a step in flight lets its successor start: its OVERLAP flag is set, and it is no JOIN (R31, R49). -/
def letsNextStart (e : InFlight) : Bool :=
  e.overlap && (match e.work with | .join _ => false | _ => true)

/-- The walker's condition (R49): the bay is RUNNING, a step is left, fewer than 4 steps are in flight, and each
earlier step without OVERLAP has ended. -/
def canStart (y : BayState) : Bool :=
  y.phase = .running && y.run.next < stepCount y.run && y.run.inFlight.length < 4
    && y.run.inFlight.all letsNextStart

/-- Whether a counted step of the run has ended failing (R55, R59). -/
def anyFailed (r : RunEngine) : Bool :=
  r.results.any fun x => countedStep r x.index && failing (runOption r fun h => h.marginalIsFail) x.outcome

/-- Whether the run has reached its end (R49, R154). -/
def atRunEnd (y : BayState) : Bool :=
  (y.phase = .running || y.phase = .paused) && stepCount y.run ≤ y.run.next && y.run.inFlight.isEmpty

/-- The end of a run that reached its last step's end (R49, R59, R60). -/
def runEnd (b : Bay) (s : State) : State :=
  if atRunEnd (s.bay b) then
    enterClosing b (if anyFailed (s.bay b).run then .fail else .pass) .none 0 [] s
  else s

/-- The walker tests its condition, starting every step that it allows (R49). -/
def walkSteps (b : Bay) : Nat → State → State
  | 0, s => runEnd b s
  | fuel + 1, s => if canStart (s.bay b) then walkSteps b fuel (startStep b s) else runEnd b s

/-- The walker at one event; a run has at most 96 steps. -/
def walk (b : Bay) (s : State) : State := walkSteps b 96 s

/-- The prompt that ends at this point because the bus is FAILED (R205, R208). -/
def failingPrompt (b : Bay) (s : State) : Option Prompt :=
  if s.bus.state = .failed then (writable (s.bay b)).filter fun q => !endWaits (s.bay b).run q.step else none

/-- The display and the walker after the end of a step. With the bus FAILED the next prompt ends ERROR: the walker tests
its condition before that end is taken, and all that follows an end follows it in turn (R50 part 5, R205, R208). -/
def afterPrompts (b : Bay) : Nat → State → State
  | 0, s => walk b (pumpDisplay b s)
  | fuel + 1, s =>
    if (failingPrompt b s).isNone then walk b (pumpDisplay b s)
    else
      let s1 := walk b s
      match failingPrompt b s1 with
      | none => s1
      | some q =>
        afterPrompts b fuel (joinTest b (endStep b q.step .error (.bus .busFailed) (s1.modPanel b (takePrompt q.step))))

/-- The FIXTURE step that has failed at its start and whose end has waited: the bus is FAILED, and no transaction of the
step is queued or held. -/
def heldFixture (b : Bay) (s : State) : Option InFlight :=
  if s.bus.state = .failed then
    (s.bay b).run.inFlight.find? fun e =>
      match e.work with
      | .fixture _ _ _ =>
        endStops (s.bay b).run e.index .error
          && (s.bus.queue ++ s.bus.held).all fun x => x.bay ≠ b || x.owner ≠ .step e.index
      | _ => false
  else none

/-- The end of a FIXTURE step that failed at its start and waited for the ends reported before it, once these are taken: it
stops the run (R56, R137, R191; notes/assumptions/29.md). -/
def failHeld (b : Bay) (s : State) : State :=
  match heldFixture b s with
  | none => s
  | some e => if endWaits (s.bay b).run e.index then s else endStep b e.index .error (.bus .busFailed) s

/-- What follows the end of a step: the JOIN in flight and the walker test their conditions, the next text is requested,
and the end of a step that failed at its start and waited is taken when it need not wait any more (R34, R49, R50 part 5,
R205). The display comes before the walker, but the failing end of a prompt after it: the model's choice
(notes/assumptions/54.md). -/
def afterEnds (b : Bay) (s : State) : State := failHeld b (afterPrompts b 4 (pumpText b (joinTest b s)))

/-- The end of a step with all that follows it (R50). -/
def takeEnd (b : Bay) (i : Nat) (o : StepOutcome) (d : Detail) (s : State) : State :=
  afterEnds b (endStep b i o d s)

/-! ### Ends of CHECK steps that are due (R135 to R138) -/

/-- The outcome a due CHECK step ends with (R136). -/
def dueOutcome (e : InFlight) : StepOutcome :=
  match e.work with
  | .check c => checkOutcome (decideCheck c).probes
  | _ => .done

/-- The pending probes of a CHECK step decided (R136). -/
def decideEntry (e : InFlight) : InFlight :=
  match e.work with
  | .check c => { e with work := .check (decideCheck c) }
  | _ => e

/-- The end of a due CHECK step: its pending probes decided, its outcome reported (R136). -/
def endCheck (b : Bay) (i : Nat) (s : State) : State :=
  match findInFlight (s.bay b).run i with
  | none => s
  | some e =>
    match e.work with
    | .check c =>
      endStep b i (checkOutcome (decideCheck c).probes) (checkDetail c) (s.modInFlight b i decideEntry)
    | _ => s

/-- The CHECK steps whose end is due, but for the one named. -/
def dueBut (except_ : Option Nat) (r : RunEngine) : List InFlight :=
  r.inFlight.filter fun e => checkDue e && except_ ≠ some e.index

/-- The CHECK steps whose end is due, but for the one named; `stops` chooses those whose end stops the run. -/
def dueChecks (except_ : Option Nat) (stops : Bool) (r : RunEngine) : List Nat :=
  ((dueBut except_ r).filter fun e => endStops r e.index (dueOutcome e) == stops).map fun e => e.index

/-- The probes of the due CHECK steps, but of the one named, decided: the samples of the boundary were taken before
whatever follows at that event, and their decisions stand in the entries (R137). -/
def decideDue (b : Bay) (except_ : Option Nat) (s : State) : State :=
  forAll (dueBut except_ (s.bay b).run) (fun e t => t.modInFlight b e.index decideEntry) s

/-- A due CHECK end taken with all that follows it, if the step is still in flight (R50, R58). -/
def nextCheck (b : Bay) (i : Nat) (s : State) : State :=
  match findInFlight (s.bay b).run i with
  | none => s
  | some _ => afterEnds b (endCheck b i s)

/-- Due CHECK ends taken one after the other, each with all that follows it (R50). -/
def takeChecks (b : Bay) (steps : List Nat) (s : State) : State := forAll steps (nextCheck b) s

/-- An end at a boundary together with the CHECK ends due at that boundary, but for the step named. Each is taken with all
that follows it: the JOIN in flight and the walker test their conditions before the next (R34, R49, R50). An end that does
not stop the run is taken first, then the due CHECK ends that do not stop it, in the order in which the steps were started,
then the first of those that do, which ends the others CUT with their probes decided; an end that stops the run comes after
the due CHECK ends that do not. So no stop at that event ends a CHECK step CUT whose end is no stop (R56, R137). The order is
the model's choice (notes/assumptions/29.md, notes/assumptions/54.md). -/
def withChecks (b : Bay) (except_ : Option Nat) (stops : Bool) (f : State → State) (s : State) : State :=
  let r := (s.bay b).run
  let decided := decideDue b except_ s
  if stops then afterEnds b (f (takeChecks b (dueChecks except_ false r) decided))
  else takeChecks b (dueChecks except_ false r ++ dueChecks except_ true r) (afterEnds b (f decided))

/-- Every CHECK end that is due but that of the step named, those that do not stop the run first (R50, R56, R137). -/
def settleOthers (b : Bay) (except_ : Option Nat) (s : State) : State :=
  let r := (s.bay b).run
  takeChecks b (dueChecks except_ false r ++ dueChecks except_ true r) (decideDue b except_ s)

/-- The ends of CHECK steps decided at the last boundary: they were reported before a stop, an abort or a pause
at that event and are taken first (R137, R138). -/
def settleChecks (b : Bay) (s : State) : State := settleOthers b none s

/-- The end of a step that is still in flight, with what its block does at it (R50, R58). -/
def endInFlight (b : Bay) (i : Nat) (o : StepOutcome) (d : Detail) (block : State → State) (s : State) : State :=
  match findInFlight (s.bay b).run i with
  | none => s
  | some _ => endStep b i o d (block s)

/-- Whether a step is a CHECK whose own end is due. -/
def checkAtEnd (r : RunEngine) (i : Nat) : Bool := (findInFlight r i).any checkDue

/-- An end of a step that falls due at a boundary, other than by its own CHECK decision, with the due CHECK ends of that
boundary. An end that stops the run comes after every other due CHECK end, since those were reported first (R137); the
timeout of a CHECK step that is itself decided comes before those that stop the run, so that it is never CUT by them
(R52, R137). An end that does not stop the run comes first (notes/assumptions/54.md). -/
def endWithChecks (b : Bay) (i : Nat) (o : StepOutcome) (d : Detail) (block : State → State) (s : State) : State :=
  let r := (s.bay b).run
  if endStops r i o && !checkAtEnd r i then
    afterEnds b (endInFlight b i o d block (settleOthers b (some i) s))
  else withChecks b (some i) (endStops r i o) (endInFlight b i o d block) s

/-! ### Aborts and refusals (R22, R35, R37, R41, R44, R57) -/

/-- Whether a run is aborted in a state (R44). -/
def abortable : Phase → Bool
  | .loading | .checking | .arming | .running | .paused => true
  | .offline | .idle | .closing | .halted => false

/-- The entry to CLOSING by an abort. A cause that already waits in LOADING is the run's cause, and its request is
echoed once the abort has begun (R14, R35, R57); another request acted on meanwhile has been echoed before, and its echo
gives way to this one: the model's choice (notes/assumptions/19.md). -/
def abortNow (b : Bay) (cause : AbortCause) (s : State) : State :=
  let r := (s.bay b).run
  let first := (r.load.bind fun l => l.abort).getD cause
  let s1 := enterClosing b .aborted (.abort first) 0 (endAll r .aborted (.abort first) s.rackTime) s
  match r.load.bind fun l => l.echo with
  | some seq => echoBay b seq .done s1
  | none => s1

/-- An abort of the run in LOADING by request, key or bay disable waits for the read in progress (R35); in the
other states it takes effect at once (R44). -/
def abortRun (b : Bay) (cause : AbortCause) (s0 : State) : State :=
  let s := settleChecks b s0
  let y := s.bay b
  if !abortable y.phase then s
  else
    match y.phase, y.run.load with
    | .loading, some l =>
      s.modRun b fun r => { r with load := some { l with abort := some (l.abort.getD cause) } }
    | _, _ => abortNow b cause s

/-- EXCHANGE latched by a memory error on an access made for a bay that has a run (R22). -/
def latchExchange (b : Bay) (s : State) : State :=
  if abortable (s.bay b).phase || (s.bay b).phase = .closing then addLatched b exchangeBit s else s

/-- A memory error on an access made for a bay: EXCHANGE is latched, and a run that is still going on is aborted (R22,
R44). The set is latched before the due CHECK ends are taken, so a run that they end goes to HALTED too (R22, R23,
R137). So the write of the bay status block that the set triggers comes before the abort's: the model's choice
(notes/assumptions/62.md). -/
def exchangeFault (b : Bay) (s0 : State) : State :=
  let s := settleChecks b (latchExchange b s0)
  if abortable (s.bay b).phase then abortNow b .exchange s else s

/-- The ERROR result of the offending step of a refusal. The spec states no start time for it: the value is free
(notes/assumptions/7.md). Its probe entries are NONE with value 0, those of a CHECK step too: the model's choice
(notes/assumptions/65.md). -/
def errorResult (r : RunEngine) (i : Nat) (d : Detail) (free : Word32) (now : RackTime) : StepResult :=
  ⟨i, tagOf r i, .error, d, 0, 0, free, now, noProbes⟩

/-- A refusal of the run held (R37, R41). -/
def refuse (b : Bay) (cause : EndCause) (s : State) : State := enterClosing b .refused cause 0 [] s

/-- A refusal INVALID_RUN that concerns the header or setup (R37). -/
def refuseSetup (b : Bay) (s : State) : State := enterClosing b .refused .invalidRun 0xFF [] s

/-- A refusal INVALID_RUN that names a step (R37). -/
def refuseStep (b : Bay) (i : Nat) (d : Detail) (s : State) : State :=
  let x := errorResult (s.bay b).run i d (Config.freeWord s.freeIndex) s.rackTime
  enterClosing b .refused .invalidRun i [x] { s with freeIndex := s.freeIndex + 1 }

/-! ### RUNNING and PAUSED (R42, R43, R152 to R154, R158) -/

/-- The first entry to RUNNING of a run (R43, R204). -/
def enterRunning (b : Bay) (s : State) : State :=
  walk b (setPhase b .running (s.modBay b fun y =>
    { y with
      run := { y.run with startTime := s.rackTime, ran := true }
      panel := { y.panel with closeLid := false } }))

/-- A retry's bookkeeping: one more retry, its fault, and the off-time from 0 (R152, R154). -/
def retryAgain (c : Condition) (p : Supply) : Supply :=
  { p with retryCount := p.retryCount + 1, retryFault := some c, retry := .offTime 0 }

/-- The start of a retry from RUNNING (R152). The network's change to STOPPED triggers the bay status block before the bay
state changes: the model's choice (notes/assumptions/62.md). -/
def beginRetry (b : Bay) (c : Condition) (s : State) : State :=
  setPhase b .paused (switchOff b true (s.modSupply b (retryAgain c)))

/-- A further retry while PAUSED (R154). -/
def furtherRetry (b : Bay) (c : Condition) (s : State) : State :=
  switchOff b true (s.modSupply b (retryAgain c))

/-- A fault acted on as LATCH (R151). The latched-fault set changes, and triggers the bay status block, before the abort: the
model's choice (notes/assumptions/62.md). -/
def latchFault (b : Bay) (c : Condition) (s : State) : State :=
  abortRun b (condCause c) (addLatched b (condBit c) s)

/-- A fault acted on as REPORT (R155). -/
def reportFault (b : Bay) (c : Condition) (s : State) : State :=
  (addReported b (condBit c) s).modRun b fun r =>
    { r with inFlight := r.inFlight.map fun e => { e with reported := e.reported ||| condBit c } }

/-- The supply monitor at a retry's success (R153); the retry fault goes with the retry (notes/assumptions/48.md). -/
def settledSupply (p : Supply) : Supply :=
  { p with
    armed := true
    retry := .none
    retryFault := none
    settle := p.settle.map fun j => { j with count := 0 } }

/-- The CHECK steps in flight restart (R139). -/
def restartChecks (r : RunEngine) : RunEngine :=
  { r with inFlight := r.inFlight.map fun e =>
      match e.work with
      | .check c => { e with work := .check (restartCheck c) }
      | _ => e }

/-- The return from PAUSED to RUNNING at a retry's success (R43, R90, R139, R146, R153). The writes of the bay status block
are triggered before ALERT is set with its interrupt message: the model's choice (notes/assumptions/41.md). The bay state
changes before the network, and each triggers: the model's choice (notes/assumptions/62.md). -/
def retrySettled (b : Bay) (s : State) : State :=
  let s1 := (s.modSupply b settledSupply).modRun b restartChecks
  let s2 := endSafe b (setPhase b .running s1)
  walk b (setEvent (alertBit b) s2)

/-- The supply is switched on for a retry's settle (R153). -/
def retrySwitchOn (p : Supply) : Supply := { p with on := true, retry := .settling 0 }

/-! ### Recognized conditions (R150 to R157) -/

/-- Whether a fault is latched when acted on in RUNNING or PAUSED: mode LATCH, RETRY on LID_OPEN, or a RETRY at
the maximum (R150 to R152, R154). -/
def actsAsLatch (p : Supply) (c : Condition) : Bool :=
  match condGet p.setup.modes c with
  | .latch => true
  | .retry => c = .lidOpen || p.setup.retryMax ≤ p.retryCount
  | .report | .off => false

/-- A recognized condition acted on by its mode and the bay state (R150, R157). -/
def actOn (b : Bay) (c : Condition) (s : State) : State :=
  let y := s.bay b
  let s1 := s.modSupply b fun p =>
    { p with watches := condSet p.watches c { condGet p.watches c with pending := false } }
  match y.phase, condGet y.supply.setup.modes c with
  | .running, .report | .paused, .report | .arming, .report => reportFault b c s1
  | .running, .off | .paused, .off | .arming, .off => s1
  | .running, _ => if actsAsLatch y.supply c then latchFault b c s1 else beginRetry b c s1
  | .paused, _ => if actsAsLatch y.supply c then latchFault b c s1 else furtherRetry b c s1
  | .arming, _ => latchFault b c s1
  | _, _ => settlePending b c s

/-- The recognition of a condition that has not been acted on yet; the ends of CHECK steps at that boundary come
first (R138, R149). -/
def recognize (b : Bay) (c : Condition) (s0 : State) : State :=
  let s := settleChecks b s0
  if (condGet (s.bay b).supply.watches c).pending then actOn b c s else s

end Sys2Proof.Machine
end

