-- ==== Sys2Proof/Machine/Panel.lean ====
section
/-! DEFINITION. Machine/Panel.lean: the keys, the attention line and the ends of the panel's transactions
(R200 to R208), and the meanings of the panel's commands. -/

namespace Sys2Proof.Machine

open Sys2Proof

/-! ### Keys (R202 to R204, R207) -/

/-- The head prompt, when it is ARMED and the bay is RUNNING. -/
def armedPrompt (y : BayState) : Option Prompt :=
  match y.phase, y.panel.prompts with
  | .running, q :: _ => if q.state = .armed then some q else none
  | _, _ => none

/-- The end of a prompt with its step's outcome (R206 to R208). -/
def endPrompt (b : Bay) (i : Nat) (o : StepOutcome) (d : Detail) (s : State) : State :=
  takeEnd b i o d (s.modPanel b (takePrompt i))

/-- A YES key (R203). -/
def keyYes (b : Bay) (s0 : State) : State :=
  let s := settleChecks b s0
  match armedPrompt (s.bay b) with
  | none => s
  | some q =>
    match q.form with
    | .ask => endPrompt b q.step .pass .none s
    | .ack => endPrompt b q.step .done .none s
    | .note => s

/-- A NO key (R203). -/
def keyNo (b : Bay) (s0 : State) : State :=
  let s := settleChecks b s0
  match armedPrompt (s.bay b) with
  | none => s
  | some q =>
    match q.form with
    | .ask => endPrompt b q.step .fail .none s
    | .ack | .note => s

/-- A START key (R42, R203, R204). -/
def keyStart (b : Bay) (s : State) : State :=
  let y := s.bay b
  if y.phase = .arming then
    if y.supply.lidOpen then wantText b .closeLid (s.modPanel b fun p => { p with closeLid := true })
    else enterRunning b s
  else s

/-- An ABORT key (R44, R203). -/
def keyAbort (b : Bay) (s : State) : State := abortRun b .operator s

/-- A key byte acted on (R202, R203). -/
def actKey (b : Bay) (key : Byte) (s : State) : State :=
  if key = 1 then keyYes b s
  else if key = 2 then keyNo b s
  else if key = 3 then keyStart b s
  else if key = 4 then keyAbort b s
  else s

/-! ### The ends of the panel's transactions (R200, R201, R206, R208, R212) -/

/-- The end of a key read (R201, R202). The key is acted on before the next key read is requested, so a request of its own,
such as that of the next prompt's text, stands first in the queue: the model's choice (notes/assumptions/51.md). -/
def keyEnded (b : Bay) (o : BusOutcome) (data : List Byte) (s : State) : State :=
  if o = .done then
    pollKeys b (actKey b (data.headD 0) (s.modPanel b fun p => { p with keyRead := .none }))
  else s.modPanel b fun p => { p with keyRead := .waitBoundary }

/-- Part 4 of CLOSING looked at again when one of its writes has ended (R212). -/
def closingPanelAgain (b : Bay) (s : State) : State :=
  if (s.bay b).phase = .closing && (s.bay b).run.closing = .panel then closingPanelDone b s else s

/-- The end of a lamp write (R200, R212). -/
def lampEnded (b : Bay) (o : BusOutcome) (s : State) : State :=
  closingPanelAgain b (lampOver b (if o = .done then s else flagLampFailed b s))

/-- The prompt of a step whose display write has ended DONE: armed, and a NOTE ended (R206). -/
def armPrompt (b : Bay) (q : Prompt) (s : State) : State :=
  match q.form with
  | .note => endPrompt b q.step .done .none (settleChecks b s)
  | .ask | .ack => pumpDisplay b (s.modPanel b (markPrompt q.step fun x =>
      { x with
        state := .armed
        remaining := if x.timeout = 0 then none else some x.timeout
        armedAt := some s.rackTime }))

/-- The prompt that a display write belongs to, if it is still in the queue. -/
def writingPrompt (p : Panel) (i : Nat) : Option Prompt := p.prompts.find? fun q => q.step = i && q.state = .writing

/-- The end of a display write (R198, R206, R208, R212). -/
def displayEnded (b : Bay) (purpose : DisplayPurpose) (o : BusOutcome) (s0 : State) : State :=
  let s := s0.modPanel b fun p => { p with display := none }
  match purpose with
  | .fixed _ => afterEnds b (settleChecks b s)
  | .verdictText => closingPanelAgain b (if o = .done then s else flagLampFailed b s)
  | .prompt i =>
    match writingPrompt (s.bay b).panel i with
    | none => afterEnds b (settleChecks b s)
    | some q =>
      if o = .done then armPrompt b q s
      else endPrompt b i .error (.bus o) (settleChecks b s)

/-! ### Meanings -/

/-- The attention line goes to a level; asserted, it asks for a key read (R201). While a part reset is in
progress the pin changes and nothing is requested (R4). -/
def attentionTo (b : Bay) (level : Bool) (s : State) : State :=
  let s1 := s.modPanel b fun p => { p with attention := level }
  if s.xu.resetting then s1 else pollKeys b s1

/-- ATTENTION_ASSERTED (R201). -/
def execAttentionAsserted (b : Bay) (s : State) : Host.Outcome State Fault Refusal := .next (attentionTo b true s)

/-- KEY_YES (R203). -/
def execKeyYes (b : Bay) (s : State) : Host.Outcome State Fault Refusal := .next (whenUp (keyYes b) s)

/-- KEY_NO (R203). -/
def execKeyNo (b : Bay) (s : State) : Host.Outcome State Fault Refusal := .next (whenUp (keyNo b) s)

/-- KEY_START (R42). -/
def execKeyStart (b : Bay) (s : State) : Host.Outcome State Fault Refusal := .next (whenUp (keyStart b) s)

/-- KEY_ABORT (R203). -/
def execKeyAbort (b : Bay) (s : State) : Host.Outcome State Fault Refusal := .next (whenUp (keyAbort b) s)

/-- The ARMED prompt whose remaining answer timeout is 0 (R206). -/
def unanswered (y : BayState) : Option Prompt :=
  y.panel.prompts.find? fun q => q.state = .armed && q.remaining = some 0

/-- The expiry of the answer timeout (R207). -/
def noAnswerDue (b : Bay) (s : State) : State :=
  match unanswered (s.bay b) with
  | none => s
  | some q => endWithChecks b q.step .noAnswer .none (fun t => t.modPanel b (takePrompt q.step)) s

/-- NO_ANSWER (R207). -/
def execNoAnswer (b : Bay) (s : State) : Host.Outcome State Fault Refusal := .next (whenUp (noAnswerDue b) s)

end Sys2Proof.Machine
end

