-- ==== Sys2Proof/Machine/FixtureBus.lean ====
section
/-! DEFINITION. Machine/FixtureBus.lean: the fixture check, the outcomes handed to their owners, the bus states and
the meanings of the fixture bus commands (chapters 7 and 8). -/

namespace Sys2Proof.Machine

open Sys2Proof

/-! ### The fixture check (R41, R184 to R186) -/

/-- The bay enters ARMING: PRESS START is asked for (R41, R211). The state changes, and triggers the bay status block, before
the request, so a block issued then does not count its entry: the model's choice (notes/assumptions/66.md). -/
def enterArming (b : Bay) (s : State) : State := wantText b .pressStart (setPhase b .arming s)

/-- A passed fixture check (R41). -/
def checkPassed (b : Bay) (s : State) : State :=
  let y := s.bay b
  if runOption y.run (fun h => h.waitStart) then enterArming b s
  else if y.supply.lidOpen then refuse b (.abort .lidOpen) s
  else enterRunning b s

/-- The judgement of the ident values (R184): none for passed. -/
def checkVerdict (r : RunEngine) (x : Ident) : Option EndCause :=
  if runOption r (fun h => h.fixtureType ≠ 0 && h.fixtureType ≠ x.typeCode) then some .fixtureMismatch
  else if x.limit ≠ 0 && x.limit.toNat ≤ x.cycles.toNat && !runOption r (fun h => h.ignoreService) then
    some .serviceDue
  else none

/-- The ident values of a read that ended DONE taken (R184, R185). -/
def takeIdentValues (b : Bay) (x : Ident) (s : State) : State :=
  (s.modRun b fun r => { r with ident := some x, cycleAfter := x.cycles }).modStatus b fun t =>
    { t with identType := x.typeCode, identSerial := x.serial, identCycles := x.cycles }

/-- The ident read's outcome reaches the fixture check; out of CHECKING it is discarded (R184, R186). -/
def takeIdent (b : Bay) (o : BusOutcome) (data : List Byte) (s0 : State) : State :=
  let s := s0.modRun b fun r => { r with identMark := false }
  if (s.bay b).phase ≠ .checking then s
  else if o ≠ .done then refuse b .fixtureBus s
  else
    let x := parseIdent data
    let s1 := takeIdentValues b x s
    match checkVerdict (s1.bay b).run x with
    | some cause => refuse b cause s1
    | none => checkPassed b s1

/-- The fixture check asked for at the entry to CHECKING (R40, R183). -/
def askIdent (b : Bay) (s0 : State) : State :=
  let s := s0.modRun b fun r => { r with identMark := true }
  match busRequest (newEntry b .fixtureCheck 0 (.read 14) 0) s with
  | some t => t
  | none => takeIdent b .busFailed [] s

/-! ### Outcomes handed to their owners (R169) -/

/-- The outcome of a FIXTURE step's entry (R192, R193). -/
def fixtureEnd (write : Bool) (expected mask : List Byte) (o : BusOutcome) (data : List Byte) :
    StepOutcome × Detail :=
  if o ≠ .done then (.error, .bus o)
  else if write then (.done, .none)
  else if maskedMatch expected mask data then (.pass, .none)
  else (.fail, .mismatch)

/-- A FIXTURE step in flight takes its entry's outcome; otherwise it is discarded (R58, R169). -/
def fixtureStepEnded (b : Bay) (i : Nat) (o : BusOutcome) (data : List Byte) (s0 : State) : State :=
  let s := settleChecks b s0
  match findInFlight (s.bay b).run i with
  | none => s
  | some e =>
    match e.work with
    | .fixture write expected mask =>
      let r := fixtureEnd write expected mask o data
      takeEnd b i r.1 r.2 s
    | _ => s

/-- The cycle-count write's outcome, while CLOSING waits for it (R188). -/
def cycleCountEnded (b : Bay) (o : BusOutcome) (s : State) : State :=
  if (s.bay b).phase = .closing && (s.bay b).run.closing = .cycle then cycleEnded b o s else s

/-- An entry's outcome handed to its owner (R169). -/
def deliver (e : BusEntry) (o : BusOutcome) (data : List Byte) (s : State) : State :=
  match e.owner with
  | .fixtureCheck => takeIdent e.bay o data s
  | .cycleCount => cycleCountEnded e.bay o s
  | .step i => fixtureStepEnded e.bay i o data s
  | .display p => displayEnded e.bay p o s
  | .lamp => lampEnded e.bay o s
  | .key => keyEnded e.bay o data s

/-- The head entry ends: it leaves the queue, its outcome goes to its owner, the held list is served and the
bay's status block written; then a CLOSING that waited for it goes on (R166, R167, R169). So the cycle-count write of that
CLOSING is requested after the held requests that are admitted there: the model's choice (notes/assumptions/32.md). -/
def endHead (o : BusOutcome) (data : List Byte) (s : State) : State :=
  match s.bus.queue with
  | [] => s
  | e :: rest =>
    let s1 := s.modBus fun u => { u with queue := rest, onBus := false }
    closingRelease e.bay (triggerBay e.bay (serveHeld (deliver e o data s1)))

/-! ### FAILED (R177) -/

/-- The oldest entry of the queue, or else the oldest held request, ends BUS_FAILED and its outcome is handed to its owner
before the next one ends, which takes it in its turn even where this one moves their bay into CLOSING: the model's choice
(notes/assumptions/61.md). -/
def failOldest (s : State) : State :=
  match s.bus.queue, s.bus.held with
  | e :: rest, _ =>
    let s1 := s.modBus fun u => { u with queue := rest, onBus := false }
    closingRelease e.bay (triggerBay e.bay (deliver e .busFailed [] s1))
  | [], e :: rest =>
    let s1 := s.modBus fun u => { u with held := rest }
    closingRelease e.bay (deliver e .busFailed [] s1)
  | [], [] => s

/-- Every entry of the queue and every held request ends BUS_FAILED, oldest first (R177). None leaves in another way and none
joins meanwhile, so as many ends as there are entries and held requests are all of them. -/
def failAll : Nat → State → State
  | 0, s => s
  | fuel + 1, s => failAll fuel (failOldest s)

/-- The bus enters FAILED with a cause (R177). The write of the rack status block is triggered first, before BUSFAIL is
set with its interrupt message and before the entries end, so a write issued then stands before the message in the stream
and shows the queue as it stood: the model's choice (notes/assumptions/41.md). -/
def enterFailed (cause : BusCause) (s : State) : State :=
  let s1 := s.modBus fun u => { u with cause := cause, onBus := false, waitScl := none }
  let s2 := setEvent busfailBit (setBusState .failed s1)
  failAll (s2.bus.queue.length + s2.bus.held.length) s2

/-! ### IDLE and BUSY_OTHER (R171, R172) -/

/-- The count of 35 ms and the free time start again now. -/
def restartCounts (s : State) : State := s.modBus fun u => { u with countsFrom := s.rackTime }

/-- Whether 35 ms have passed since the counts last started (R171, R172). -/
def counted35 (s : State) : Bool := 35 ≤ (s.rackTime - s.bus.countsFrom).toNat

/-- IDLE entered; SCL found low then makes the bus BUSY_OTHER (R171). -/
def enterIdle (s : State) : State :=
  let s1 := restartCounts (setBusState .idle s)
  if s1.bus.scl then s1 else setBusState .busyOther s1

/-- Another master's START or clock seen (R171). -/
def enterBusyOther (s : State) : State := restartCounts (setBusState .busyOther s)

/-- The lines as they now read. -/
def setLines (scl sda : Bool) (u : Bus) : Bus := { u with scl := scl, sda := sda }

/-- One more loss on the head entry: off the bus, and the third loss ends it LOST (R173). -/
def loseHead (s : State) : State :=
  match s.bus.queue with
  | [] => s
  | e :: rest =>
    if 3 ≤ e.losses + 1 then endHead .lost [] (s.modBus fun u => { u with onBus := false })
    else s.modBus fun u => { u with queue := { e with losses := e.losses + 1 } :: rest, onBus := false }

/-! ### Meanings -/

/-- Whether the head entry can be begun (R167). -/
def canBegin (u : Bus) : Bool := u.state = .idle && !u.onBus && u.scl && u.sda && !u.queue.isEmpty

/-- The head entry is begun (R160, R167). -/
def beginHead (s : State) : State :=
  match s.bus.queue with
  | [] => s
  | e :: rest =>
    setBusState .active (s.modBus fun u =>
      { u with queue := { e with started := true } :: rest, onBus := true, wire := wireBytes e, fastInUse := u.fast })

/-- TRANSACTION_BEGIN (R167). -/
def execTransactionBegin (s : State) : Host.Outcome State Fault Refusal :=
  .next (whenUp (whenever (canBegin s.bus) beginHead) s)

/-- Whether a transaction is on the bus. -/
def transacting (u : Bus) : Bool := u.state = .active && u.onBus && u.waitScl.isNone

/-- The attention line's level at the end of a key read (R196, R201). -/
def keyAttention (e : BusEntry) (level : Bool) (s : State) : State :=
  if e.owner = .key then s.modPanel e.bay fun p => { p with attention := level } else s

/-- The bytes that the part has sent in a transaction: no further one after a refused byte (R163, R164). -/
def bytesSent (refused : Option Nat) (wire : List Byte) : List Byte :=
  match refused with
  | none => wire
  | some i => wire.take (i + 1)

/-- The STOP of the transaction on the bus is complete: its outcome is taken and the bus is IDLE (R163, R164,
R167). -/
def stopHead (refused : Option Nat) (data : List Byte) (attention : Bool) (s : State) : State :=
  match s.bus.queue with
  | [] => s
  | e :: _ =>
    let o := transactionOutcome e refused
    let s1 := keyAttention e attention
      (s.modBus fun u => { setLines true true u with wire := bytesSent refused u.wire })
    enterIdle (endHead o (if o = .done then transactionData e data else []) s1)

/-- TRANSACTION_END (R169). -/
def execTransactionEnd (refused : Option Nat) (data : List Byte) (attention : Bool) (s : State) :
    Host.Outcome State Fault Refusal :=
  .next (whenUp (whenever (transacting s.bus) (stopHead refused data attention)) s)

/-- The transaction on the bus is cut short: the part sends nothing after the bytes sent by then. How many whole bytes
those are depends on the other devices of the bus, and the command does not carry it: the number is free (R165, R173;
notes/assumptions/47.md). -/
def cutShort (s : State) : State :=
  { s with
    freeIndex := s.freeIndex + 1
    bus := { s.bus with onBus := false, wire := s.bus.wire.take (Config.freeWord s.freeIndex).toNat } }

/-- The end of a transaction whose clock has been held 25 ms (R165). -/
def stretchOut (s : State) : State :=
  endHead .timeout [] ((cutShort s).modBus fun u =>
    { u with cause := .stretchTimeout, waitScl := some s.rackTime, scl := false })

/-- STRETCH_TIMEOUT (R165). -/
def execStretchTimeout (s : State) : Host.Outcome State Fault Refusal :=
  .next (whenUp (whenever (transacting s.bus) stretchOut) s)

/-- SCL rises after a TIMEOUT (R165). -/
def sclRise (sda : Bool) (s : State) : State :=
  enterIdle (s.modBus fun u => { setLines true sda u with waitScl := none })

/-- SCL_RISE_AFTER_TIMEOUT (R165). -/
def execSclRiseAfterTimeout (sda : Bool) (s : State) : Host.Outcome State Fault Refusal :=
  .next (whenUp (whenever s.bus.waitScl.isSome (sclRise sda)) s)

/-- Whether the part has waited 25 ms for SCL since it released both lines after a TIMEOUT (R165). -/
def sclHeldOver (s : State) : Bool :=
  match s.bus.waitScl with
  | none => false
  | some t => 25 ≤ (s.rackTime - t).toNat

/-- SCL_HELD (R165, R177). -/
def execSclHeld (s : State) : Host.Outcome State Fault Refusal :=
  .next (whenUp (whenever (sclHeldOver s) (enterFailed .sclHeld)) s)

/-- The part loses arbitration: another master holds the bus, SDA reading low with SCL high, and the part sends nothing
further (R173). The write of the rack status block is triggered before a third loss takes the entry from the queue: the
model's choice (notes/assumptions/41.md). -/
def loseArbitration (s : State) : State :=
  loseHead (enterBusyOther ((cutShort s).modBus (setLines true false)))

/-- ARBITRATION_LOST (R173). -/
def execArbitrationLost (s : State) : Host.Outcome State Fault Refusal :=
  .next (whenUp (whenever (transacting s.bus) loseArbitration) s)

/-- Another master's START, or a fall of SCL, in IDLE; a START that meets the part's own attempt counts as a loss
of the head entry (R171, R174). -/
def otherStart (sclFell meetsOwnStart : Bool) (s : State) : State :=
  let own := meetsOwnStart && !sclFell && canBegin s.bus
  let s1 := enterBusyOther (s.modBus fun u => if sclFell then { u with scl := false } else { u with sda := false })
  if own then loseHead s1 else s1

/-- OTHER_MASTER_START (R171). -/
def execOtherMasterStart (sclFell meetsOwnStart : Bool) (s : State) : Host.Outcome State Fault Refusal :=
  .next (whenUp (whenever (s.bus.state = .idle) (otherStart sclFell meetsOwnStart)) s)

/-- A STOP in BUSY_OTHER (R172). -/
def otherStop (s : State) : State := enterIdle (s.modBus (setLines true true))

/-- OTHER_MASTER_STOP (R172). -/
def execOtherMasterStop (s : State) : Host.Outcome State Fault Refusal :=
  .next (whenUp (whenever (s.bus.state = .busyOther) otherStop) s)

/-- The end of BUSY_OTHER by the lines as they read (R172). -/
def busyOver (s : State) : State := if s.bus.scl then enterIdle s else enterFailed .sclHeld s

/-- BUSY_OTHER_TIMEOUT (R172). -/
def execBusyOtherTimeout (s : State) : Host.Outcome State Fault Refusal :=
  .next (whenUp (whenever (s.bus.state = .busyOther && counted35 s) busyOver) s)

/-- The condition of R171 under which a held data line is recovered, at 35 ms (R175). -/
def sdaHeld (s : State) : Bool :=
  s.bus.state = .idle && !s.bus.queue.isEmpty && s.bus.scl && !s.bus.sda && counted35 s

/-- A recovery begins (R175, R176, R178). -/
def beginRecovery (s : State) : State :=
  setBusState .recovering (s.modBus fun u => { u with fastInUse := u.fast })

/-- SDA_HELD_TIMEOUT (R175). -/
def execSdaHeldTimeout (s : State) : Host.Outcome State Fault Refusal :=
  .next (whenUp (whenever (sdaHeld s) beginRecovery) s)

/-- Whether the readings of a recovery bring it to its STOP: SDA high at the first reading or after one of at
most 9 pulses (R176). -/
def sdaFreed (readings : List Bool) : Bool := (readings.take 10).any fun x => x

/-- The end of a recovery (R176 to R178). -/
def recoveryOver (readings : List Bool) (afterStop : Bool) (s : State) : State :=
  if sdaFreed readings && afterStop then
    enterIdle (s.modBus fun u => { setLines true true u with recovery := .recovered })
  else enterFailed .sdaStuck (s.modBus fun u => { setLines true false u with recovery := .stillFailed })

/-- RECOVERY_END (R176). -/
def execRecoveryEnd (readings : List Bool) (afterStop : Bool) (s : State) : Host.Outcome State Fault Refusal :=
  .next (whenUp (whenever (s.bus.state = .recovering) (recoveryOver readings afterStop)) s)

/-- A recovery failed by SCL held low (R176). -/
def recoveryHeld (s : State) : State :=
  enterFailed .sclHeld (s.modBus fun u => { u with scl := false, recovery := .stillFailed })

/-- RECOVERY_SCL_TIMEOUT (R176). -/
def execRecoverySclTimeout (s : State) : Host.Outcome State Fault Refusal :=
  .next (whenUp (whenever (s.bus.state = .recovering) recoveryHeld) s)

/-- What a change of the lines is to the part, by the bus state (R165, R171, R172, R176, R177). Levels equal to those held
are no change, and nothing is counted anew (notes/assumptions/2.md). -/
def lineChange (scl sda : Bool) (s : State) : State :=
  let old := s.bus
  let s1 := restartCounts (s.modBus (setLines scl sda))
  if scl = old.scl && sda = old.sda then s
  else match old.state with
  | .idle => if old.scl && (!scl || (old.sda && !sda)) then enterBusyOther s1 else s1
  | .busyOther => if old.scl && scl && !old.sda && sda then enterIdle s1 else s1
  | .active => if old.waitScl.isSome && scl then sclRise sda s1 else s1
  | .recovering | .failed => s1

/-- FIXTURE_BUS_LINE_CHANGE (R172). While a part reset is in progress the lines change and nothing else. -/
def execFixtureBusLineChange (scl sda : Bool) (s : State) : Host.Outcome State Fault Refusal :=
  .next (if s.xu.resetting then s.modBus (setLines scl sda) else lineChange scl sda s)

end Sys2Proof.Machine
end

