-- ==== Sys2Proof/Machine/Loading.lean ====
section
/-! DEFINITION. Machine/Loading.lean: the take of a slot, the reads of LOADING and the validation of a run (R27,
R29, R30, R35 to R40, R142, R210). -/

namespace Sys2Proof.Machine

open Sys2Proof

/-! ### The take (R39, R142, R210) -/

/-- The run engine at a take (R39). -/
def runAtTake (x : Slot) (now : RackTime) (header : ReadIssue) (r : RunEngine) : RunEngine :=
  { r with
    slot := some x
    lastTaken := some x
    load := some ⟨.header, header, none, none⟩
    copy := RunCopy.empty
    next := 0
    inFlight := []
    claims := Vector.replicate 14 none
    results := []
    takeTime := now
    startTime := 0
    endTime := 0
    ran := false
    verdict := none
    cause := .none
    offending := 0
    lost := false
    identMark := false
    ident := none
    cycleAfter := 0
    closing := .none }

/-- The flags of the bay status block cleared at a take (R39). -/
def statusAtTake (t : BayStatus) : BayStatus := { t with runLost := false, cycleFailed := false, lampFailed := false }

/-- The take of a slot: the ACTIVE write, the bay's items at the take, the lamps and the display, and the entry
to LOADING with the read of the header (R9, R39, R142, R210). The reported-fault set emptied here triggers no write of the
bay status block beside that of the change of state; a waiting slot taken is emptied before the state changes, and each of
the two triggers, so a block issued at the first still shows IDLE: the model's choice (notes/assumptions/55.md). -/
def take (b : Bay) (x : Slot) (s : State) : State :=
  let s1 := writeArea (.active b) (slotOffset b x) (leBytes 4 2) s
  let s2 := s1.modBay b fun y =>
    { y with
      run := runAtTake x s.rackTime (readAt (slotOffset b x + loadOffset .header) s) y.run
      supply := supplyAtTake y.supply
      status := statusAtTake y.status }
  let s3 := if (s2.bay b).xu.waiting = some x then setWaiting b none s2 else s2
  setPhase b .loading (wantText b .clear (wantLamp b 0x00 s3))

/-! ### The reads of LOADING (R35) -/

/-- The reads that follow the header, in order (R35). -/
def loadReads (h : Header) : List LoadRead :=
  (if h.hasStimulus then [.stimulus] else []) ++ (if h.hasSchedule then [.schedule] else [])
    ++ (if h.hasTaps then [.taps] else []) ++ (if h.hasSupervision then [.supervision] else [])
    ++ (List.range h.stepCount).map .record ++ [.text]

/-- The read that follows a read. -/
def readAfter (x : LoadRead) : List LoadRead → Option LoadRead
  | [] => none
  | y :: rest => if y = x then rest.head? else readAfter x rest

/-- The read after the one in progress. -/
def nextRead (h : Header) (x : LoadRead) : Option LoadRead := readAfter x (.header :: loadReads h)

/-- What a completed read adds to the run engine's copy (R29). -/
def storeRead (x : LoadRead) (data : List Byte) (c : RunCopy) : RunCopy :=
  match x with
  | .header => { c with header := some (parseHeader data) }
  | .stimulus => { c with stimulus := data }
  | .schedule => { c with schedule := data }
  | .taps => { c with taps := data }
  | .supervision => { c with supervision := data }
  | .record _ => { c with records := c.records ++ [data] }
  | .text => { c with text := data }

/-! ### Validation and the setup load (R30, R36, R37, R40) -/

/-- A setup part as it would stand after R30: the present part as read, none when one of its checks fails; or
the part as the bay holds it. -/
def partAfter {α : Type} (present : Bool) (read : Option α) (held : α) : Option α :=
  if present then read else some held

/-- The setup of a run as it would stand: the parts checked one by one and against each other; none refuses the
run (R36). -/
def setupAfter (h : Header) (y : BayState) : Option (StimSetup × SchedSetup × Vector TapSetup 8 × Supervision) :=
  let c := y.run.copy
  match partAfter h.hasStimulus (parseStimulus c.stimulus) y.stim.setup,
      partAfter h.hasSchedule (parseSchedule c.schedule) y.net.setup,
      partAfter h.hasTaps (parseTaps c.taps) (tabMap (fun _ t => t.setup) y.net.taps),
      partAfter h.hasSupervision (parseSupervision c.supervision) y.supply.setup with
  | some stim, some sched, some taps, some sup =>
    if setupConsistent stim sched then some (stim, sched, taps, sup) else none
  | _, _, _, _ => none

/-- The setup parts that a valid run carries loaded, and the working parts of its schedule set (R30, R66, R96,
R113, R143). -/
def loadSetup (h : Header) (x : StimSetup × SchedSetup × Vector TapSetup 8 × Supervision) (y : BayState) : BayState :=
  let stim := if h.hasStimulus then loadStimulus x.1 y.stim else y.stim
  let net1 := if h.hasSchedule then { y.net with setup := x.2.1 } else y.net
  let net2 := if h.hasTaps then loadTaps x.2.2.1 net1 else net1
  { y with
    stim := stim
    net := setWorkingParts net2
    supply := if h.hasSupervision then loadSupervision x.2.2.2 y.supply else y.supply }

/-- A valid run leaves LOADING: its setup loaded, its steps kept, CHECKING entered and the fixture check asked for
(R30, R40, R183). -/
def loadValid (b : Bay) (h : Header) (x : StimSetup × SchedSetup × Vector TapSetup 8 × Supervision)
    (steps : List Step) (s : State) : State :=
  let s1 := s.modBay b (loadSetup h x)
  let s2 := s1.modRun b fun r => { r with load := none, copy := { r.copy with steps := steps } }
  askIdent b (setPhase b .checking s2)

/-- Validation, at the event of the last read (R35, R36). -/
def validate (b : Bay) (h : Header) (s : State) : State :=
  let y := s.bay b
  if !(textOffsetValid h.passText && textOffsetValid h.failText) then refuseSetup b s
  else
    match setupAfter h y with
    | none => refuseSetup b s
    | some x =>
      match parseSteps y.run.copy.text 0 y.run.copy.records with
      | .error e => refuseStep b e.1 e.2 s
      | .ok steps => loadValid b h x steps s

/-- The next read of LOADING issued, in the slot held (R2, R20, R35). -/
def issueRead (b : Bay) (x : LoadRead) (s : State) : State :=
  s.modRun b fun r => { r with load := some ⟨x, readAt (heldOffset b r + loadOffset x) s, none, none⟩ }

/-- What follows a completed read: the next read, a refusal for an invalid step count, or validation (R35). -/
def afterRead (b : Bay) (x : LoadRead) (s : State) : State :=
  match (s.bay b).run.copy.header with
  | none => s
  | some h =>
    if !stepCountValid h then refuseSetup b s
    else
      match nextRead h x with
      | some next => issueRead b next s
      | none => validate b h s

/-- The run label set when the header read completes (R39). -/
def takeLabel (b : Bay) (x : LoadRead) (data : List Byte) (s : State) : State :=
  if x = .header then s.modStatus b fun t => { t with label := (parseHeader data).label } else s

/-- A read of LOADING completes; an abort that has waited for it is taken now (R35). -/
def readDone (b : Bay) (l : Loading) (data : List Byte) (s : State) : State :=
  let s1 := takeLabel b l.read data (s.modRun b fun r => { r with copy := storeRead l.read data r.copy })
  match l.abort with
  | some cause => abortNow b cause s1
  | none => afterRead b l.read s1

/-- The read of LOADING outstanding. -/
def loadingOf (y : BayState) : Option Loading := if y.phase = .loading then y.run.load else none

/-! ### Meanings -/

/-- LOADING_READ_COMPLETE (R35). -/
def execLoadingReadComplete (b : Bay) (data : List Byte) (s : State) : Host.Outcome State Fault Refusal :=
  .next (whenUp (fun t =>
    match loadingOf (t.bay b) with
    | some l => readDone b l data t
    | none => t) s)

end Sys2Proof.Machine
end

