-- ==== Sys2Proof/Machine/Scan.lean ====
section
/-! DEFINITION. Machine/Scan.lean: the scan pass, the requests and their echoes, the withdrawal, the back-to-back
read, and memory errors (R7 to R23), with their meanings. -/

namespace Sys2Proof.Machine

open Sys2Proof

/-! ### The pass (R7, R8) -/

/-- A pass begins with the read of the rack command block (R8). -/
def startPass (s : State) : State :=
  s.modXu fun x => { x with pass := some ⟨.rackBlock, readAt (passOffset .rackBlock) s, false, [], [], false, false⟩ }

/-- The end of a pass; a pass marked to follow starts at once (R7). -/
def endPass (s : State) : State :=
  let s1 := s.modXu fun x => { x with pass := none, follow := false }
  if s.xu.follow && s.xu.run then startPass s1 else s1

/-- The pass in progress changed. -/
def modPass (f : Pass → Pass) (s : State) : State := s.modXu fun x => { x with pass := x.pass.map f }

/-- The pass issues its next read (R2, R8, R20). -/
def passRead (r : PassRead) (s : State) : State :=
  modPass (fun p => { p with read := r, issue := readAt (passOffset r) s, waits := false }) s

/-- The first enabled bay of a list. -/
def firstEnabled (bays : List Bay) (s : State) : Option Bay := bays.find? fun b => (s.bay b).xu.enabled

/-- The pass goes on to the next enabled bay, or ends; one whose CTRL.RUN has been cleared ends (R3, R8). -/
def passBay (bays : List Bay) (s : State) : State :=
  if (s.xu.pass.map fun p => p.ending).getD false then endPass s
  else
    match firstEnabled bays s with
    | none => endPass s
    | some b => passRead (.bayBlock b) (modPass (fun p => { p with posted := [], discard := false }) s)

/-- The pass goes on to one of the present bay's ownership words, or ends with CTRL.RUN cleared (R3, R8). -/
def passWord (b : Bay) (x : Slot) (second : Bool) (s : State) : State :=
  if (s.xu.pass.map fun p => p.ending).getD false then endPass s else passRead (.word b x second) s

/-- The pass reads the first ownership word of a bay, its next slot's. -/
def passFirstWord (b : Bay) (s : State) : State := passWord b (s.bay b).xu.next false s

/-- The read that follows a read of the pass, issued (R8). -/
def passAfter (r : PassRead) (s : State) : State :=
  match r with
  | .rackBlock => passBay allBays s
  | .bayBlock b => passFirstWord b s
  | .word b x false => passWord b (otherSlot x) true s
  | .word b _ true => passBay (baysAfter b) s

/-- Whether a withdrawal is waiting for its read in some bay. -/
def withdrawing (s : State) : Bool := allBays.any fun b => (s.bay b).xu.withdrawal.isSome

/-- The pass goes on after a read that has been acted on: with its next read, which waits for the end of a withdrawal
begun by a request (R8, R13, R15). -/
def passOn (r : PassRead) (s : State) : State :=
  if withdrawing s then modPass (fun p => { p with waits := true }) s else passAfter r s

/-- The end of a withdrawal: a pass that has waited for it goes on. -/
def passResume (s : State) : State :=
  match s.xu.pass with
  | none => s
  | some p => if p.waits && !withdrawing s then passAfter p.read s else s

/-! ### Requests and echoes (R13 to R16) -/

/-- A sequence number that is acted on (R13). -/
def freshSeq (last seq : Word16) : Bool := seq ≠ 0 && seq ≠ last

/-- A bay request is acted on: its sequence becomes the last acted one (R13). -/
def actSeq (b : Bay) (seq : Word16) (s : State) : State := s.modBayXu b fun x => { x with lastSeq := seq }

/-- ABORT_RUN acted on (R14, R35, R44). In LOADING the echo waits with the abort. -/
def abortRequest (b : Bay) (seq : Word16) (s0 : State) : State :=
  let s := settleChecks b (actSeq b seq s0)
  let y := s.bay b
  if !abortable y.phase then echoBay b seq .ignored s
  else
    match loadingOf y with
    | some l =>
      s.modRun b fun r => { r with load := some { l with abort := some (l.abort.getD .request), echo := some seq } }
    | none => echoBay b seq .done (abortRun b .request s)

/-- The slot that a WITHDRAW argument names (section 11.3). -/
def argSlot (argument : Word32) : Option Slot :=
  if argument = 0 then some .a else if argument = 1 then some .b else none

/-- Whether a bay's state lets it withdraw a slot (R15). -/
def canWithdraw (y : BayState) : Bool := y.phase = .idle || y.phase = .halted

/-- WITHDRAW acted on: the named slot's ownership word is read, or the request is IGNORED (R13, R15). One acted on while an
earlier one of the bay waits for its read takes its place: the model's choice (notes/assumptions/21.md). -/
def withdrawRequest (b : Bay) (seq : Word16) (argument : Word32) (s0 : State) : State :=
  let s := actSeq b seq s0
  match argSlot argument with
  | none => echoBay b seq .ignored s
  | some x =>
    if canWithdraw (s.bay b) then
      s.modBayXu b fun u => { u with withdrawal := some ⟨x, seq, readAt (slotOffset b x) s⟩ }
    else echoBay b seq .ignored s

/-- CLEAR_FAULTS acted on (R14, R48, R156). -/
def clearRequest (b : Bay) (seq : Word16) (s0 : State) : State :=
  let s := actSeq b seq s0
  if (s.bay b).phase = .halted then echoBay b seq .done (setPhase b .idle (clearLatched b s))
  else echoBay b seq .ignored s

/-- An unknown bay request (R13). -/
def unknownBay (b : Bay) (seq : Word16) (s : State) : State := echoBay b seq .ignored (actSeq b seq s)

/-- RECOVER_BUS acted on; DONE is written as the attempt starts (R14, R16, R178). Acted on in FAILED it is both a request
acted on and a change of the bus state, and triggers one write of the rack status block for the two (R19): the model's
choice (notes/assumptions/52.md). -/
def recoverRequest (seq : Word16) (s : State) : State :=
  let s1 := s.modXu fun x => { x with rackSeq := seq }
  if s.bus.state = .failed then
    beginRecovery (s1.modXu fun x => { x with rackEchoSeq := seq, rackEcho := .done })
  else echoRack seq .ignored s1

/-- An unknown rack request (R13). -/
def unknownRack (seq : Word16) (s : State) : State := echoRack seq .ignored (s.modXu fun x => { x with rackSeq := seq })

/-- A bay request acted on when its sequence is new and the bay's block is read (R8, R13). -/
def bayRequest (b : Bay) (seq : Word16) (f : State → State) (s : State) : State :=
  whenever ((s.bay b).xu.enabled && freshSeq (s.bay b).xu.lastSeq seq) f s

/-- A rack request acted on when its sequence is new (R13). -/
def rackRequest (seq : Word16) (f : State → State) (s : State) : State := whenever (freshSeq s.xu.rackSeq seq) f s

/-- The request of a bay command block by its code (section 11.3). -/
def bayCode (b : Bay) (code : Nat) (seq : Word16) (argument : Word32) (s : State) : State :=
  match code with
  | 1 => abortRequest b seq s
  | 2 => withdrawRequest b seq argument s
  | 3 => clearRequest b seq s
  | _ => unknownBay b seq s

/-- A bay command block read: its request, if new, is acted on (R8, R13, R15). -/
def bayBlockRead (b : Bay) (discard : Bool) (d : List Byte) (s : State) : State :=
  let seq : Word16 := BitVec.ofNat 16 (u16At d 2)
  let argument : Word32 := BitVec.ofNat 32 (u32At d 4)
  if discard then s else bayRequest b seq (bayCode b (u16At d 0) seq argument) s

/-- The rack command block read: the bus speed, then the request, if new (R13, R16, R160). -/
def rackBlockRead (d : List Byte) (s : State) : State :=
  let seq : Word16 := BitVec.ofNat 16 (u16At d 2)
  let s1 := s.modBus fun u => { u with fast := u32At d 4 % 4 = 1 }
  rackRequest seq (if u16At d 0 = 1 then recoverRequest seq else unknownRack seq) s1

/-- The pass in progress, when it waits for a read of its own. -/
def passWaits (s : State) : Option Pass :=
  match s.xu.pass with
  | none => none
  | some p => if p.waits then none else some p

/-- A command block read of the pass completes (R8, R13). -/
def blockRead (d : List Byte) (s : State) : State :=
  match passWaits s with
  | none => s
  | some p =>
    match p.read with
    | .rackBlock => passOn p.read (rackBlockRead d s)
    | .bayBlock b => passOn p.read (bayBlockRead b p.discard d s)
    | .word _ _ _ => s

/-! ### Withdrawal (R15) -/

/-- The header fields and the FINISHED word of a withdrawn slot, in that order (R15, R24). -/
def withdrawnHeader (b : Bay) (x : Slot) (s : State) : State :=
  writeArea (.header b) (slotOffset b x + 0x80)
    (headerBytes (verdictCode .withdrawn) (endCauseCode (.abort .request)) 0 0 0 0 s.rackTime 0 s.rackTime 0 0) s

/-- The slot is withdrawn: FINISHED, the counter, the slots, and the echo DONE (R12, R15, R17); a pass in progress
disregards it from now on (R10). -/
def withdrawn (b : Bay) (w : Withdrawal) (s : State) : State :=
  let s1 := writeArea (.finished b) (slotOffset b w.slot) (leBytes 4 3) s
  let s2 := s1.modBay b fun y =>
    { y with
      run := { y.run with lastTaken := some w.slot }
      xu := { y.xu with
        next := otherSlot w.slot
        waiting := if y.xu.waiting = some w.slot then none else y.xu.waiting }
      status := { y.status with finished := y.status.finished + 1 } }
  echoBay b w.seq .done (modPass (fun p => { p with withdrawn := p.withdrawn ++ [(b, w.slot)] }) s2)

/-- The read of a withdrawal completes (R15). A header write that the card reports not accepted ends the
withdrawal with echo IGNORED. Such a withdrawal does not count as the bay's take: the slot last taken, the next slot and the
waiting slot stay, although header writes were issued: the model's choice (notes/assumptions/57.md). -/
def withdrawRead (b : Bay) (w : Withdrawal) (word : Word32) (headerAccepted : Bool) (s0 : State) : State :=
  let s := s0.modBayXu b fun u => { u with withdrawal := none }
  let s1 :=
    if word = 1 && canWithdraw (s.bay b) then
      let t := withdrawnHeader b w.slot s
      if headerAccepted then withdrawn b w t else echoBay b w.seq .ignored (recordError .writeError (some b) t)
    else echoBay b w.seq .ignored s
  passResume s1

/-! ### Findings (R9 to R11) -/

/-- Whether the bay holds a slot. -/
def holdsSlot (y : BayState) (x : Slot) : Bool := y.run.slot = some x

/-- A POSTED finding of a pass: taken in IDLE, disregarded for the slot held or just withdrawn, and otherwise
counted toward the waiting slot (R9, R10). -/
def passFinding (b : Bay) (x : Slot) (gone : List (Bay × Slot)) (s : State) : State :=
  if holdsSlot (s.bay b) x || gone.contains (b, x) then s
  else if (s.bay b).phase = .idle then take b x s
  else modPass (fun p => { p with posted := p.posted ++ [x] }) s

/-- The waiting slot after both ownership words of a bay have been read (R9). A slot that a back-to-back read has taken
meanwhile, and that the bay has handed back, was not taken by the pass: it becomes the waiting slot, which is the model's
choice (notes/assumptions/50.md). -/
def updateWaiting (b : Bay) (s : State) : State :=
  match s.xu.pass with
  | none => s
  | some p => setWaiting b (p.posted.find? fun x => !holdsSlot (s.bay b) x) s

/-- An ownership word of the pass read (R6, R8 to R10). -/
def wordRead (word : Word32) (s : State) : State :=
  match passWaits s with
  | none => s
  | some p =>
    match p.read with
    | .word b x second =>
      let s1 := if word = 1 && !p.discard then passFinding b x p.withdrawn s else s
      passOn p.read (if second && !p.discard then updateWaiting b s1 else s1)
    | .rackBlock | .bayBlock _ => s

/-- The finding of a back-to-back read (R11). -/
def backFinding (b : Bay) (x : Slot) (s : State) : State :=
  let y := s.bay b
  if y.phase = .idle then take b x s
  else if y.run.slot.isSome && !holdsSlot y x then setWaiting b (some x) s
  else s

/-- The back-to-back read completes (R11). -/
def backRead (b : Bay) (x : Slot) (word : Word32) (s : State) : State :=
  let s1 := s.modBayXu b fun u => { u with backToBack := none }
  if word = 1 then backFinding b x s1 else s1

/-! ### Memory errors (R20 to R23) -/

/-- The bay on whose behalf the pass's read is made; none for RACK (R20). -/
def passErrorBay : PassRead → Option Bay
  | .rackBlock => none
  | .bayBlock b | .word b _ _ => some b

/-- A read ends in a memory error (R20, R22). -/
def readFault (kind : ErrorKind) (a : ReadAccess) (s : State) : State :=
  match a with
  | .pass =>
    match passWaits s with
    | none => s
    | some p => endPass (recordError kind (passErrorBay p.read) s)
  | .withdrawal b =>
    match (s.bay b).xu.withdrawal with
    | none => s
    | some w =>
      passResume (echoBay b w.seq .ignored
        (recordError kind (some b) (s.modBayXu b fun u => { u with withdrawal := none })))
  | .backToBack b =>
    match (s.bay b).xu.backToBack with
    | none => s
    | some _ => recordError kind (some b) (s.modBayXu b fun u => { u with backToBack := none })
  | .loading b =>
    match loadingOf (s.bay b) with
    | none => s
    | some _ => exchangeFault b (recordError kind (some b) s)

/-- The bay into one of whose slots a write goes. -/
def slotWriteBay : WriteKind → Option Bay
  | .active b | .result b _ | .header b | .finished b => some b
  | .bayStatus _ | .rackStatus => none

/-- Whether the part has issued a write into a slot of the bay since the last part reset. A report on a write issued
before that reset is not a memory error: the write was abandoned (R4; notes/assumptions/22.md). -/
def slotWritten (b : Bay) (s : State) : Bool :=
  s.xu.stream.any fun i =>
    match i with
    | .write kind _ _ => slotWriteBay kind = some b
    | .interrupt => false

/-- Whether a write of the hand-back is still to come: a run is held and not lost, and its last result records have not
been handed over yet (R23, R46; notes/assumptions/49.md). -/
def canRefuse (y : BayState) (w : HandBackWrite) : Bool :=
  y.run.slot.isSome && !y.run.lost && (w ≠ .record || y.phase ≠ .closing)

/-- The card will not accept a write with which the run held is handed back (R23; notes/assumptions/49.md). -/
def markRefused (b : Bay) (w : HandBackWrite) (s : State) : State := s.modBayXu b fun x => { x with refused := some w }

/-- A write is reported not accepted (R20, R22, R23). A status block write so reported counts as completed: a further write
that is marked is issued at once, with the copy as it stands before the abort that the error brings, which is the model's
choice (notes/assumptions/56.md). -/
def writeFault (a : WriteAccess) (s : State) : State :=
  match a with
  | .slot b held =>
    if held && (s.bay b).run.slot.isSome then
      exchangeFault b (loseRun b (recordError .writeError (some b) s))
    else whenever (slotWritten b s) (recordError .writeError (some b)) s
  | .handBack b w => whenever (canRefuse (s.bay b) w) (markRefused b w) s
  | .withdrawal b => whenever (slotWritten b s) (recordError .writeError (some b)) s
  | .bayStatus b =>
    if (s.bay b).xu.write = .idle then s
    else exchangeFault b (statusWriteEnd (some b) (recordError .writeError (some b) s))
  | .rackStatus =>
    if s.xu.rackWrite = .idle then s else statusWriteEnd none (recordError .writeError none s)

/-! ### Meanings -/

/-- SCAN_TIMER_EXPIRY (R7). -/
def timerExpiry (s : State) : State :=
  let s1 := s.modXu fun x => { x with scanTimer := some (scanPeriod s) }
  if s.xu.pass.isNone then startPass s1 else s1

/-- SCAN_TIMER_EXPIRY (R7). -/
def execScanTimerExpiry (s : State) : Host.Outcome State Fault Refusal :=
  .next (whenUp (whenever s.xu.scanTimer.isSome timerExpiry) s)

/-- A write to NUDGE (R7). -/
def nudge (s : State) : State :=
  if !s.xu.run then s
  else if s.xu.pass.isNone then startPass s
  else s.modXu fun x => { x with follow := true }

/-- NUDGE (R7): any value. -/
def execNudge (_value : Word32) (s : State) : Host.Outcome State Fault Refusal := .next (whenUp nudge s)

/-- COMMAND_BLOCK_READ_COMPLETE (R13). -/
def execCommandBlockReadComplete (d : List Byte) (s : State) : Host.Outcome State Fault Refusal :=
  .next (whenUp (blockRead d) s)

/-- ABORT_RUN (R44). -/
def execAbortRun (b : Bay) (seq : Word16) (s : State) : Host.Outcome State Fault Refusal :=
  .next (whenUp (bayRequest b seq (abortRequest b seq)) s)

/-- WITHDRAW (R15). -/
def execWithdraw (b : Bay) (seq : Word16) (argument : Word32) (s : State) : Host.Outcome State Fault Refusal :=
  .next (whenUp (bayRequest b seq (withdrawRequest b seq argument)) s)

/-- CLEAR_FAULTS (R48). -/
def execClearFaults (b : Bay) (seq : Word16) (s : State) : Host.Outcome State Fault Refusal :=
  .next (whenUp (bayRequest b seq (clearRequest b seq)) s)

/-- RECOVER_BUS (R16). -/
def execRecoverBus (seq : Word16) (s : State) : Host.Outcome State Fault Refusal :=
  .next (whenUp (rackRequest seq (recoverRequest seq)) s)

/-- UNKNOWN_REQUEST (R13). -/
def execUnknownRequest (bay : Option Bay) (seq : Word16) (s : State) : Host.Outcome State Fault Refusal :=
  .next (whenUp (match bay with
    | some b => bayRequest b seq (unknownBay b seq)
    | none => rackRequest seq (unknownRack seq)) s)

/-- WITHDRAW_READ_COMPLETE (R15). -/
def execWithdrawReadComplete (b : Bay) (word : Word32) (headerAccepted : Bool) (s : State) :
    Host.Outcome State Fault Refusal :=
  .next (whenUp (fun t =>
    match (t.bay b).xu.withdrawal with
    | some w => withdrawRead b w word headerAccepted t
    | none => t) s)

/-- OWNERSHIP_WORD_READ_COMPLETE (R10). -/
def execOwnershipWordReadComplete (word : Word32) (s : State) : Host.Outcome State Fault Refusal :=
  .next (whenUp (wordRead word) s)

/-- BACK_TO_BACK_READ_COMPLETE (R11). -/
def execBackToBackReadComplete (b : Bay) (word : Word32) (s : State) : Host.Outcome State Fault Refusal :=
  .next (whenUp (fun t =>
    match (t.bay b).xu.backToBack with
    | some r => backRead b r.1 word t
    | none => t) s)

/-- STATUS_BLOCK_WRITE_COMPLETE (R18, R19): none names the rack status block. -/
def execStatusBlockWriteComplete (bay : Option Bay) (s : State) : Host.Outcome State Fault Refusal :=
  .next (whenUp (statusWriteEnd bay) s)

/-- READ_TIMEOUT (R20). -/
def execReadTimeout (a : ReadAccess) (s : State) : Host.Outcome State Fault Refusal :=
  .next (whenUp (readFault .timeout a) s)

/-- READ_ERROR (R22). -/
def execReadError (a : ReadAccess) (s : State) : Host.Outcome State Fault Refusal :=
  .next (whenUp (readFault .readError a) s)

/-- WRITE_ERROR (R23). -/
def execWriteError (a : WriteAccess) (s : State) : Host.Outcome State Fault Refusal :=
  .next (whenUp (writeFault a) s)

end Sys2Proof.Machine
end

