-- ==== Sys2Proof/Machine/Steps.lean ====
section
/-! DEFINITION. Machine/Steps.lean: the ends of steps that fall due at a boundary, and the meanings of the commands
of the run engine, the stimulus unit, the sense unit and the supply monitor that take them (R33, R50, R52,
R74, R135, R136, R145, R149 to R157). -/

namespace Sys2Proof.Machine

open Sys2Proof

/-! ### DWELL_END, STEP_END, STEP_TIMEOUT (R33, R50, R52) -/

/-- Whether a step is a DWELL whose remaining duration is 0. -/
def dwellOver (e : InFlight) : Bool :=
  match e.work with
  | .dwell 0 => true
  | _ => false

/-- Whether a step's remaining timeout is 0 (R51). -/
def timeoutOver (e : InFlight) : Bool := e.timeout = some 0

/-- The end of a DWELL step whose duration has run out (R33). -/
def dwellEnd (b : Bay) (i : Nat) (s : State) : State :=
  match findInFlight (s.bay b).run i with
  | none => s
  | some e => if dwellOver e then endWithChecks b i .done .none (fun t => t) s else s

/-- DWELL_END (R33). -/
def execDwellEnd (b : Bay) (step : Nat) (s : State) : Host.Outcome State Fault Refusal :=
  .next (whenUp (dwellEnd b step) s)

/-- The POWER ON step whose settle wait has run out (R145). -/
def unsettledStep (p : Supply) : Option Nat :=
  match p.settle with
  | none => none
  | some j => if 200 ≤ j.count then some j.step else none

/-- Whether the action of a DRIVE step at a position has reached its target and its end has not been taken (R74). -/
def placeReached (y : BayState) (i p : Nat) : Bool :=
  (indices 14).any fun c =>
    match y.stim.actions[c] with
    | none => false
    | some a => a.step = i && a.position = p && a.reached

/-- The end that the block carrying a step has to report of it in the present state (R33, R34, R54, R135, R136, R145,
R207). A DRIVE step is over when each of its unfinished actions has reached its target. The ends that come with an event
of their own, such as a key, the end of a transaction or a boundary, are not due before it (notes/assumptions/31.md). -/
def dueEnd (y : BayState) (e : InFlight) : Option (StepOutcome × Detail) :=
  match e.work with
  | .drive left any =>
    if left.all (placeReached y e.index) then some (if any || !left.isEmpty then (.done, .none) else (.cut, .superseded))
    else none
  | .dwell n => if n = 0 then some (.done, .none) else none
  | .check c => if checkDue e then some (dueOutcome e, checkDetail c) else none
  | .prompt => if (unanswered y).any (fun q => q.step = e.index) then some (.noAnswer, .none) else none
  | .power => if unsettledStep y.supply = some e.index then some (.fail, .notSettled) else none
  | .join tag => if joinHolds y.run e.index tag then some (.done, .none) else none
  | .frame | .fixture _ _ _ => none

/-- Whether a step is a CHECK. -/
def isCheck : Work → Bool
  | .check _ => true
  | .drive _ _ | .dwell _ | .prompt | .frame | .fixture _ _ _ | .power | .join _ => false

/-- The end of a due CHECK step, named by its own command. The other due CHECK ends of that boundary are taken with it,
those that do not stop the run before it when it stops it (R56, R137; notes/assumptions/54.md). -/
def checkEnd (b : Bay) (test : InFlight → Bool) (i : Nat) (s : State) : State :=
  match findInFlight (s.bay b).run i with
  | none => s
  | some e => if test e then withChecks b (some i) (endStops (s.bay b).run i (dueOutcome e)) (endCheck b i) s else s

/-- The end of a step that its block holds nothing of any more (R50); one that has left the table meanwhile is discarded
(R58). -/
def takeReport (b : Bay) (i : Nat) (o : StepOutcome) (d : Detail) (s : State) : State :=
  match findInFlight (s.bay b).run i with
  | none => s
  | some e => endWithChecks b i o d (stopBlock b e) s

/-- A carrying block's report of a step's end: the end that is due of the step is taken; a report of any other end, or
for a step not in flight, is discarded (R50, R58). -/
def blockReport (b : Bay) (i : Nat) (o : StepOutcome) (d : Detail) (s : State) : State :=
  match findInFlight (s.bay b).run i with
  | none => s
  | some e =>
    if dueEnd (s.bay b) e = some (o, d) then
      if isCheck e.work then checkEnd b checkDue i s else takeReport b i o d s
    else s

/-- STEP_END (R50). -/
def execStepEnd (b : Bay) (step : Nat) (o : StepOutcome) (d : Detail) (s : State) : Host.Outcome State Fault Refusal :=
  .next (whenUp (blockReport b step o d) s)

/-- The expiry of a step's timeout: its block stops it where it stands, and then the step ends TIMED_OUT (R50, R52; the
order is the model's choice, notes/assumptions/32.md). The samples of the boundary at which the timeout runs out have been
taken before, so a REACH probe that they decided stands so in the record: the model's choice (R137;
notes/assumptions/64.md). -/
def timeoutEnd (b : Bay) (i : Nat) (s : State) : State :=
  match findInFlight (s.bay b).run i with
  | none => s
  | some e => if timeoutOver e then endWithChecks b i .timedOut .none (stopBlock b e) s else s

/-- STEP_TIMEOUT (R52). -/
def execStepTimeout (b : Bay) (step : Nat) (s : State) : Host.Outcome State Fault Refusal :=
  .next (whenUp (timeoutEnd b step) s)

/-! ### ACTION_REACHES_TARGET (R74) -/

/-- The action in force on a channel that has made its final counted boundary. -/
def reachedAction (y : BayState) (c : Fin 14) : Option Action :=
  match y.stim.actions[c] with
  | none => none
  | some a => if a.reached then some a else none

/-- A DRIVE step with no unfinished action ends (R54). -/
def finishDrive (b : Bay) (i : Nat) (s : State) : State :=
  match (findInFlight (s.bay b).run i).bind driveOver with
  | none => s
  | some _ => withChecks b none false (endDrive b i) s

/-- An action that has reached its target ends; its claim is released, and its step ends with its last action
(R54, R74). -/
def actionReached (b : Bay) (c : Fin 14) (s : State) : State :=
  match reachedAction (s.bay b) c with
  | none => s
  | some a => finishDrive b a.step (endAction b c true s)

/-- ACTION_REACHES_TARGET (R74). -/
def execActionReachesTarget (b : Bay) (c : Fin 14) (s : State) : Host.Outcome State Fault Refusal :=
  .next (whenUp (actionReached b c) s)

/-! ### CHECK_EARLY_DECISION and PERIOD_END (R135, R136) -/

/-- Whether a step is a CHECK whose probes are all decided (R135). -/
def decidedCheck (e : InFlight) : Bool :=
  match e.work with
  | .check c => allDecided c
  | _ => false

/-- Whether a step is a CHECK whose period is over (R136). -/
def endedCheck (e : InFlight) : Bool :=
  match e.work with
  | .check c => periodOver c
  | _ => false

/-- CHECK_EARLY_DECISION (R135). -/
def execCheckEarlyDecision (b : Bay) (step : Nat) (s : State) : Host.Outcome State Fault Refusal :=
  .next (whenUp (checkEnd b decidedCheck step) s)

/-- PERIOD_END (R136). -/
def execPeriodEnd (b : Bay) (step : Nat) (s : State) : Host.Outcome State Fault Refusal :=
  .next (whenUp (checkEnd b endedCheck step) s)

/-! ### NOT_SETTLED (R145) -/

/-- The end of a POWER ON step that did not settle: the output stays on, the voltage watch DISARMED (R145). -/
def settleMissed (b : Bay) (s : State) : State :=
  match unsettledStep (s.bay b).supply with
  | none => s
  | some i => endWithChecks b i .fail .notSettled (fun t => t.modSupply b fun p => { p with settle := none }) s

/-- NOT_SETTLED (R145). -/
def execNotSettled (b : Bay) (s : State) : Host.Outcome State Fault Refusal := .next (whenUp (settleMissed b) s)

/-! ### CONDITION_RECOGNIZED and the retry (R149 to R157) -/

/-- CONDITION_RECOGNIZED (R149). -/
def execConditionRecognized (b : Bay) (c : Condition) (s : State) : Host.Outcome State Fault Refusal :=
  .next (whenUp (recognize b c) s)

/-- Whether a retry's off-time has run out (R153). -/
def offTimeOver (p : Supply) : Bool :=
  match p.retry with
  | .offTime n => p.setup.retryTime ≤ n
  | _ => false

/-- The end of a retry's off-time (R153). The boundary has been sampled before the switch-on, with OVERCURRENT and LID_OPEN not
armed yet, so it counts toward the persistence of neither: the model's choice (R149; notes/assumptions/69.md). -/
def offTimeEnd (b : Bay) (s : State) : State :=
  if offTimeOver (s.bay b).supply then s.modSupply b retrySwitchOn else s

/-- RETRY_OFF_TIME_END (R153). -/
def execRetryOffTimeEnd (b : Bay) (s : State) : Host.Outcome State Fault Refusal := .next (whenUp (offTimeEnd b) s)

/-- The retry fault of a retry whose settle wait has run out (R153). -/
def failedRetry (p : Supply) : Option Condition :=
  match p.retry with
  | .settling n => if 200 ≤ n then p.retryFault else none
  | _ => none

/-- The failure of a retry: its fault is acted on as LATCH (R153). -/
def settleFailed (b : Bay) (s : State) : State :=
  match failedRetry (s.bay b).supply with
  | none => s
  | some c => latchFault b c s

/-- RETRY_SETTLE_FAILED (R153). -/
def execRetrySettleFailed (b : Bay) (s : State) : Host.Outcome State Fault Refusal :=
  .next (whenUp (settleFailed b) s)

end Sys2Proof.Machine
end

