-- ==== Sys2Proof/Machine/Boundary.lean ====
section
/-! DEFINITION. Machine/Boundary.lean: the millisecond boundary (R117): what was still due from the boundary before,
and what every block of every bay counts, samples, advances and converts. -/

namespace Sys2Proof.Machine

open Sys2Proof

/-! ### What is still due (notes/assumptions/3.md) -/

/-- A tap whose staleness timeout passed at or before the present boundary (R115). -/
def tapOverdue (now : RackTime) (t : Tap) : Bool := t.fresh && t.setup.timeout ≤ (now - t.receipt).toNat

/-- The taps that are STALE by now (R115). -/
def staleOverdue (now : RackTime) (n : Network) : Network :=
  { n with taps := tabMap (fun _ t => if tapOverdue now t then { t with fresh := false } else t) n.taps }

/-- The steps in flight for which a test holds. -/
def stepsWhere (test : InFlight → Bool) (r : RunEngine) : List Nat := (r.inFlight.filter test).map fun e => e.index

/-- The releases due of an entry (R98). -/
def releaseDue (b : Bay) (e : Fin 16) (s : State) : State := whenever (s.bay b).net.work[e].due (releaseEntry b e) s

/-- Everything of a bay that fell due at the present boundary and has not been taken is taken before the next
one. -/
def settleBay (b : Bay) (s0 : State) : State :=
  let s1 := probeExpiry b (forAll (indices 16) (releaseDue b) s0)
  let s2 := forAll (indices 14) (actionReached b) s1
  let s3 := settleChecks b s2
  let s4 := forAll (stepsWhere dwellOver (s3.bay b).run) (dwellEnd b) s3
  let s5 := noAnswerDue b (settleMissed b s4)
  let s6 := forAll allConditions (recognize b) s5
  let s7 := settleFailed b (offTimeEnd b s6)
  let s8 := forAll (stepsWhere timeoutOver (s7.bay b).run) (timeoutEnd b) s7
  s8.modNet b (staleOverdue s8.rackTime)

/-! ### The counts of one boundary -/

/-- Whether the start of a step coincides with a boundary, by the boundary's inputs, and has come since the one before. One
marked `early` does not: it came before the boundary (R76, R133, R145; notes/assumptions/58.md). `now` is the rack time
of the boundary. -/
def startedHere (inp : BayInputs) (now : RackTime) (step : Nat) (start : RackTime) (early : Bool) : Bool :=
  inp.startsHere.contains step && start + 1 = now && !early

/-- Whether the start of a step in flight coincides with a boundary. -/
def startsAt (inp : BayInputs) (now : RackTime) (e : InFlight) : Bool := startedHere inp now e.index e.start e.early

/-- Whether an action cut since the boundary before was itself started at this one. -/
def handedAt (inp : BayInputs) (now : RackTime) (h : Handed) : Bool := startedHere inp now h.step h.start h.early

/-- Whether a step of the run is in flight with a start that coincides with a boundary. -/
def stepStartsAt (inp : BayInputs) (now : RackTime) (r : RunEngine) (i : Nat) : Bool :=
  (findInFlight r i).any (startsAt inp now)

/-- A step in flight at a boundary at which the bay is RUNNING: its duration, its samples and its timeout. A boundary that
coincides with its start is not counted for it, whichever of the two is taken first (R33, R51, R133, R134). A CHECK step
takes its samples at the boundary at which its timeout runs out too, before the expiry: the model's choice (R137;
notes/assumptions/64.md). -/
def countStep (y : BayState) (inp : BayInputs) (now : RackTime) (e : InFlight) : InFlight :=
  if startsAt inp now e then e
  else
    { e with
      timeout := e.timeout.map fun t => t - 1
      work := match e.work with
        | .dwell n => .dwell (n - 1)
        | .check c => .check (countCheck y inp c)
        | w => w }

/-- Whether the arming of a prompt coincides with a boundary, by the boundary's inputs, and has come since the one before
(R206; notes/assumptions/58.md). -/
def armedAtBoundary (inp : BayInputs) (now : RackTime) (q : Prompt) : Bool :=
  inp.armedHere && q.armedAt.any fun t => t + 1 = now

/-- An ARMED prompt's remaining answer timeout. A boundary that coincides with the arming is not counted, whichever of the
two is taken first (R206). -/
def countPrompt (inp : BayInputs) (now : RackTime) (q : Prompt) : Prompt :=
  if q.state = .armed && !armedAtBoundary inp now q then { q with remaining := q.remaining.map fun t => t - 1 } else q

/-- The counts of a bay that is RUNNING at the boundary of a rack time (R33, R51, R75, R134, R145, R206). -/
def countRunning (inp : BayInputs) (now : RackTime) (y : BayState) : BayState :=
  { y with
    stim := advanceAll (stepStartsAt inp now y.run) (handedAt inp now) y.stim
    run := { y.run with inFlight := y.run.inFlight.map (countStep y inp now) }
    supply := countSettle (stepStartsAt inp now y.run) y.supply
    panel := { y.panel with prompts := y.panel.prompts.map (countPrompt inp now) } }

/-- The frequency inputs whose last edge is 2,000 ms old at the boundary (R119). -/
def expireEdges (tick : Nat) (fi : Vector FreqInput 2) : Vector FreqInput 2 :=
  tabMap (fun _ f => if edgeExpired tick f then edgeTimeout f else f) fi

/-- A stop or abort of the run that the boundary's inputs place at this boundary and before it: the actions that it stopped
have made their advance for the boundary (R76, R77; notes/assumptions/58.md). A bay that is RUNNING again has had none. -/
def stopsAtBoundary (inp : BayInputs) (now : RackTime) (y : BayState) : BayState :=
  let u := if inp.stopsHere && y.phase ≠ .running then handStopped (handedAt inp now) y.stim else y.stim
  { y with stim := { u with stopped := Vector.replicate 14 [] } }

/-- The supply monitor's part of a boundary (R147, R149, R153). -/
def monitor (inp : BayInputs) (y : BayState) : BayState :=
  { y with supply := monitorBoundary y.phase (sampleOf y inp 19).1 (sampleOf y inp 20).1 inp.lidOpen y.supply }

/-- The conditions whose deglitch completes at a boundary that its inputs place at an entry to CLOSING taken before it
(R157). -/
def lateConditions (inp : BayInputs) (y : BayState) : List Condition :=
  if inp.stopsHere then
    allConditions.filter (recognizedLate y.supply (sampleOf y inp 19).1 (sampleOf y inp 20).1)
  else []

/-- A condition recognized at the event of an entry to CLOSING that is taken first: in CLOSING the recognition waits to be
acted on as any other; where CLOSING has ended at that same event, the fault joins its set at once, and a LATCH or RETRY fault
takes a bay in IDLE to HALTED, while OFFLINE keeps no latched fault (R45, R47, R157; notes/assumptions/58.md). -/
def lateFault (b : Bay) (c : Condition) (s : State) : State :=
  let y := s.bay b
  match y.phase, condGet y.supply.setup.modes c with
  | .closing, _ => s.modSupply b fun p =>
      { p with watches := condSet p.watches c { condGet p.watches c with pending := true } }
  | .idle, .report | .halted, .report | .offline, .report => addReported b (condBit c) s
  | .idle, .latch | .idle, .retry => goHalted b (addLatched b (condBit c) s)
  | .halted, .latch | .halted, .retry => addLatched b (condBit c) s
  | _, _ => s

/-- The recognitions of a boundary of the same event as an entry to CLOSING taken first (R157). -/
def lateFaults (b : Bay) (inp : BayInputs) (s : State) : State :=
  forAll (lateConditions inp (s.bay b)) (lateFault b)
    (s.modSupply b fun p => { p with atClosing := ⟨none, none, none, none⟩ })

/-- A condition recognized at this boundary and acted on before the boundary is counted: one that aborts the run
leaves the advance of this boundary made (R75 to R77, R138, R157). A clamp in the boundary's conversion of that value sets
no flag of the action so aborted, whose result is fixed at the abort (R62, R78): the model's choice
(notes/assumptions/12.md). -/
def recognizeFirst (b : Bay) (inp : BayInputs) (c : Condition) (s : State) : State :=
  let y := s.bay b
  let s1 := if (condGet y.supply.watches c).pending && y.phase = .running && actsAsLatch y.supply c then
      s.modStim b (advanceAll (stepStartsAt inp s.rackTime y.run) (handedAt inp s.rackTime))
    else s
  recognize b c s1

/-- The first lid-closed boundary of ARMING with the close-lid mark (R204). -/
def lidClosedAgain (b : Bay) (s : State) : State :=
  let y := s.bay b
  if y.phase = .arming && y.panel.closeLid && !y.supply.lidOpen then
    wantText b .pressStart (s.modPanel b fun p => { p with closeLid := false })
  else s

/-- The attention line and a key read waiting for a boundary (R201). -/
def keysAtBoundary (b : Bay) (inp : BayInputs) (s : State) : State :=
  pollKeys b (s.modPanel b fun p =>
    { p with attention := inp.attention, keyRead := if p.keyRead = .waitBoundary then .none else p.keyRead })

/-- The POWER ON step that settles at this boundary, one at least having been counted for it (R145). -/
def settledStep (y : BayState) (supv : Int) : Option Nat :=
  match y.phase, y.supply.settle with
  | .running, some j => if 0 < j.count && inSettleWindow y.supply.setting supv then some j.step else none
  | _, _ => none

/-- The end of a POWER ON step that has settled, with the CHECK ends of that boundary (R137, R145). -/
def powerSettled (b : Bay) (supv : Int) (s : State) : State :=
  match settledStep (s.bay b) supv with
  | none => s
  | some i =>
    withChecks b none false
      (fun t => endStep b i .done .none (t.modSupply b fun p => { p with armed := true, settle := none })) s

/-- A retry that settles at this boundary (R153). -/
def retryIfSettled (b : Bay) (supv : Int) (s : State) : State :=
  let y := s.bay b
  if y.phase = .paused && retrySettles y.supply supv then retrySettled b s else s

/-- The counts, conversions and release moments of a bay at a boundary. -/
def countBay (b : Bay) (inp : BayInputs) (s : State) : State :=
  let s1 := if (s.bay b).phase = .running then s.modBay b (countRunning inp s.rackTime) else s
  (convertAll b s1).modNet b countReleases

/-- The ends that come with the boundary itself: POWER_ON_SETTLED of a bay that was RUNNING, or RETRY_SETTLED of
one that was PAUSED (R145, R153). They come within the boundary, so a POWER ON step whose timeout runs out at the same
boundary ends DONE: the model's choice (notes/assumptions/44.md). -/
def settledBay (b : Bay) (supv : Int) (s : State) : State :=
  match (s.bay b).phase with
  | .running => powerSettled b supv s
  | .paused => retryIfSettled b supv s
  | _ => s

/-- One bay at a millisecond boundary. A step that the walker starts at the end that comes with the boundary is taken within
the boundary, before a release that is due at it, which RELEASE takes after it: a FRAME step started there comes before the
release (R98; the model's choice, notes/assumptions/44.md). Conditions acted on before the boundary is counted are taken in
the order OVERCURRENT, UNDERVOLTAGE, OVERVOLTAGE, LID_OPEN, which R149 leaves open: the model's choice
(notes/assumptions/12.md). A bay's PRESS START joins the fixture bus queue before its key read, its key read before the requests of the steps and prompts that
the walker starts when the supply settles there, and the bays follow each other from 0 to 3: the model's choice
(notes/assumptions/46.md). An entry to CLOSING that comes before a boundary of the same event has its actions advanced first of
all, and its conditions watched for that boundary (R76, R77, R157; notes/assumptions/58.md). -/
def bayBoundary (inputs : PerBay BayInputs) (b : Bay) (s : State) : State :=
  let inp := bayGet inputs b
  let s0 := s.modBay b fun y => monitor inp { stopsAtBoundary inp s.rackTime y with fi := expireEdges s.tick y.fi }
  let s1 := lateFaults b inp s0
  let s2 := if inp.monitorFirst then forAll allConditions (recognizeFirst b inp) s1 else s1
  let s3 := countBay b inp s2
  let s4 := keysAtBoundary b inp (lidClosedAgain b s3)
  settledBay b (sampleOf (s4.bay b) inp 19).1 s4

/-- Rack time and the tick of the boundary (00_scope.md, Conventions). -/
def nextBoundary (s : State) : State := { s with rackTime := s.rackTime + 1, tick := s.tick + ticksPerMs }

/-- A millisecond boundary (R117). -/
def boundary (inputs : PerBay BayInputs) (s : State) : State :=
  forAll allBays (bayBoundary inputs) (nextBoundary (forAll allBays settleBay s))

/-- MILLISECOND_BOUNDARY (R117). -/
def execMillisecondBoundary (inputs : PerBay BayInputs) (s : State) : Host.Outcome State Fault Refusal :=
  .next (whenUp (boundary inputs) s)

end Sys2Proof.Machine
end

