-- ==== Sys2Proof/Machine/Registers.lean ====
section
/-! DEFINITION. Machine/Registers.lean: the register window (R1 to R5, R7, R21, R25, R26) and the part reset (R4),
with their meanings. -/

namespace Sys2Proof.Machine

open Sys2Proof

/-! ### The part reset (R4, R64, R93, R142, R180, R197) -/

/-- A bay as the reset leaves it: its reset values, with the level of its attention line, which is a pin. -/
def bayAtReset (y : BayState) : BayState :=
  { BayState.reset with panel := { Panel.reset with attention := y.panel.attention } }

/-- A part reset begins: every block at its reset values, the pins as they are, nothing written (R4). -/
def partReset (s : State) : State :=
  { State.reset with
    pending := s.pending
    freeIndex := s.freeIndex
    xu := { Exchange.reset with resetting := true }
    bus := { Bus.reset with scl := s.bus.scl, sda := s.bus.sda }
    bays := ⟨bayAtReset s.bays.bay0, bayAtReset s.bays.bay1, bayAtReset s.bays.bay2, bayAtReset s.bays.bay3⟩ }

/-- PART_RESET (R4): power-on or a reset of the card's PCIe function. -/
def execPartReset (s : State) : Host.Outcome State Fault Refusal := .next (partReset s)

/-- RESET (R4): a write of 1 to CTRL.RESET. -/
def execReset (s : State) : Host.Outcome State Fault Refusal := .next (whenUp partReset s)

/-- A part reset completes; SCL found low at the first watch makes the bus BUSY_OTHER, and keys waiting are read
(R4, R180, R197), the bays from 0 to 3: the model's choice of order (notes/assumptions/46.md). -/
def resetDone (s : State) : State :=
  let s1 := s.modXu fun x => { x with resetting := false }
  let s2 := if s1.bus.scl then s1 else enterBusyOther s1
  forAll allBays pollKeys s2

/-- RESET_COMPLETE (R4). -/
def execResetComplete (s : State) : Host.Outcome State Fault Refusal := .next (whenever s.xu.resetting resetDone s)

/-! ### The register writes (R2, R3, R7, R21, R25) -/

/-- A write to XBASE_LO or XBASE_HI: held while RUN = 1; bits 11 to 0 of the base are 0 (R2). -/
def writeXbase (half : XbaseHalf) (value : Word32) (s : State) : State :=
  if s.xu.run then s
  else
    match half with
    | .low => s.modXu fun x => { x with xbaseLo := value &&& 0xFFFFF000#32 }
    | .high => s.modXu fun x => { x with xbaseHi := value }

/-- XBASE_WRITE (R2). -/
def execXbaseWrite (half : XbaseHalf) (value : Word32) (s : State) : Host.Outcome State Fault Refusal :=
  .next (whenUp (writeXbase half value) s)

/-- CTRL.RUN written 1 (R3). -/
def setRun (s : State) : State :=
  if s.xu.run then s else s.modXu fun x => { x with run := true, scanTimer := some (scanPeriod s) }

/-- CTRL.RUN written 0 (R3, R7). -/
def clearRun (s : State) : State :=
  if s.xu.run then
    s.modXu fun x =>
      { x with run := false, scanTimer := none, follow := false, pass := x.pass.map fun p => { p with ending := true } }
  else s

/-- RUN_SET (R3). -/
def execRunSet (s : State) : Host.Outcome State Fault Refusal := .next (whenUp setRun s)

/-- RUN_CLEAR (R3). -/
def execRunClear (s : State) : Host.Outcome State Fault Refusal := .next (whenUp clearRun s)

/-- A BAYEN bit written 1 (R3, R38, R45). -/
def enableBay (b : Bay) (s : State) : State :=
  let y := s.bay b
  if y.xu.enabled then s
  else
    let s1 := s.modBayXu b fun x => { x with enabled := true }
    if y.phase = .offline then setPhase b .idle s1 else s1

/-- BAYEN_SET (R38). -/
def execBayenSet (b : Bay) (s : State) : Host.Outcome State Fault Refusal := .next (whenUp (enableBay b) s)

/-- Whether a pass is reading a bay's blocks (R8). -/
def readsBay (b : Bay) (r : PassRead) : Bool := passErrorBay r = some b

/-- The bay disable's effect by bay state (R45). -/
def disableByPhase (b : Bay) (s : State) : State :=
  match (s.bay b).phase with
  | .idle | .halted => goOffline b s
  | .loading | .checking | .arming | .running | .paused => abortRun b .bayDisabled s
  | .offline | .closing => s

/-- A BAYEN bit written 0: a bay disable; the findings of a pass that is reading the bay's blocks are discarded
(R3, R8, R45). -/
def disableBay (b : Bay) (s : State) : State :=
  if (s.bay b).xu.enabled then
    let s1 := s.modBayXu b fun x => { x with enabled := false }
    disableByPhase b (modPass (fun p => if readsBay b p.read then { p with discard := true } else p) s1)
  else s

/-- BAY_DISABLE (R45). -/
def execBayDisable (b : Bay) (s : State) : Host.Outcome State Fault Refusal := .next (whenUp (disableBay b) s)

/-- CTRL.IRQEN written: no message for bits already set (R3, R26). -/
def writeIrqen (on : Bool) (s : State) : State := s.modXu fun x => { x with irqen := on }

/-- IRQEN_WRITE (R26). -/
def execIrqenWrite (on : Bool) (s : State) : Host.Outcome State Fault Refusal := .next (whenUp (writeIrqen on) s)

/-- The SCANP value stored: 0 is stored as 1 (R3). -/
def scanpStored (value : Byte) : Byte := if value = 0 then 1 else value

/-- CTRL.SCANP written; a change while RUN = 1 restarts the scan timer with the new period (R3). -/
def writeScanp (value : Byte) (s : State) : State :=
  let v := scanpStored value
  if s.xu.scanp = v then s
  else
    let s1 := s.modXu fun x => { x with scanp := v }
    if s.xu.run then s1.modXu fun x => { x with scanTimer := some (scanPeriod s1) } else s1

/-- SCANP_WRITE (R3). -/
def execScanpWrite (value : Byte) (s : State) : Host.Outcome State Fault Refusal :=
  .next (whenUp (writeScanp value) s)

/-- EVENTS written: 1s clear their bits (R25). -/
def clearEvents (mask : Word32) (s : State) : State := s.modXu fun x => { x with events := x.events &&& ~~~mask }

/-- EVENTS_CLEAR (R25). -/
def execEventsClear (mask : Word32) (s : State) : Host.Outcome State Fault Refusal :=
  .next (whenUp (clearEvents mask) s)

/-- A read of MERR, whole or in part: the bytes addressed are returned, and kind, bay and MULTI are cleared (R1,
R21). -/
def readMerr (lanes : BitVec 4) (s : State) : State :=
  s.modXu fun x =>
    { x with
      readData := merrWord x.merr &&& laneMask lanes
      merr := { x.merr with kind := .none, bay := none, multi := false } }

/-- MERR_READ (R21). While a part reset is in progress the register reads its value after reset (R4). -/
def execMerrRead (lanes : BitVec 4) (s : State) : Host.Outcome State Fault Refusal := .next (readMerr lanes s)

/-- The interval field of a value written to MERR: 0 is stored as 1 (R21). -/
def intervalStored (value : Word32) : Byte :=
  let v := BitVec.ofNat 8 (value.toNat / 256)
  if v = 0 then 1 else v

/-- A write of MERR sets the interval (R21). -/
def writeMerr (value : Word32) (s : State) : State :=
  s.modXu fun x => { x with merr := { x.merr with interval := intervalStored value } }

/-- MERR_WRITE (R21). -/
def execMerrWrite (value : Word32) (s : State) : Host.Outcome State Fault Refusal :=
  .next (whenUp (writeMerr value) s)

/-- One BAYEN bit of a CTRL write (R3). -/
def writeBayen (value : Word32) (b : Bay) (s : State) : State :=
  if value.getLsbD (1 + bayNum b) then enableBay b s else disableBay b s

/-- A whole write of CTRL: each field has its effect (R3). -/
def writeCtrl (value : Word32) (s : State) : State :=
  if value.getLsbD 31 then partReset s
  else
    let s1 := writeIrqen (value.getLsbD 5) (writeScanp (BitVec.ofNat 8 (value.toNat / 256)) s)
    let s2 := forAll allBays (writeBayen value) s1
    if value.getLsbD 0 then setRun s2 else clearRun s2

/-- A write of the register window by its offset and byte lanes: a partial write, and a write to STATUS or to an
offset without a register, is ignored (R1). -/
def registerWrite (offset : BitVec 12) (lanes : BitVec 4) (value : Word32) (s : State) : State :=
  if lanes ≠ 15 then s
  else
    match offset.toNat with
    | 0x000 => writeXbase .low value s
    | 0x004 => writeXbase .high value s
    | 0x008 => writeCtrl value s
    | 0x010 => clearEvents value s
    | 0x014 => writeMerr value s
    | 0x018 => nudge s
    | _ => s

/-- REGISTER_WRITE_OTHER (R1). -/
def execRegisterWriteOther (offset : BitVec 12) (lanes : BitVec 4) (value : Word32) (s : State) :
    Host.Outcome State Fault Refusal :=
  .next (whenUp (registerWrite offset lanes value) s)

end Sys2Proof.Machine
end

