-- ==== Sys2Proof/Machine/Dispatch.lean ====
section
/-! DEFINITION. Machine/Dispatch.lean: the effect of each command, one arm per constructor of `Instr`. -/

namespace Sys2Proof.Machine

open Sys2Proof

def exec (i : Instr) (s : State) : Host.Outcome State Fault Refusal :=
  match i with
  | .partReset => Sys2Proof.Machine.execPartReset s
  | .resetComplete => Sys2Proof.Machine.execResetComplete s
  | .xbaseWrite half value => Sys2Proof.Machine.execXbaseWrite half value s
  | .runSet => Sys2Proof.Machine.execRunSet s
  | .runClear => Sys2Proof.Machine.execRunClear s
  | .bayenSet bay => Sys2Proof.Machine.execBayenSet bay s
  | .bayDisable bay => Sys2Proof.Machine.execBayDisable bay s
  | .irqenWrite on => Sys2Proof.Machine.execIrqenWrite on s
  | .scanpWrite value => Sys2Proof.Machine.execScanpWrite value s
  | .reset => Sys2Proof.Machine.execReset s
  | .eventsClear mask => Sys2Proof.Machine.execEventsClear mask s
  | .merrRead lanes => Sys2Proof.Machine.execMerrRead lanes s
  | .merrWrite value => Sys2Proof.Machine.execMerrWrite value s
  | .nudge value => Sys2Proof.Machine.execNudge value s
  | .registerWriteOther offset lanes value => Sys2Proof.Machine.execRegisterWriteOther offset lanes value s
  | .millisecondBoundary inputs => Sys2Proof.Machine.execMillisecondBoundary inputs s
  | .scanTimerExpiry => Sys2Proof.Machine.execScanTimerExpiry s
  | .commandBlockReadComplete data => Sys2Proof.Machine.execCommandBlockReadComplete data s
  | .abortRun bay seq => Sys2Proof.Machine.execAbortRun bay seq s
  | .withdraw bay seq argument => Sys2Proof.Machine.execWithdraw bay seq argument s
  | .clearFaults bay seq => Sys2Proof.Machine.execClearFaults bay seq s
  | .recoverBus seq => Sys2Proof.Machine.execRecoverBus seq s
  | .unknownRequest bay seq => Sys2Proof.Machine.execUnknownRequest bay seq s
  | .withdrawReadComplete bay word headerAccepted => Sys2Proof.Machine.execWithdrawReadComplete bay word headerAccepted s
  | .ownershipWordReadComplete word => Sys2Proof.Machine.execOwnershipWordReadComplete word s
  | .backToBackReadComplete bay word => Sys2Proof.Machine.execBackToBackReadComplete bay word s
  | .loadingReadComplete bay data => Sys2Proof.Machine.execLoadingReadComplete bay data s
  | .dwellEnd bay step => Sys2Proof.Machine.execDwellEnd bay step s
  | .stepEnd bay step outcome detail => Sys2Proof.Machine.execStepEnd bay step outcome detail s
  | .stepTimeout bay step => Sys2Proof.Machine.execStepTimeout bay step s
  | .statusBlockWriteComplete bay => Sys2Proof.Machine.execStatusBlockWriteComplete bay s
  | .readTimeout access => Sys2Proof.Machine.execReadTimeout access s
  | .readError access => Sys2Proof.Machine.execReadError access s
  | .writeError access => Sys2Proof.Machine.execWriteError access s
  | .actionReachesTarget bay channel => Sys2Proof.Machine.execActionReachesTarget bay channel s
  | .pulsePeriodEnd bay channel => Sys2Proof.Machine.execPulsePeriodEnd bay channel s
  | .release bay entry => Sys2Proof.Machine.execRelease bay entry s
  | .attemptStart bay => Sys2Proof.Machine.execAttemptStart bay s
  | .attemptEnd bay outcome => Sys2Proof.Machine.execAttemptEnd bay outcome s
  | .probeTimerExpiry bay => Sys2Proof.Machine.execProbeTimerExpiry bay s
  | .receipt bay frame => Sys2Proof.Machine.execReceipt bay frame s
  | .tapStale bay tap => Sys2Proof.Machine.execTapStale bay tap s
  | .fiRisingEdge bay input tick => Sys2Proof.Machine.execFiRisingEdge bay input tick s
  | .fiEdgeTimeout bay input => Sys2Proof.Machine.execFiEdgeTimeout bay input s
  | .checkEarlyDecision bay step => Sys2Proof.Machine.execCheckEarlyDecision bay step s
  | .periodEnd bay step => Sys2Proof.Machine.execPeriodEnd bay step s
  | .notSettled bay => Sys2Proof.Machine.execNotSettled bay s
  | .conditionRecognized bay condition => Sys2Proof.Machine.execConditionRecognized bay condition s
  | .retryOffTimeEnd bay => Sys2Proof.Machine.execRetryOffTimeEnd bay s
  | .retrySettleFailed bay => Sys2Proof.Machine.execRetrySettleFailed bay s
  | .transactionBegin => Sys2Proof.Machine.execTransactionBegin s
  | .transactionEnd refused data attention => Sys2Proof.Machine.execTransactionEnd refused data attention s
  | .stretchTimeout => Sys2Proof.Machine.execStretchTimeout s
  | .sclRiseAfterTimeout sda => Sys2Proof.Machine.execSclRiseAfterTimeout sda s
  | .sclHeld => Sys2Proof.Machine.execSclHeld s
  | .arbitrationLost => Sys2Proof.Machine.execArbitrationLost s
  | .otherMasterStart sclFell meetsOwnStart => Sys2Proof.Machine.execOtherMasterStart sclFell meetsOwnStart s
  | .otherMasterStop => Sys2Proof.Machine.execOtherMasterStop s
  | .busyOtherTimeout => Sys2Proof.Machine.execBusyOtherTimeout s
  | .sdaHeldTimeout => Sys2Proof.Machine.execSdaHeldTimeout s
  | .recoveryEnd readings afterStop => Sys2Proof.Machine.execRecoveryEnd readings afterStop s
  | .recoverySclTimeout => Sys2Proof.Machine.execRecoverySclTimeout s
  | .attentionAsserted bay => Sys2Proof.Machine.execAttentionAsserted bay s
  | .keyYes bay => Sys2Proof.Machine.execKeyYes bay s
  | .keyNo bay => Sys2Proof.Machine.execKeyNo bay s
  | .keyStart bay => Sys2Proof.Machine.execKeyStart bay s
  | .keyAbort bay => Sys2Proof.Machine.execKeyAbort bay s
  | .noAnswer bay => Sys2Proof.Machine.execNoAnswer bay s
  | .fixtureBusLineChange scl sda => Sys2Proof.Machine.execFixtureBusLineChange scl sda s

end Sys2Proof.Machine
end

