-- ==== Sys2Proof/Safety.lean ====
section
/-! DEFINITION. Safety.lean: the laws of the device as predicates on the state, in the terms that the statements
use: what holds of every state that a run from reset can reach. -/

namespace Sys2Proof.Machine

open Sys2Proof

/-- The register window (R2, R3, R7, R20, R21, R214): the base is 4 KiB aligned, the read timeout interval is not 0,
no EVENTS bit above XFAULT is set, and the scan timer counts and a pass is marked to follow only while RUN = 1. -/
structure RegisterLaw (x : Exchange) : Prop where
  base : x.xbaseLo &&& 0xFFF#32 = 0
  interval : x.merr.interval ≠ 0
  events : ∀ n, 10 ≤ n → x.events.getLsbD n = false
  timer : x.scanTimer.isSome = x.run
  follow : x.follow = true → x.run = true

/-- The fixture bus queue (R162, R165, R166, R177): at most 16 entries, at most 6 of a bay, at most one on the bus
and only in ACTIVE, loss counts 0 to 2, and nothing queued or held while FAILED. -/
structure BusLaw (u : Bus) : Prop where
  total : u.queue.length ≤ 16
  perBay : ∀ b, busCount b u.queue ≤ 6
  onBus : u.onBus = true → u.state = .active ∧ u.queue ≠ []
  waiting : u.waitScl ≠ none → u.state = .active ∧ u.onBus = false
  failed : u.state = .failed → u.queue = [] ∧ u.held = []
  losses : ∀ e ∈ u.queue, e.losses ≤ 2
  unheld : ∀ e ∈ u.held, e.losses = 0

/-- The safe state of a bay (R89, R93, R144, R153): with the supply output off, and while PAUSED, the pulse outputs
are stopped, the level outputs OPEN, the switch lines OFF, the transmit queue empty and the controller silent; the
output is on only in RUNNING and PAUSED, a retry goes on only in PAUSED, and it settles with the output on. -/
structure SafeLaw (y : BayState) : Prop where
  off : y.supply.on = false → y.stim.safe = true
  paused : y.phase = .paused → y.stim.safe = true
  pulses : y.stim.safe = true → ∀ i : Fin 2, y.stim.generators[i] = .stopped
  levels : y.stim.safe = true → ∀ i : Fin 4, y.stim.levelOut[i] = .opened
  lines : y.stim.safe = true → y.stim.lineOut = 0
  network : y.stim.safe = true → y.net.state = .stopped
  silent : y.net.state = .stopped → y.net.queue = [] ∧ y.net.attempt = none
  supplied : y.supply.on = true → y.phase = .running ∨ y.phase = .paused
  retrying : y.supply.retry ≠ .none → y.phase = .paused
  settling : ∀ n, y.supply.retry = .settling n → y.supply.on = true

/-- The transmit queue (R93, R96, R102, R103, R105, R107): at most 8 frames, at most one of an entry, an attempt only of a
queued frame, the failure count 0 to 32, late counts that hold at 65,535, and the probe timer running exactly in
NO_PARTNER. -/
structure QueueLaw (n : Network) : Prop where
  total : n.queue.length ≤ 8
  single : (n.queue.map fun f => f.entry).Nodup
  attempt : ∀ a, n.attempt = some a → ∃ f ∈ n.queue, f.entry = a.entry
  failures : n.failures ≤ 32
  late : ∀ e : Fin 16, n.work[e].late ≤ 65535
  probing : n.probeTimer ≠ none ↔ n.state = .noPartner

/-- The run of a bay (R32, R39, R49, R58, R62): a slot is held exactly from LOADING to CLOSING, and it is the slot
last taken; a read of the slot is outstanding exactly in LOADING; at most 4 steps are in flight, only in RUNNING and
PAUSED; a step in flight without OVERLAP is the last one started; no step has two results, and a step in flight has
none. -/
structure RunLaw (y : BayState) : Prop where
  held : y.run.slot = none ↔ (y.phase = .offline ∨ y.phase = .idle ∨ y.phase = .halted)
  taken : ∀ x, y.run.slot = some x → y.run.lastTaken = some x
  four : y.run.inFlight.length ≤ 4
  flight : y.run.inFlight ≠ [] → y.phase = .running ∨ y.phase = .paused
  started : ∀ e ∈ y.run.inFlight, e.index < y.run.next
  ordered : ∀ e ∈ y.run.inFlight, e.overlap = false → y.run.next = e.index + 1
  distinctFlight : (y.run.inFlight.map fun e => e.index).Nodup
  distinctResults : (y.run.results.map fun x => x.index).Nodup
  apart : ∀ e ∈ y.run.inFlight, ∀ x ∈ y.run.results, x.index ≠ e.index
  ended : (y.phase = .running ∨ y.phase = .paused) → ∀ x ∈ y.run.results, x.index < y.run.next
  reads : y.run.load ≠ none ↔ y.phase = .loading
  fresh : (y.phase = .loading ∨ y.phase = .checking ∨ y.phase = .arming) → y.run.results = [] ∧ y.run.next = 0

/-- The retries and the settle judgement (R142, R145, R152, R153): the retry count is never above the retry maximum in
force, and 0 in LOADING, where a new maximum may be loaded; there is a retry fault exactly while a retry is in progress;
and a settle judgement is that of a POWER step in flight, so it never reaches into another run. -/
structure RetryLaw (y : BayState) : Prop where
  bounded : y.supply.retryCount ≤ y.supply.setup.retryMax
  loading : y.phase = .loading → y.supply.retryCount = 0
  fault : y.supply.retryFault ≠ none ↔ y.supply.retry ≠ .none
  settle : ∀ j, y.supply.settle = some j → ∃ e ∈ y.run.inFlight, e.index = j.step ∧ e.work = .power

/-- The prompt queue (R198, R205, R209): prompts only in RUNNING and PAUSED, each of a PROMPT step in flight, one of a
step, and at most one WRITING or ARMED. -/
structure PromptLaw (y : BayState) : Prop where
  running : y.panel.prompts ≠ [] → y.phase = .running ∨ y.phase = .paused
  started : ∀ q ∈ y.panel.prompts, q.step < y.run.next
  flight : ∀ q ∈ y.panel.prompts, ∃ e ∈ y.run.inFlight, e.index = q.step ∧ e.work = .prompt
  single : (y.panel.prompts.map fun q => q.step).Nodup
  shown : (y.panel.prompts.filter fun q => q.state ≠ .waiting).length ≤ 1

/-- The values of the stimulus channels (R67): each in its channel's range; a driven channel's between the start value
and the target of its action, which lie in the range; a TIMED ramp still under way has boundaries left; channels are
driven in RUNNING and PAUSED only; and what a cut, stopped or aborted action leaves for a boundary lies in the range too
(R76, R77). -/
structure ValueLaw (y : BayState) : Prop where
  inRange : ∀ i : Fin 14, y.stim.setup.ranges[i].min ≤ y.stim.values[i] ∧ y.stim.values[i] ≤ y.stim.setup.ranges[i].max
  ends : ∀ (i : Fin 14) (a : Action), y.stim.actions[i] = some a →
    y.stim.setup.ranges[i].min ≤ a.v0 ∧ a.v0 ≤ y.stim.setup.ranges[i].max ∧
    y.stim.setup.ranges[i].min ≤ a.v1 ∧ a.v1 ≤ y.stim.setup.ranges[i].max
  between : ∀ (i : Fin 14) (a : Action), y.stim.actions[i] = some a →
    min a.v0 a.v1 ≤ y.stim.values[i] ∧ y.stim.values[i] ≤ max a.v0 a.v1
  left : ∀ (i : Fin 14) (a : Action) (d : Nat), y.stim.actions[i] = some a → a.kind = .value → a.shape = .timed d →
    a.reached = false → a.count < d
  driven : ∀ i : Fin 14, y.stim.actions[i] ≠ none → y.phase = .running ∨ y.phase = .paused
  handed : ∀ (i : Fin 14) (h : Handed), h ∈ y.stim.stopped[i] ∨ (∃ a, y.stim.actions[i] = some a ∧ h ∈ a.older) →
    y.stim.setup.ranges[i].min ≤ h.value ∧ h.value ≤ y.stim.setup.ranges[i].max

/-- The pulse outputs (R80, R82): a frequency is stopped or 0.100 Hz to 20,000 Hz, and a running generator has a period
of such a frequency and a high time within it. -/
structure PulseLaw (u : Stimulus) : Prop where
  duty : ∀ i : Fin 2, 10 ≤ u.setup.pulse[i].duty ∧ u.setup.pulse[i].duty ≤ 90
  frequency : ∀ (i : Fin 2) (f : Nat), u.frequency[i] = some f → 100 ≤ f ∧ f ≤ 20000000
  generator : ∀ (i : Fin 2) (period high : Nat), u.generators[i] = .running period high →
    2500 ≤ period ∧ period ≤ 500000000 ∧ 1 ≤ high ∧ high ≤ period

/-- The fixture bus during a part reset (R4, R180): idle, with nothing queued, held, waited for or on the bus. -/
def ResetLaw (s : State) : Prop :=
  s.xu.resetting = true → s.bus.state = .idle ∧ s.bus.queue = [] ∧ s.bus.held = [] ∧ s.bus.onBus = false ∧
    s.bus.waitScl = none

/-- All the laws at once: what the invariants of the device assume of the state before a step. -/
structure Lawful (s : State) : Prop where
  register : RegisterLaw s.xu
  reset : ResetLaw s
  bus : BusLaw s.bus
  safe : ∀ b, SafeLaw (s.bay b)
  queue : ∀ b, QueueLaw (s.bay b).net
  run : ∀ b, RunLaw (s.bay b)
  retry : ∀ b, RetryLaw (s.bay b)
  prompt : ∀ b, PromptLaw (s.bay b)
  value : ∀ b, ValueLaw (s.bay b)
  pulse : ∀ b, PulseLaw (s.bay b).stim

/-! ### The terms of the statements about commands -/

/-- No part reset is in progress. -/
def Up (s : State) : Prop := s.xu.resetting = false

/-- No CHECK step of the bay has reached its end and still waits for it to be taken (R135, R136). -/
def NoCheckDue (b : Bay) (s : State) : Prop := ∀ e ∈ (s.bay b).run.inFlight, checkDue e = false

/-- What the part has issued between two states. -/
def issued (s t : State) : List StreamItem := t.xu.stream.drop s.xu.stream.length

/-- A write of the exchange area at an area offset, as the stream carries it (R2), the address within 64 bits
(notes/assumptions/39.md). -/
def areaItem (s : State) (kind : WriteKind) (offset : Nat) (bytes : List Byte) : StreamItem :=
  .write kind (areaAddress s.xu offset) bytes

/-- A read of the exchange area at an area offset as it is issued in a state: at the address of the base in force, with a
timeout of MERR.interval × 64 µs (R2, R20; notes/assumptions/39.md). -/
def areaRead (s : State) (offset : Nat) : ReadIssue := ⟨areaAddress s.xu offset, s.xu.merr.interval.toNat * 64⟩

/-- A pass at its start, with the read of the rack command block outstanding (R7, R8). -/
def firstPass (s : State) : Pass := ⟨.rackBlock, areaRead s 0x0000, false, [], [], false, false⟩

/-- A pass that goes on to a read at an area offset (R8). -/
def passReads (s : State) (p : Pass) (r : PassRead) (offset : Nat) : Pass :=
  { p with read := r, issue := areaRead s offset, waits := false }

/-- A pass that has ended; one marked to follow begins at once (R7, R8). -/
def passEnds (s : State) : State :=
  { s with xu := { s.xu with
    pass := if s.xu.follow && s.xu.run then some (firstPass s) else none
    follow := false } }

/-- After a read, the pass reads the command block of the first enabled bay of a list, or ends when there is none (R8). -/
def GoesToBays (bays : List Bay) (r : PassRead) (p : Pass) (s : State) : Prop :=
  (∀ b, bays.find? (fun b => (s.bay b).xu.enabled) = some b →
    passOn r s = { s with xu := { s.xu with
      pass := some { passReads s p (.bayBlock b) (0x0040 + 16 * bayNum b) with posted := [], discard := false } } }) ∧
  (bays.find? (fun b => (s.bay b).xu.enabled) = none → passOn r s = passEnds s)

/-- No withdrawal is waiting for its read. -/
def NoWithdrawal (s : State) : Prop := ∀ b, (s.bay b).xu.withdrawal = none

/-- The writes of a bay status block that triggers at one event issue: one with the copy as it stands at the first
trigger, when none is in progress, and none otherwise (R18). -/
def bayWrites (b : Bay) (copy s : State) : List StreamItem :=
  if (s.bay b).xu.write = .idle then [areaItem s (.bayStatus b) (bayStatusOffset b) (bayStatusBytes b copy)] else []

/-- A bay takes new contents and one write of its status block is triggered, or several with the copy `first` at the first
of them: the block is issued when no write of it is in progress, one further write is marked otherwise and by every
further trigger, and nothing else changes (R18). -/
def BayTriggered (several : Bool) (b : Bay) (first y : BayState) (s t : State) : Prop :=
  t = { s with
    bays := baySet s.bays b { y with xu := { y.xu with
      write := if (s.bay b).xu.write = .idle ∧ several = false then .busy else .busyMarked } }
    xu := { s.xu with stream := s.xu.stream ++ bayWrites b { s with bays := baySet s.bays b first } s } }

/-- A bay takes new contents and one write of its status block is triggered (R18). -/
def BayBecomes (b : Bay) (y : BayState) (s t : State) : Prop := BayTriggered false b y y s t

/-- The exchange unit and the bus master take new contents and one write of the rack status block is triggered: it is
issued with the new copy when no write of the block is in progress, one further write is marked otherwise, and nothing
else changes (R19). -/
def RackBecomes (x : Exchange) (u : Bus) (s t : State) : Prop :=
  t = { s with bus := u, xu := { x with
    rackWrite := if s.xu.rackWrite = .idle then .busy else .busyMarked
    stream := s.xu.stream ++
      if s.xu.rackWrite = .idle then [areaItem s .rackStatus 0x0010 (rackStatusBytes { s with xu := x, bus := u })]
      else [] } }

/-- A request of a bay answered with an echo and nothing else (R13, R14). -/
def Answered (b : Bay) (seq : Word16) (result : EchoResult) (s t : State) : Prop :=
  BayBecomes b { s.bay b with
    xu := { (s.bay b).xu with lastSeq := seq }
    status := { (s.bay b).status with echoSeq := seq, echo := result } } s t

/-- No CHECK step of the bay but i has reached its end and still waits for it to be taken. -/
def OnlyCheckDue (b : Bay) (i : Nat) (s : State) : Prop :=
  ∀ e ∈ (s.bay b).run.inFlight, e.index ≠ i → checkDue e = false

/-- A step's end taken (R50, R61, R62): its result stands among the run's results, it is no longer in flight, and its
result record has been issued into the slot held, unless a write into that slot has failed before. -/
def Ended (b : Bay) (x : StepResult) (s t : State) : Prop :=
  x ∈ (t.bay b).run.results ∧ (∀ e ∈ (t.bay b).run.inFlight, e.index ≠ x.index) ∧
    ∀ k, (s.bay b).run.slot = some k → (s.bay b).run.lost = false →
      areaItem s (.result b x.index) (slotOffset b k + 0x2800 + 64 * x.index) (resultBytes x) ∈ issued s t

/-- A request of the fixture bus has been made with the bus not FAILED (R162, R166): it stands at the tail of the queue
when the queue has room, its bay fewer than 6 entries there and no request of the bay is held, and at the tail of the held
list otherwise; the bus state and the registers stay. -/
def Requested (r : BusEntry) (s t : State) : Prop :=
  (s.bus.queue.length < 16 ∧ busCount r.bay s.bus.queue < 6 ∧ (∀ h ∈ s.bus.held, h.bay ≠ r.bay) →
      t.bus.queue = s.bus.queue ++ [r] ∧ t.bus.held = s.bus.held) ∧
    (16 ≤ s.bus.queue.length ∨ 6 ≤ busCount r.bay s.bus.queue ∨ (∃ h ∈ s.bus.held, h.bay = r.bay) →
      t.bus.queue = s.bus.queue ∧ t.bus.held = s.bus.held ++ [r]) ∧
    t.bus.state = s.bus.state ∧ t.xu = s.xu

/-- A run's way into CLOSING with a verdict, an end cause and an offending step (R46, R59, R60): the supply is off and the
bay's outputs are safe, no step is in flight, and the bay is in CLOSING or has left it already. -/
def Closed (b : Bay) (verdict : Verdict) (cause : EndCause) (offending : Nat) (t : State) : Prop :=
  (t.bay b).run.verdict = some verdict ∧ (t.bay b).run.cause = cause ∧ (t.bay b).run.offending = offending ∧
    (t.bay b).supply.on = false ∧ (t.bay b).stim.safe = true ∧ (t.bay b).net.state = .stopped ∧
    (t.bay b).run.inFlight = [] ∧ (t.bay b).panel.prompts = [] ∧
    ((t.bay b).phase = .closing ∨ (t.bay b).phase = .idle ∨ (t.bay b).phase = .halted ∨ (t.bay b).phase = .offline)

/-- Every bay status block issued that shows CLOSING shows no step in flight and no unfinished step (R17, R18, R46). -/
def ShownInClosing (b : Bay) (s t : State) : Prop :=
  ∀ a d, StreamItem.write (.bayStatus b) a d ∈ issued s t → byteAt d 0 = 7 → byteAt d 3 = 0xFF ∧ byteAt d 4 = 0

/-- EXCHANGE stands in the latched-fault set, unless the bay has gone to OFFLINE, which empties it (R22, R44, R45). -/
def ExchangeLatched (b : Bay) (t : State) : Prop :=
  (t.bay b).phase ≠ .offline → (t.bay b).supply.latched &&& 16#8 = 16#8

/-- The part has issued a write into a slot of the bay since the last part reset (R4). -/
def SlotWritten (b : Bay) (s : State) : Prop :=
  ∃ k a d, StreamItem.write k a d ∈ s.xu.stream ∧
    (k = .active b ∨ k = .header b ∨ k = .finished b ∨ ∃ i, k = .result b i)

/-- A read of LOADING outstanding as it is issued, in the slot at an area offset, with no abort waiting (sections 1.2 and
11.6; R2, R20, R35). -/
def loadingRead (s : State) (slot : Nat) (r : LoadRead) : Loading :=
  ⟨r, areaRead s (slot + match r with
    | .header => 0x0000 | .stimulus => 0x0100 | .schedule => 0x0640 | .taps => 0x0850 | .supervision => 0x0910
    | .record i => 0x1000 + 64 * i | .text => 0x4000), none, none⟩

/-- A failing outcome (R55). -/
abbrev FailingOutcome (h : Header) (o : StepOutcome) : Prop :=
  o = .fail ∨ o = .noData ∨ o = .noAnswer ∨ o = .timedOut ∨ o = .error ∨ (o = .marginal ∧ h.marginalIsFail = true)

/-- The counted steps of a run: those whose records carry no NOT_COUNTED flag (R31). -/
def countedSteps (r : RunEngine) (h : Header) : List Nat :=
  (List.range h.stepCount).filter fun i => (r.copy.records[i]?).map recordNotCounted = some false

/-- The number of counted steps of a run whose result passes a test (R60). -/
def stepsCounted (r : RunEngine) (h : Header) (test : StepResult → Bool) : Nat :=
  ((countedSteps r h).filter fun i => r.results.any fun x => x.index = i && test x).length

/-- A key acts as its own command does: a bay's run, state, supply, outputs and prompts are those that the command gives (R202,
R203). -/
def KeyActs (key : Instr) (b : Bay) (u t : State) : Prop :=
  ∃ v, exec key u = .next v ∧ (t.bay b).phase = (v.bay b).phase ∧ (t.bay b).run = (v.bay b).run ∧
    (t.bay b).supply = (v.bay b).supply ∧ (t.bay b).stim = (v.bay b).stim ∧
    (t.bay b).panel.prompts = (v.bay b).panel.prompts

/-- The run held is a valid one of which step i is a counted step with STOP_ON_FAIL in force (R35, R55, R56). -/
def StopOnFail (r : RunEngine) (i : Nat) (h : Header) : Prop :=
  r.copy.header = some h ∧ 1 ≤ h.stepCount ∧ h.stepCount ≤ 96 ∧
    (∃ record, r.copy.records[i]? = some record ∧ recordNotCounted record = false) ∧
    ∃ x, r.copy.steps[i]? = some x ∧ (x.stopOnFail = true ∨ h.stopOnFirstFail = true)

/-- A run stopped by the failing end of step i (R56, R59 to R61): verdict FAIL with cause STOPPED_ON_FAIL and that step;
its result stands, every other step in flight has ended CUT with detail STOPPED, and every step never started SKIPPED. -/
def StoppedBy (b : Bay) (i : Nat) (x : StepResult) (n : Nat) (s t : State) : Prop :=
  Closed b .fail .stoppedOnFail i t ∧ x ∈ (t.bay b).run.results ∧
    (∀ g ∈ (s.bay b).run.inFlight, g.index ≠ i → resultOf g .cut .stopped s.rackTime ∈ (t.bay b).run.results) ∧
    ∀ j, j < n → (∀ g ∈ (s.bay b).run.inFlight, g.index ≠ j) → (∀ y ∈ (s.bay b).run.results, y.index ≠ j) →
      ∃ y ∈ (t.bay b).run.results, y.index = j ∧ y.outcome = .skipped ∧ y.start = 0 ∧ y.stop = 0

/-- A slot taken (R9, R10, R18, R39, R142): the ACTIVE write issued first and then, unless one is in progress, a bay status
block, as the bay stands after the take when the slot was not the waiting one; the run engine at the start of LOADING
with the read of the header outstanding, and the items of the bay that a take sets. -/
def Taken (b : Bay) (x : Slot) (s t : State) : Prop :=
  (∃ d, issued s t = areaItem s (.active b) (slotOffset b x) [2, 0, 0, 0] ::
      (if (s.bay b).xu.write = .idle then [areaItem s (.bayStatus b) (bayStatusOffset b) d] else []) ∧
    ((s.bay b).xu.waiting ≠ some x → d = bayStatusBytes b t)) ∧
    (t.bay b).xu.write =
      (if (s.bay b).xu.write = .idle ∧ (s.bay b).xu.waiting ≠ some x then .busy else .busyMarked) ∧
    (t.bay b).phase = .loading ∧
    (t.bay b).run = { RunEngine.reset with
      slot := some x
      lastTaken := some x
      load := some ⟨.header, areaRead s (slotOffset b x), none, none⟩
      takeTime := s.rackTime } ∧
    (t.bay b).supply = { (s.bay b).supply with
      retryCount := 0
      reported := 0
      setting := (s.bay b).supply.setup.nominal
      armed := false } ∧
    (t.bay b).xu.waiting = (if (s.bay b).xu.waiting = some x then none else (s.bay b).xu.waiting) ∧
    (t.bay b).status.runLost = false ∧ (t.bay b).status.cycleFailed = false ∧
    (t.bay b).stim = (s.bay b).stim ∧ (t.bay b).net = (s.bay b).net ∧ (t.bay b).fi = (s.bay b).fi

/-- A channel's action advanced for k counted boundaries (R70). -/
def advanceTimes (c : Fin 14) : Nat → Stimulus → Stimulus
  | 0, u => u
  | k + 1, u => advanceTimes c k (advanceChannel u c)

/-- Whether the start of a step coincides with the boundary that a bay's inputs are those of, as they say, and came since the
boundary before (R133, R145); `now` is the rack time of that boundary. A step marked as started before it does not: one of its
actions ended at its start and cut another (R74, R76; notes/assumptions/58.md). -/
abbrev StartsHere (inp : BayInputs) (now : RackTime) (step : Nat) (start : RackTime) (early : Bool) : Prop :=
  step ∈ inp.startsHere ∧ start + 1 = now ∧ early = false

/-- The value that a channel takes at a boundary from the actions cut, stopped or aborted at its event: the one left by the
latest of them whose own start does not coincide with it; without such a one the value stays (R76, R77). -/
def Handing (inp : BayInputs) (now : RackTime) (l : List Handed) (present v : Int) : Prop :=
  ((∀ h ∈ l, StartsHere inp now h.step h.start h.early) → v = present) ∧
    ∀ before h after, l = before ++ h :: after → ¬StartsHere inp now h.step h.start h.early →
      (∀ g ∈ before, StartsHere inp now g.step g.start g.early) → v = h.value

/-- The bus has entered FAILED (R25, R177): nothing is queued or held, BUSFAIL is set, and every entry and held request of
before has ended BUS_FAILED, which a lamp write and a key read show at their bay whatever its run has come to (R200, R201). -/
def AllFailed (s t : State) : Prop :=
  t.bus.state = .failed ∧ t.bus.queue = [] ∧ t.bus.held = [] ∧ t.xu.events.getLsbD 8 = true ∧
    ∀ e ∈ s.bus.queue ++ s.bus.held,
      (e.owner = .lamp → (t.bay e.bay).status.lampFailed = true) ∧
      (e.owner = .key → (t.bay e.bay).panel.keyRead = .waitBoundary)

/-- The frequency of a pulse channel follows its present value (R79): N × value / D in millihertz, STOPPED for a value below
0 or a result below 100, and at most 20,000,000. -/
def FrequencyOf (u : Stimulus) (i : Fin 2) : Prop :=
  u.frequency[i] =
    if u.values[pulseChannel i] < 0 ∨ roundDiv (u.values[pulseChannel i] * u.setup.pulse[i].n) u.setup.pulse[i].d < 100 then
      none
    else some (min 20000000 (roundDiv (u.values[pulseChannel i] * u.setup.pulse[i].n) u.setup.pulse[i].d).toNat)

/-- A memory error recorded (R21): the first since the last read of MERR, or MULTI; XFAULT set. -/
def ErrorRecorded (kind : ErrorKind) (bay : Option Bay) (s t : State) : Prop :=
  t.xu.merr = (if s.xu.merr.kind = .none then { s.xu.merr with kind := kind, bay := bay }
    else { s.xu.merr with multi := true }) ∧ t.xu.events.getLsbD 9 = true

/-- The bay that a command concerns, if it concerns one bay only. -/
def bayOf : Instr → Option Bay
  | .bayenSet b | .bayDisable b | .abortRun b _ | .withdraw b _ _ | .clearFaults b _ | .withdrawReadComplete b _ _
  | .backToBackReadComplete b _ | .loadingReadComplete b _ | .dwellEnd b _ | .stepEnd b _ _ _ | .stepTimeout b _
  | .actionReachesTarget b _ | .pulsePeriodEnd b _ | .release b _ | .attemptStart b | .attemptEnd b _
  | .probeTimerExpiry b | .receipt b _ | .tapStale b _ | .fiRisingEdge b _ _ | .fiEdgeTimeout b _
  | .checkEarlyDecision b _ | .periodEnd b _ | .notSettled b | .conditionRecognized b _ | .retryOffTimeEnd b
  | .retrySettleFailed b | .attentionAsserted b | .keyYes b | .keyNo b | .keyStart b | .keyAbort b | .noAnswer b => some b
  | .unknownRequest b _ | .statusBlockWriteComplete b => b
  | .readTimeout a | .readError a =>
    match a with
    | .pass => none
    | .withdrawal b | .backToBack b | .loading b => some b
  | .writeError a =>
    match a with
    | .slot b _ | .handBack b _ | .withdrawal b | .bayStatus b => some b
    | .rackStatus => none
  | .partReset | .resetComplete | .xbaseWrite _ _ | .runSet | .runClear | .irqenWrite _ | .scanpWrite _ | .reset
  | .eventsClear _ | .merrRead _ | .merrWrite _ | .nudge _ | .registerWriteOther _ _ _ | .millisecondBoundary _
  | .scanTimerExpiry | .commandBlockReadComplete _ | .recoverBus _ | .ownershipWordReadComplete _
  | .transactionBegin | .transactionEnd _ _ _ | .stretchTimeout | .sclRiseAfterTimeout _ | .sclHeld
  | .arbitrationLost | .otherMasterStart _ _ | .otherMasterStop | .busyOtherTimeout | .sdaHeldTimeout
  | .recoveryEnd _ _ | .recoverySclTimeout | .fixtureBusLineChange _ _ => none

/-- Whether a command is a part reset (R4). -/
def resets : Instr → Bool
  | .partReset | .reset => true
  | .registerWriteOther offset lanes value => offset = 0x008 && lanes = 15 && value.getLsbD 31
  | .resetComplete | .xbaseWrite _ _ | .runSet | .runClear | .bayenSet _ | .bayDisable _ | .irqenWrite _
  | .scanpWrite _ | .eventsClear _ | .merrRead _ | .merrWrite _ | .nudge _ | .millisecondBoundary _ | .scanTimerExpiry
  | .commandBlockReadComplete _ | .abortRun _ _ | .withdraw _ _ _ | .clearFaults _ _ | .recoverBus _
  | .unknownRequest _ _ | .withdrawReadComplete _ _ _ | .ownershipWordReadComplete _ | .backToBackReadComplete _ _
  | .loadingReadComplete _ _ | .dwellEnd _ _ | .stepEnd _ _ _ _ | .stepTimeout _ _ | .statusBlockWriteComplete _
  | .readTimeout _ | .readError _ | .writeError _ | .actionReachesTarget _ _ | .pulsePeriodEnd _ _ | .release _ _
  | .attemptStart _ | .attemptEnd _ _ | .probeTimerExpiry _ | .receipt _ _ | .tapStale _ _ | .fiRisingEdge _ _ _
  | .fiEdgeTimeout _ _ | .checkEarlyDecision _ _ | .periodEnd _ _ | .notSettled _ | .conditionRecognized _ _
  | .retryOffTimeEnd _ | .retrySettleFailed _ | .transactionBegin | .transactionEnd _ _ _ | .stretchTimeout
  | .sclRiseAfterTimeout _ | .sclHeld | .arbitrationLost | .otherMasterStart _ _ | .otherMasterStop | .busyOtherTimeout
  | .sdaHeldTimeout | .recoveryEnd _ _ | .recoverySclTimeout | .attentionAsserted _ | .keyYes _ | .keyNo _ | .keyStart _
  | .keyAbort _ | .noAnswer _ | .fixtureBusLineChange _ _ => false

end Sys2Proof.Machine
end

