-- ==== Sys2Proof/Certificates/Slice0/Obligations.lean ====
section
/-! DEFINITION. Certificates/Slice0/Obligations.lean: the statements about the Rungel TQ4, each a `Prop` that a prover is to
prove. Every docstring names the rules of spec/ that the statement rests on. -/

open Sys2Proof Sys2Proof.Machine

/-! ### One step, the part reset and the register window -/

/-- One step takes the command at the front of the queue and answers what `exec` answers on the state with the queue's
rest; with the queue empty the block idles (the model's choice, notes/assumptions/4.md). -/
def Obligations.StepTakesFrontCommand : Prop :=
  (∀ (c : Instr) (rest : List Instr) (s : State),
    step { s with pending := c :: rest } = exec c { s with pending := rest }) ∧
  ∀ s : State, s.pending = [] → step s = .next s

/-- The state after reset meets every law of the device. -/
def Obligations.ResetMeetsEveryLaw : Prop := Lawful State.reset

/-- PART_RESET, and RESET while no part reset is in progress, bring every block to its reset values; the pins, the
queue of commands and the counter of free values stay, and nothing is written (R4, R38, R64, R93, R142, R180, R197).
Choices of the model it rests on: notes/assumptions/18.md and 27.md. -/
def Obligations.PartResetLeavesResetValues : Prop :=
  ∀ s : State, ∃ t : State, exec .partReset s = .next t ∧ (Up s → exec .reset s = .next t) ∧
    t.pending = s.pending ∧ t.freeIndex = s.freeIndex ∧ t.rackTime = 0 ∧ t.tick = 0 ∧
    t.xu = { State.reset.xu with resetting := true } ∧
    t.bus = { State.reset.bus with scl := s.bus.scl, sda := s.bus.sda } ∧
    (∀ b, t.bay b = { BayState.reset with panel := { Panel.reset with attention := (s.bay b).panel.attention } }) ∧
    readRegister t 0x000 = 0 ∧ readRegister t 0x004 = 0 ∧ readRegister t 0x008 = 0x80000000 ∧
    readRegister t 0x00C = 2 ∧ readRegister t 0x010 = 0 ∧ readRegister t 0x014 = 0x1040

/-- While a part reset is in progress every command leaves the state as it is, but for another part reset, the
completion, a read of MERR and the changes of pins (R4). RESET_COMPLETE ends it: with SCL high and no attention line
asserted nothing else changes; SCL found low makes the bus BUSY_OTHER with its count started; every bay whose attention
line is asserted has its keys read (R4, R180, R197, R201). Without a part reset in progress it changes nothing. Choices of
the model it rests on: notes/assumptions/2.md, 15.md and 27.md. -/
def Obligations.PartResetHoldsOffThenCompletes : Prop :=
  (∀ (c : Instr) (s : State), s.xu.resetting = true → c ≠ .partReset → c ≠ .resetComplete →
      (∀ lanes, c ≠ .merrRead lanes) → (∀ b, c ≠ .attentionAsserted b) →
      (∀ scl sda, c ≠ .fixtureBusLineChange scl sda) → exec c s = .next s) ∧
  ∀ s : State,
    (Up s → exec .resetComplete s = .next s) ∧
    (s.xu.resetting = true →
      (s.bus.scl = true → (∀ b, (s.bay b).panel.attention = false) →
        exec .resetComplete s = .next { s with xu := { s.xu with resetting := false } }) ∧
      (s.bus.scl = false → s.bus.state = .idle → (∀ b, (s.bay b).panel.attention = false) →
        ∃ t, exec .resetComplete s = .next t ∧
          RackBecomes { s.xu with resetting := false }
            { s.bus with state := .busyOther, countsFrom := s.rackTime } s t) ∧
      (s.bus.state ≠ .failed →
        ∃ t, exec .resetComplete s = .next t ∧ Up t ∧
          ∀ b, (s.bay b).panel.attention = true → (s.bay b).panel.keyRead = .none → (s.bay b).phase ≠ .closing →
            (t.bay b).panel.keyRead = .outstanding))

/-- XBASE_WRITE sets the half of the base it names, with the low 12 bits 0, while RUN = 0 and is ignored while RUN = 1;
the address of an area offset is the base plus the offset. IRQEN_WRITE, SCANP_WRITE and EVENTS_CLEAR change their own
field only, and a change of SCANP while RUN = 1 restarts the scan timer; 0 is stored in SCANP as 1, and a 1 written to an
EVENTS bit clears it. A read of MERR returns the bytes addressed and then sets kind to NONE, bay to RACK and MULTI to 0; a
write sets the interval, 0 being stored as 1. RUN_SET starts the scan timer with the period of CTRL.SCANP in units of 50 µs;
RUN_CLEAR stops it, forgets a pass marked to follow and marks the pass in progress to end; a write of the value held changes
nothing. SCAN_TIMER_EXPIRY starts the period again and NUDGE does not: each starts a pass, with the read of the rack command
block, when none is in progress; a nudge during a pass marks one to follow; with RUN = 0 neither does anything.
REGISTER_WRITE_OTHER: a partial write and a write to an offset without a register are ignored; a whole write of a register
does what its own command does, and one of CTRL sets each of its fields (R1 to R4, R7, R8, R20, R21, R25, R26). Choices of
the model it rests on: notes/assumptions/2.md, 13.md, 14.md and 15.md. -/
def Obligations.RegisterAccessesSetTheirFields : Prop :=
  (∀ (s : State) (v : Word32), Up s →
      (s.xu.run = false →
        exec (.xbaseWrite .low v) s = .next { s with xu := { s.xu with xbaseLo := v &&& 0xFFFFF000#32 } } ∧
        exec (.xbaseWrite .high v) s = .next { s with xu := { s.xu with xbaseHi := v } }) ∧
      (s.xu.run = true → ∀ half, exec (.xbaseWrite half v) s = .next s)) ∧
  (∀ (x : Exchange) (o : Nat), x.xbaseHi.toNat * 4294967296 + x.xbaseLo.toNat + o < 18446744073709551616 →
      areaAddress x o = x.xbaseHi.toNat * 4294967296 + x.xbaseLo.toNat + o) ∧
  (∀ (s : State), Up s →
      (∀ on, exec (.irqenWrite on) s = .next { s with xu := { s.xu with irqen := on } }) ∧
      (∀ v : Byte, v ≠ 0 → s.xu.scanp ≠ v →
        (s.xu.run = false → exec (.scanpWrite v) s = .next { s with xu := { s.xu with scanp := v } }) ∧
        (s.xu.run = true →
          exec (.scanpWrite v) s = .next { s with xu := { s.xu with scanp := v, scanTimer := some (v.toNat * 50) } })) ∧
      (∀ v : Byte, v ≠ 0 → s.xu.scanp = v → exec (.scanpWrite v) s = .next s) ∧
      exec (.scanpWrite 0) s = exec (.scanpWrite 1) s ∧
      ∀ mask : Word32, ∃ t, exec (.eventsClear mask) s = .next t ∧ t = { s with xu := { s.xu with events := t.xu.events } } ∧
        ∀ n, t.xu.events.getLsbD n = (s.xu.events.getLsbD n && !mask.getLsbD n)) ∧
  (∀ s : State,
      (∀ lanes, exec (.merrRead lanes) s = .next { s with xu := { s.xu with
        readData := readRegister s 0x014 &&& laneMask lanes
        merr := ⟨.none, none, false, s.xu.merr.interval⟩ } }) ∧
      (Up s → ∀ v : Word32, exec (.merrWrite v) s = .next { s with xu := { s.xu with
        merr := { s.xu.merr with interval := if v.extractLsb' 8 8 = 0 then 1 else v.extractLsb' 8 8 } } })) ∧
  (∀ s : State, Up s →
      (s.xu.run = false →
        exec .runSet s = .next { s with xu := { s.xu with run := true, scanTimer := some (max 1 s.xu.scanp.toNat * 50) } } ∧
        exec .runClear s = .next s) ∧
      (s.xu.run = true →
        exec .runSet s = .next s ∧
        exec .runClear s = .next { s with xu := { s.xu with
          run := false
          scanTimer := none
          follow := false
          pass := s.xu.pass.map fun p => { p with ending := true } } })) ∧
  (∀ (s : State) (v : Word32), Up s →
      (s.xu.scanTimer = none → exec .scanTimerExpiry s = .next s) ∧
      (s.xu.scanTimer ≠ none → s.xu.pass = none →
        exec .scanTimerExpiry s = .next { s with xu := { s.xu with
          scanTimer := some (max 1 s.xu.scanp.toNat * 50)
          pass := some (firstPass s) } }) ∧
      (s.xu.scanTimer ≠ none → s.xu.pass ≠ none →
        exec .scanTimerExpiry s = .next { s with xu := { s.xu with scanTimer := some (max 1 s.xu.scanp.toNat * 50) } }) ∧
      (s.xu.run = false → exec (.nudge v) s = .next s) ∧
      (s.xu.run = true → s.xu.pass = none →
        exec (.nudge v) s = .next { s with xu := { s.xu with pass := some (firstPass s) } }) ∧
      (s.xu.run = true → s.xu.pass ≠ none →
        exec (.nudge v) s = .next { s with xu := { s.xu with follow := true } })) ∧
  ∀ (s : State) (v : Word32), Up s →
    (∀ offset lanes, lanes ≠ 15 → exec (.registerWriteOther offset lanes v) s = .next s) ∧
    (∀ offset : BitVec 12, offset ≠ 0x000 → offset ≠ 0x004 → offset ≠ 0x008 → offset ≠ 0x010 → offset ≠ 0x014 →
      offset ≠ 0x018 → exec (.registerWriteOther offset 15 v) s = .next s) ∧
    exec (.registerWriteOther 0x000 15 v) s = exec (.xbaseWrite .low v) s ∧
    exec (.registerWriteOther 0x004 15 v) s = exec (.xbaseWrite .high v) s ∧
    exec (.registerWriteOther 0x010 15 v) s = exec (.eventsClear v) s ∧
    exec (.registerWriteOther 0x014 15 v) s = exec (.merrWrite v) s ∧
    exec (.registerWriteOther 0x018 15 v) s = exec (.nudge v) s ∧
    (v.getLsbD 31 = true → exec (.registerWriteOther 0x008 15 v) s = exec .reset s) ∧
    (v.getLsbD 31 = false → ∃ t, exec (.registerWriteOther 0x008 15 v) s = .next t ∧
      t.xu.run = v.getLsbD 0 ∧ (∀ b, (t.bay b).xu.enabled = v.getLsbD (1 + bayNum b)) ∧ t.xu.irqen = v.getLsbD 5 ∧
      t.xu.scanp = (if v.extractLsb' 8 8 = 0 then 1 else v.extractLsb' 8 8))

/-- BAYEN_SET takes a bay from OFFLINE to IDLE and otherwise only sets the bit; BAY_DISABLE takes a bay from IDLE or
HALTED to OFFLINE with its latched faults emptied, lets CLOSING go on, and aborts a run with BAY_DISABLED, in LOADING
once the read in progress has ended; a pass that is reading the bay's blocks discards its findings; a write of the
value held changes nothing (R3, R8, R18, R35, R38, R44, R45). Choices of the model it rests on: notes/assumptions/19.md,
23.md, 24.md and 55.md; the clause of a HALTED bay with latched faults (the set emptied before the state changes, and a write
of the status block triggered by each) is the model's choice, by entries 23 and 55. -/
def Obligations.BayEnableAndDisable : Prop :=
  ∀ (s : State) (b : Bay), Up s →
    ((s.bay b).xu.enabled = true → exec (.bayenSet b) s = .next s) ∧
    ((s.bay b).xu.enabled = false → exec (.bayDisable b) s = .next s) ∧
    ((s.bay b).xu.enabled = false → (s.bay b).phase = .offline →
      ∃ t, exec (.bayenSet b) s = .next t ∧
        BayBecomes b { s.bay b with phase := .idle, xu := { (s.bay b).xu with enabled := true } } s t) ∧
    ((s.bay b).xu.enabled = false → (s.bay b).phase ≠ .offline →
      exec (.bayenSet b) s = .next { s with bays := baySet s.bays b { s.bay b with xu := { (s.bay b).xu with enabled := true } } }) ∧
    ((s.bay b).xu.enabled = true → s.xu.pass = none → (s.bay b).phase = .idle ∨ (s.bay b).phase = .halted →
      ((s.bay b).supply.latched = 0 → ∃ t, exec (.bayDisable b) s = .next t ∧
        BayBecomes b { s.bay b with phase := .offline, xu := { (s.bay b).xu with enabled := false } } s t) ∧
      ((s.bay b).supply.latched ≠ 0 → ∃ t, exec (.bayDisable b) s = .next t ∧
        BayTriggered true b
          { s.bay b with
            xu := { (s.bay b).xu with enabled := false }
            supply := { (s.bay b).supply with latched := 0 } }
          { s.bay b with
            phase := .offline
            xu := { (s.bay b).xu with enabled := false }
            supply := { (s.bay b).supply with latched := 0 } } s t)) ∧
    ((s.bay b).xu.enabled = true → s.xu.pass = none → (s.bay b).phase = .closing →
      exec (.bayDisable b) s = .next { s with bays := baySet s.bays b { s.bay b with xu := { (s.bay b).xu with enabled := false } } }) ∧
    (∀ l, (s.bay b).xu.enabled = true → s.xu.pass = none → (s.bay b).phase = .loading → (s.bay b).run.load = some l →
      NoCheckDue b s →
      exec (.bayDisable b) s = .next { s with bays := baySet s.bays b { s.bay b with
        xu := { (s.bay b).xu with enabled := false }
        run := { (s.bay b).run with load := some { l with abort := some (l.abort.getD .bayDisabled) } } } }) ∧
    ((s.bay b).xu.enabled = true → NoCheckDue b s → (s.bay b).run.load = none →
      (s.bay b).phase = .checking ∨ (s.bay b).phase = .arming ∨ (s.bay b).phase = .running ∨ (s.bay b).phase = .paused →
      ∃ t, exec (.bayDisable b) s = .next t ∧ (t.bay b).xu.enabled = false ∧
        Closed b .aborted (.abort .bayDisabled) 0 t ∧ ((t.bay b).phase = .closing ∨ (t.bay b).phase = .offline)) ∧
    ((s.bay b).xu.enabled = true → ∃ t, exec (.bayDisable b) s = .next t ∧ (t.bay b).xu.enabled = false ∧
      t.xu.pass = s.xu.pass.map fun p => if passErrorBay p.read = some b then { p with discard := true } else p)

/-- STATUS reads RESETTING while a part reset is in progress, RUNNING while RUN = 1 and STOPPED while RUN = 0, the state
of every bay and that of the fixture bus as they are at the read, whatever the status blocks recorded; a write to it is
ignored (R5). -/
def Obligations.StatusReadsPresentState : Prop :=
  ∀ s : State,
    (readRegister s 0x00C).extractLsb' 0 4 = (if s.xu.resetting then 2#4 else if s.xu.run then 1#4 else 0#4) ∧
    (∀ b, (readRegister s 0x00C).extractLsb' (4 + 4 * bayNum b) 4 =
      match (s.bay b).phase with
      | .offline => 0#4 | .idle => 1#4 | .loading => 2#4 | .checking => 3#4 | .arming => 4#4 | .running => 5#4
      | .paused => 6#4 | .closing => 7#4 | .halted => 8#4) ∧
    (readRegister s 0x00C).extractLsb' 20 4 =
      (match s.bus.state with
      | .idle => 0#4 | .active => 1#4 | .busyOther => 2#4 | .recovering => 3#4 | .failed => 4#4) ∧
    ∀ lanes v, exec (.registerWriteOther 0x00C lanes v) s = .next s

/-- CTRL reads RUN, the BAYEN bits, IRQEN, SCANP and RESET; MERR its kind (0 NONE, 1 READ_ERROR, 2 WRITE_ERROR,
3 TIMEOUT), its bay (0 to 3, 4 RACK), MULTI and interval; and NUDGE and the offsets that hold no register read as 0 (R1, R3,
R4, R21, section 11.1). -/
def Obligations.CtrlAndMerrReadTheirFields : Prop :=
  ∀ s : State,
    (readRegister s 0x008).getLsbD 0 = s.xu.run ∧
    (∀ b, (readRegister s 0x008).getLsbD (1 + bayNum b) = (s.bay b).xu.enabled) ∧
    (readRegister s 0x008).getLsbD 5 = s.xu.irqen ∧
    (readRegister s 0x008).extractLsb' 8 8 = s.xu.scanp ∧
    (readRegister s 0x008).getLsbD 31 = s.xu.resetting ∧
    (readRegister s 0x014).extractLsb' 0 4 =
      (match s.xu.merr.kind with | .none => 0#4 | .readError => 1#4 | .writeError => 2#4 | .timeout => 3#4) ∧
    (readRegister s 0x014).extractLsb' 4 3 =
      (match s.xu.merr.bay with
      | some .bay0 => 0#3 | some .bay1 => 1#3 | some .bay2 => 2#3 | some .bay3 => 3#3 | none => 4#3) ∧
    (readRegister s 0x014).getLsbD 7 = s.xu.merr.multi ∧
    (readRegister s 0x014).extractLsb' 8 8 = s.xu.merr.interval ∧
    ∀ offset, offset ≠ 0x000 → offset ≠ 0x004 → offset ≠ 0x008 → offset ≠ 0x00C → offset ≠ 0x010 → offset ≠ 0x014 →
      readRegister s offset = 0

/-! ### The millisecond boundary -/

/-- MILLISECOND_BOUNDARY raises rack time by one and the tick count by 50,000, samples every bay's interlock and
attention lines, expires a frequency input 100,000,000 ticks after its last edge, and computes every pulse frequency from
its channel's value after the boundary's advances: STOPPED for a value below 0 or a result below 100 mHz, capped at
20,000,000 mHz; the queue, the registers and the bus lines stay, MERR where no write of a hand-back is marked as one that
will fail. What is still due of each bay is taken first. Then each bay in turn expires its frequency inputs, runs its supply
monitor, acts on the conditions recognized where its input says so, makes its counts and conversions, looks at its lid and
keys, and takes the ends that come with the boundary. So a RUNNING bay without such an end has its channels advanced, every
step's timeout and DWELL counted down, every CHECK step's boundaries counted up, its watches counted and its settle judgement
counted up; a bay in another state keeps its steps, channel values and settle judgement, and its watches count on. A boundary that
coincides with a step's start, as its inputs say, is not counted for that step although it is taken after the start; a channel
that the step drives still takes the value of the boundary from the action cut there. In the same way a bay that is not
RUNNING takes the values left by the actions stopped or aborted, where its inputs say that this coincides with the boundary;
and a condition whose deglitch such a boundary completes, by the watch left at the entry to CLOSING, is recognized: it waits
in CLOSING, and where CLOSING has ended at that event its fault joins its set, in IDLE with HALTED and ALERT
(00_scope.md, Conventions; R33, R43, R47, R51, R75 to R77, R79, R117, R119, R133, R134, R145, R147 to R149, R153, R157, R158,
R201). Choices of the model it rests on: notes/assumptions/3.md, 10.md, 12.md, 36.md, 44.md, 46.md, 49.md,
58.md and 64.md. -/
def Obligations.BoundaryCountsTimeAndSamplesLines : Prop :=
  ∀ (s : State) (inputs : PerBay BayInputs), Up s →
    ∃ t, exec (.millisecondBoundary inputs) s = .next t ∧ t.rackTime = s.rackTime + 1 ∧ t.tick = s.tick + 50000 ∧
      t.pending = s.pending ∧ t.xu.run = s.xu.run ∧ t.xu.irqen = s.xu.irqen ∧ t.xu.scanp = s.xu.scanp ∧
      xbase t.xu = xbase s.xu ∧ t.xu.pass = s.xu.pass ∧
      ((∀ b, (s.bay b).xu.refused = none) → t.xu.merr = s.xu.merr) ∧
      t.bus.scl = s.bus.scl ∧ t.bus.sda = s.bus.sda ∧ t.bus.state = s.bus.state ∧
      (∀ b, (t.bay b).supply.lidOpen = (bayGet inputs b).lidOpen ∧
        (t.bay b).panel.attention = (bayGet inputs b).attention ∧
        ∀ i : Fin 2,
          ((t.bay b).fi[i] =
            match (s.bay b).fi[i].lastEdge with
            | none => (s.bay b).fi[i]
            | some e => if 100000000 ≤ s.tick + 50000 - e then ⟨none, 0⟩ else (s.bay b).fi[i]) ∧
          FrequencyOf (t.bay b).stim i) ∧
      let u := nextBoundary (forAll allBays settleBay s)
      t = forAll allBays (fun b v =>
        let inp := bayGet inputs b
        let watched := v.modBay b fun y =>
          let fi := tabMap (fun _ f => if edgeExpired v.tick f then edgeTimeout f else f) y.fi
          let u := if inp.stopsHere && decide (y.phase ≠ .running) then handStopped (handedAt inp v.rackTime) y.stim
            else y.stim
          { y with
            stim := { u with stopped := Vector.replicate 14 [] }
            fi := fi
            supply := monitorBoundary y.phase (clampTo 0 30000 inp.supv) (clampTo 0 10000 inp.supi) inp.lidOpen y.supply }
        let late := lateFaults b inp watched
        let acted := if inp.monitorFirst then forAll allConditions (recognizeFirst b inp) late else late
        settledBay b (clampTo 0 30000 inp.supv) (keysAtBoundary b inp (lidClosedAgain b (countBay b inp acted)))) u ∧
      ∀ b, (bayGet inputs b).monitorFirst = false →
        let inp := bayGet inputs b
        let y := u.bay b
        let p := { monitorBoundary y.phase (clampTo 0 30000 inp.supv) (clampTo 0 10000 inp.supi) inp.lidOpen y.supply with
          atClosing := ⟨none, none, none, none⟩ }
        let late := fun c => inp.stopsHere = true ∧ ∃ w, condGet y.supply.atClosing c = some w ∧ w.recognized = false ∧
          condGet y.supply.setup.deglitch c ≤ w.count + 1 ∧
          conditionShown p (clampTo 0 30000 inp.supv) (clampTo 0 10000 inp.supi) c = true
        let here := fun e : InFlight => decide (StartsHere inp (s.rackTime + 1) e.index e.start e.early)
        let stepHere := fun i => (findInFlight y.run i).any here
        (y.phase = .running →
            y.supply.settle = none ∨ inSettleWindow y.supply.setting (clampTo 0 30000 inp.supv) = false ∨
              (∃ j, y.supply.settle = some j ∧ j.count = 0 ∧ stepHere j.step = true) →
          (t.bay b).phase = .running ∧
          (∀ c : Fin 14,
            (∀ a, y.stim.actions[c] = some a → stepHere a.step = true →
              Handing inp (s.rackTime + 1) a.older y.stim.values[c] (t.bay b).stim.values[c]) ∧
            ((∀ a, y.stim.actions[c] = some a → stepHere a.step = false) →
              (t.bay b).stim.values[c] = (advanceChannel y.stim c).values[c])) ∧
          (t.bay b).supply = { p with settle := y.supply.settle.map fun j =>
            { j with count := if stepHere j.step then j.count else j.count + 1 } } ∧
          (t.bay b).run.inFlight.map (fun e => (e.index, e.timeout)) =
            y.run.inFlight.map (fun e => (e.index, if here e then e.timeout else e.timeout.map fun n => n - 1)) ∧
          ∀ e ∈ y.run.inFlight, ∃ g ∈ (t.bay b).run.inFlight, g.index = e.index ∧
            (here e = true → g.work = e.work) ∧
            (here e = false →
              (∀ n, e.work = .dwell n → g.work = .dwell (n - 1)) ∧
              ∀ c, e.work = .check c → ∃ x, g.work = .check x ∧ x.k = c.k + 1 ∧ x.period = c.period)) ∧
        (y.phase ≠ .running → y.phase ≠ .paused ∨ (∀ n, p.retry ≠ .settling n) →
          ((∀ c, ¬late c) ∨ (y.phase ≠ .closing ∧ y.phase ≠ .idle ∧ y.phase ≠ .halted ∧ y.phase ≠ .offline) →
            (t.bay b).phase = y.phase ∧ (t.bay b).supply = p) ∧
          (∀ c, late c →
            (y.phase = .closing → (t.bay b).phase = .closing ∧ (condGet (t.bay b).supply.watches c).pending = true) ∧
            (condGet y.supply.setup.modes c = .latch ∨ condGet y.supply.setup.modes c = .retry →
              (y.phase = .idle → t.xu.events.getLsbD (4 + bayNum b) = true) ∧
              (y.phase = .idle ∨ y.phase = .halted →
                (t.bay b).phase = .halted ∧ (t.bay b).supply.latched &&& condBit c = condBit c) ∧
              (y.phase = .offline → (t.bay b).phase = .offline ∧ (t.bay b).supply.latched = y.supply.latched)) ∧
            (condGet y.supply.setup.modes c = .report → y.phase = .idle ∨ y.phase = .halted ∨ y.phase = .offline →
              (t.bay b).supply.reported &&& condBit c = condBit c)) ∧
          (∀ c : Fin 14,
            (inp.stopsHere = false ∨ y.stim.actions[c] ≠ none → (t.bay b).stim.values[c] = y.stim.values[c]) ∧
            (inp.stopsHere = true → y.stim.actions[c] = none →
              Handing inp (s.rackTime + 1) y.stim.stopped[c] y.stim.values[c] (t.bay b).stim.values[c])) ∧
          p.settle = y.supply.settle ∧
          (t.bay b).run.inFlight.map (fun e => (e.index, e.timeout, e.work)) =
            y.run.inFlight.map (fun e => (e.index, e.timeout, e.work)))

/-- The counted boundaries of an action: STEP takes the target at the first; TIMED gives
v0 + round((v1 − v0) × k / d) at the k-th and reaches the target exactly at the d-th; RATE goes by r at each and reaches
the target at the first that leaves no more than r; an OPEN or SHORT action reaches its target at the first, with the channel's value as
it was; other channels are not changed (R70 to R74). -/
def Obligations.ActionsAdvanceByTheirShape : Prop :=
  ∀ (u : Stimulus) (c : Fin 14) (a : Action), u.actions[c] = some a → a.reached = false →
    (a.kind ≠ .value → (advanceChannel u c).values[c] = u.values[c] ∧
      ∃ x, (advanceChannel u c).actions[c] = some x ∧ x.reached = true) ∧
    (a.kind = .value → a.shape = .step → (advanceChannel u c).values[c] = a.v1 ∧
      ∃ x, (advanceChannel u c).actions[c] = some x ∧ x.reached = true) ∧
    (∀ d k, a.kind = .value → a.shape = .timed d → a.count = 0 → 1 ≤ k → k ≤ d →
      (advanceTimes c k u).values[c] = a.v0 + roundDiv ((a.v1 - a.v0) * k) d ∧
      (k = d → (advanceTimes c k u).values[c] = a.v1) ∧
      ∃ x, (advanceTimes c k u).actions[c] = some x ∧ x.reached = decide (k = d)) ∧
    (∀ r k : Nat, a.kind = .value → a.shape = .rate r → 1 ≤ r → 1 ≤ k →
      (advanceTimes c k u).values[c] =
        (if u.values[c] ≤ a.v1 then min a.v1 (u.values[c] + r * k) else max a.v1 (u.values[c] - r * k)) ∧
      ∃ x, (advanceTimes c k u).actions[c] = some x ∧
        (x.reached = true ↔ a.v1 - u.values[c] ≤ r * k ∧ u.values[c] - a.v1 ≤ r * k)) ∧
    ∀ i : Fin 14, i ≠ c → (advanceChannel u c).values[i] = u.values[i] ∧ (advanceChannel u c).actions[i] = u.actions[i]

/-- At a boundary a RUNNING bay counts every step's timeout and every DWELL step's duration down by one, every CHECK
step's boundaries, the settle judgement up by one, and the answer timeout of an ARMED prompt down by one; but a boundary
that coincides with the start of a step, or with the arming of a prompt, as its inputs say, is not counted for that step or
prompt although it is taken after it. An action of such a step makes no advance; its channel, and its start value, take the
value of the boundary from the action that it cut, and a TIMED or RATE action whose target that value is has then reached it.
In every other bay state none of these clocks moves and no channel's value changes (R33, R43, R51, R74 to R76, R133, R134,
R138, R145, R158, R206). Choices of the model it rests on: notes/assumptions/58.md and 64.md. -/
def Obligations.OnlyRunningBaysCountStepClocks : Prop :=
  ∀ (s : State) (b : Bay) (inp : BayInputs),
    ((s.bay b).phase ≠ .running →
      ((countBay b inp s).bay b).run.inFlight.map (fun e => (e.index, e.timeout, e.work)) =
        (s.bay b).run.inFlight.map (fun e => (e.index, e.timeout, e.work)) ∧
      ((countBay b inp s).bay b).stim.values = (s.bay b).stim.values ∧
      ((countBay b inp s).bay b).supply = (s.bay b).supply ∧ ((countBay b inp s).bay b).panel = (s.bay b).panel) ∧
    ((s.bay b).phase = .running →
      let here := fun e : InFlight => decide (StartsHere inp s.rackTime e.index e.start e.early)
      let stepHere := fun i => (findInFlight (s.bay b).run i).any here
      ((countBay b inp s).bay b).run.inFlight.map (fun e => (e.index, e.timeout)) =
        (s.bay b).run.inFlight.map (fun e => (e.index, if here e then e.timeout else e.timeout.map fun n => n - 1)) ∧
      (∀ e ∈ (s.bay b).run.inFlight, ∃ g ∈ ((countBay b inp s).bay b).run.inFlight, g.index = e.index ∧
        (here e = true → g.work = e.work) ∧
        (here e = false →
          (∀ n, e.work = .dwell n → g.work = .dwell (n - 1)) ∧
          ∀ c, e.work = .check c → ∃ x, g.work = .check x ∧ x.k = c.k + 1 ∧ x.period = c.period ∧
            ∀ p ∈ c.probes, p.state ≠ .pending → p ∈ x.probes)) ∧
      (∀ (c : Fin 14) (a : Action), (s.bay b).stim.actions[c] = some a → stepHere a.step = true →
        Handing inp s.rackTime a.older (s.bay b).stim.values[c] ((countBay b inp s).bay b).stim.values[c] ∧
        ∃ x, ((countBay b inp s).bay b).stim.actions[c] = some x ∧ x.step = a.step ∧ x.position = a.position ∧
          x.kind = a.kind ∧ x.shape = a.shape ∧ x.count = a.count ∧ Handing inp s.rackTime a.older a.v0 x.v0 ∧
          (a.kind = .value → x.v1 = a.v1) ∧
          ((∀ h ∈ a.older, StartsHere inp s.rackTime h.step h.start h.early) → x.v1 = a.v1 ∧ x.reached = a.reached) ∧
          ∀ h ∈ a.older, ¬StartsHere inp s.rackTime h.step h.start h.early →
            (a.kind ≠ .value → x.v1 = x.v0) ∧
            (x.reached = true ↔ a.kind = .value ∧ a.shape ≠ .step ∧ x.v0 = x.v1)) ∧
      ((countBay b inp s).bay b).supply.settle = (s.bay b).supply.settle.map (fun j =>
        { j with count := if stepHere j.step then j.count else j.count + 1 }) ∧
      ((countBay b inp s).bay b).panel.prompts = (s.bay b).panel.prompts.map fun q =>
        if q.state = .armed ∧ ¬(inp.armedHere = true ∧ q.armedAt = some (s.rackTime - 1)) then
          { q with remaining := q.remaining.map fun n => n - 1 }
        else q)

/-- A monitored condition's persistence count. A condition is armed in a mode other than OFF, by the supply output and, for
the voltages, the armed watch, LID_OPEN also in ARMING; it is shown by a current above the limit, a voltage outside its
band around the setting, or the lid sampled open at that boundary. Armed and shown it counts one more, and is recognized at
the boundary that completes its deglitch; once recognized, and still shown, nothing changes; not shown, or not armed, its
count is 0 and its mark cleared. The count of a retry goes up (R147 to R149, R153). -/
def Obligations.ConditionsAreDeglitched : Prop :=
  ∀ (p : Supply) (phase : Phase) (supv supi : Int) (lid : Bool) (c : Condition) (armed shown : Bool),
    armed = (match c with
      | .overcurrent => decide (p.setup.modes.overcurrent ≠ .off) && p.on
      | .undervoltage => decide (p.setup.modes.undervoltage ≠ .off) && p.on && p.armed
      | .overvoltage => decide (p.setup.modes.overvoltage ≠ .off) && p.on && p.armed
      | .lidOpen => decide (p.setup.modes.lidOpen ≠ .off) && (p.on || decide (phase = .arming))) →
    shown = (match c with
      | .overcurrent => decide ((p.setup.currentLimit : Int) < supi)
      | .undervoltage => decide (supv < roundDiv ((p.setting : Int) * (100 - p.setup.uvBand)) 100)
      | .overvoltage => decide (roundDiv ((p.setting : Int) * (100 + p.setup.ovBand)) 100 < supv)
      | .lidOpen => lid) →
    (monitorBoundary phase supv supi lid p).lidOpen = lid ∧
    (armed = false ∨ shown = false →
      (condGet (monitorBoundary phase supv supi lid p).watches c).count = 0 ∧
      (condGet (monitorBoundary phase supv supi lid p).watches c).recognized = false) ∧
    (armed = true → shown = true → (condGet p.watches c).recognized = true →
      condGet (monitorBoundary phase supv supi lid p).watches c = condGet p.watches c) ∧
    (armed = true → shown = true → (condGet p.watches c).recognized = false →
      ((condGet p.watches c).count + 1 < condGet p.setup.deglitch c →
        condGet (monitorBoundary phase supv supi lid p).watches c =
          { condGet p.watches c with count := (condGet p.watches c).count + 1 }) ∧
      (condGet p.setup.deglitch c ≤ (condGet p.watches c).count + 1 →
        condGet (monitorBoundary phase supv supi lid p).watches c =
          ⟨condGet p.setup.deglitch c, true, true⟩)) ∧
    (∀ n, p.retry = .offTime n → (monitorBoundary phase supv supi lid p).retry = .offTime (n + 1)) ∧
    (∀ n, p.retry = .settling n → (monitorBoundary phase supv supi lid p).retry = .settling (n + 1))

/-- The ends that come with a boundary. In RUNNING a POWER ON step whose settle judgement finds the sample of SUPV within
95 % to 105 % of the setting arms the voltage watch and ends DONE, and every CHECK step whose end is due and not failing
ends with it, as its probes decide (the steps in flight have distinct indices); a judgement for which no boundary has been
counted changes nothing. In PAUSED a retry that is settling and finds it there succeeds: the voltage watch is armed, the retry and its fault are none, the bay is RUNNING again with ALERT set, the
safe state ended and the network LIVE, every CHECK step in flight restarts from nothing, and the walker goes on: it starts
the next step when only OVERLAP steps, and fewer than 4, are in flight. A sample outside the window, no judgement, and any
other bay state change nothing (R43, R49, R61, R90, R94, R137, R139, R145, R153). Choices of the model it rests
on: notes/assumptions/29.md, 31.md, 44.md, 48.md, 54.md, 58.md and 63.md. -/
def Obligations.SettledAtTheBoundary : Prop :=
  (∀ (s : State) (b : Bay) (supv : Int),
      (supv < roundDiv (((s.bay b).supply.setting : Int) * 95) 100 ∨
        roundDiv (((s.bay b).supply.setting : Int) * 105) 100 < supv → settledBay b supv s = s) ∧
      ((s.bay b).phase ≠ .running → (s.bay b).phase ≠ .paused → settledBay b supv s = s) ∧
      ((s.bay b).phase = .running → (s.bay b).supply.settle = none → settledBay b supv s = s) ∧
      ((s.bay b).phase = .paused → (∀ n, (s.bay b).supply.retry ≠ .settling n) → settledBay b supv s = s) ∧
      (∀ j, (s.bay b).supply.settle = some j → (s.bay b).phase = .running → j.count = 0 → settledBay b supv s = s) ∧
      ∀ j, (s.bay b).supply.settle = some j → (s.bay b).phase = .running → 1 ≤ j.count →
        roundDiv (((s.bay b).supply.setting : Int) * 95) 100 ≤ supv →
        supv ≤ roundDiv (((s.bay b).supply.setting : Int) * 105) 100 →
        (NoCheckDue b s →
          settledBay b supv s = takeEnd b j.step .done .none { s with bays := baySet s.bays b { s.bay b with
            supply := { (s.bay b).supply with armed := true, settle := none } } }) ∧
        (∀ e, findInFlight (s.bay b).run j.step = some e → (∀ c, e.work ≠ .check c) → j.step < (s.bay b).run.next →
          ((s.bay b).run.inFlight.map fun e => e.index).Nodup → Ended b ⟨j.step, e.tag, .done, .none, e.clamped, e.reported, e.start, s.rackTime, List.replicate 4 (.none, 0)⟩ s
            (settledBay b supv s)) ∧
        ∀ i, i ≠ j.step → i < (s.bay b).run.next → ((s.bay b).run.inFlight.map fun e => e.index).Nodup →
          ∀ e, findInFlight (s.bay b).run i = some e → ∀ c, e.work = .check c →
          c.period ≤ c.k ∨ (∀ p ∈ c.probes, p.state ≠ .pending) →
          ∀ h, (s.bay b).run.copy.header = some h → ¬ FailingOutcome h (checkOutcome (c.probes.map decideProbe)) →
          Ended b ⟨i, e.tag, checkOutcome (c.probes.map decideProbe), checkDetail c, e.clamped, e.reported, e.start,
            s.rackTime, probeEntries (c.probes.map decideProbe)⟩ s (settledBay b supv s)) ∧
  ∀ (s : State) (b : Bay) (supv : Int), (s.bay b).phase = .paused →
    ∀ n, (s.bay b).supply.retry = .settling n →
    roundDiv (((s.bay b).supply.setting : Int) * 95) 100 ≤ supv →
    supv ≤ roundDiv (((s.bay b).supply.setting : Int) * 105) 100 →
    ∃ u : State, (u.bay b).phase = .running ∧
      (u.bay b).supply = { (s.bay b).supply with
        armed := true
        retry := .none
        retryFault := none
        settle := (s.bay b).supply.settle.map fun j => { j with count := 0 } } ∧
      u.xu.events.getLsbD (4 + bayNum b) = true ∧
      (u.bay b).stim.safe = false ∧
      (u.bay b).stim.lineOut = (s.bay b).stim.lines ∧
      (u.bay b).net.state = .live ∧
      (∀ e : Fin 16, (s.bay b).net.work[e].on = true → (u.bay b).net.work[e].anchor = some (s.rackTime + 1)) ∧
      (u.bay b).run.next = (s.bay b).run.next ∧
      (u.bay b).run.inFlight.map (fun e => (e.index, e.timeout, e.start)) =
        (s.bay b).run.inFlight.map (fun e => (e.index, e.timeout, e.start)) ∧
      (∀ e ∈ (s.bay b).run.inFlight, ∀ c, e.work = .check c →
        ∃ g ∈ (u.bay b).run.inFlight, g.index = e.index ∧
          g.work = .check ⟨0, c.period, true, c.probes.map fun p => freshProbe p.setup⟩) ∧
      ((∃ e ∈ (s.bay b).run.inFlight, e.overlap = false ∨ ∃ w, e.work = .join w) ∨ 4 ≤ (s.bay b).run.inFlight.length ∨
          (stepCount (s.bay b).run ≤ (s.bay b).run.next ∧ (s.bay b).run.inFlight ≠ []) →
        settledBay b supv s = u) ∧
      ((∀ e ∈ (s.bay b).run.inFlight, e.overlap = true ∧ ∀ w, e.work ≠ .join w) → (s.bay b).run.inFlight.length < 4 →
          (s.bay b).run.next < stepCount (s.bay b).run →
        settledBay b supv s = walkSteps b 95 (startStep b u)) ∧
      ((s.bay b).run.inFlight = [] → stepCount (s.bay b).run ≤ (s.bay b).run.next →
        settledBay b supv s =
          enterClosing b (if anyFailed (s.bay b).run then .fail else .pass) .none 0 [] u)

/-! ### The scan and the requests -/

/-- COMMAND_BLOCK_READ_COMPLETE: the rack block sets the bus speed; a new request in it, or in the block of an enabled bay
whose findings are not discarded, has the effect of its own command, and any other request has none; then the pass goes
on. With no pass, and while the pass does not wait for a command block, nothing changes. A pass that goes on waits for the
end of a withdrawal that is outstanding; it ends when CTRL.RUN has been cleared; else it reads the command block of the
next enabled bay, or after it that bay's ownership words, its next slot's first, and ends after the last bay (R2, R3, R7,
R8, R13, R15, R16, R20, R160). Choices of the model it rests on: notes/assumptions/2.md, 14.md, 21.md, 24.md and 39.md. -/
def Obligations.CommandBlocksReadInOrder : Prop :=
  (∀ (s : State) (d : List Byte), Up s →
      (s.xu.pass = none → exec (.commandBlockReadComplete d) s = .next s) ∧
      (∀ p, s.xu.pass = some p → p.waits = true → exec (.commandBlockReadComplete d) s = .next s) ∧
      (∀ p, s.xu.pass = some p → p.read ≠ .rackBlock → (∀ b, p.read ≠ .bayBlock b) →
        exec (.commandBlockReadComplete d) s = .next s) ∧
      (∀ p, s.xu.pass = some p → p.waits = false → p.read = .rackBlock →
        let seq : Word16 := BitVec.ofNat 16 (u16At d 2)
        let s1 := { s with bus := { s.bus with fast := decide (u32At d 4 % 4 = 1) } }
        (seq = 0 ∨ seq = s.xu.rackSeq → exec (.commandBlockReadComplete d) s = .next (passOn .rackBlock s1)) ∧
        (seq ≠ 0 → seq ≠ s.xu.rackSeq →
          (u16At d 0 = 1 → ∃ t, exec (.recoverBus seq) s1 = .next t ∧
            exec (.commandBlockReadComplete d) s = .next (passOn .rackBlock t)) ∧
          (u16At d 0 ≠ 1 → ∃ t, exec (.unknownRequest none seq) s1 = .next t ∧
            exec (.commandBlockReadComplete d) s = .next (passOn .rackBlock t)))) ∧
      (∀ b p, s.xu.pass = some p → p.waits = false → p.read = .bayBlock b →
        let seq : Word16 := BitVec.ofNat 16 (u16At d 2)
        (p.discard = true ∨ (s.bay b).xu.enabled = false ∨ seq = 0 ∨ seq = (s.bay b).xu.lastSeq →
          exec (.commandBlockReadComplete d) s = .next (passOn (.bayBlock b) s)) ∧
        (p.discard = false → (s.bay b).xu.enabled = true → seq ≠ 0 → seq ≠ (s.bay b).xu.lastSeq →
          (u16At d 0 = 1 → ∃ t, exec (.abortRun b seq) s = .next t ∧
            exec (.commandBlockReadComplete d) s = .next (passOn (.bayBlock b) t)) ∧
          (u16At d 0 = 2 → ∃ t, exec (.withdraw b seq (BitVec.ofNat 32 (u32At d 4))) s = .next t ∧
            exec (.commandBlockReadComplete d) s = .next (passOn (.bayBlock b) t)) ∧
          (u16At d 0 = 3 → ∃ t, exec (.clearFaults b seq) s = .next t ∧
            exec (.commandBlockReadComplete d) s = .next (passOn (.bayBlock b) t)) ∧
          (u16At d 0 ≠ 1 → u16At d 0 ≠ 2 → u16At d 0 ≠ 3 → ∃ t, exec (.unknownRequest (some b) seq) s = .next t ∧
            exec (.commandBlockReadComplete d) s = .next (passOn (.bayBlock b) t))))) ∧
  ∀ s : State, ∀ p, s.xu.pass = some p →
    ((∃ b, (s.bay b).xu.withdrawal ≠ none) →
      ∀ r, passOn r s = { s with xu := { s.xu with pass := some { p with waits := true } } }) ∧
    (NoWithdrawal s →
      (p.ending = true → ∀ r, passOn r s = passEnds s) ∧
      (p.ending = false →
        GoesToBays allBays .rackBlock p s ∧
        (∀ b, passOn (.bayBlock b) s = { s with xu := { s.xu with
          pass := some (passReads s p (.word b (s.bay b).xu.next false) (slotOffset b (s.bay b).xu.next)) } }) ∧
        (∀ b x, passOn (.word b x false) s = { s with xu := { s.xu with
          pass := some (passReads s p (.word b (otherSlot x) true) (slotOffset b (otherSlot x))) } }) ∧
        ∀ b x, GoesToBays (baysAfter b) (.word b x true) p s))

/-- A request whose sequence number is 0 or the last acted one, and a bay request while the bay's blocks are not read,
change nothing; one acted on makes its sequence number the last acted one, and so is acted on once (R8, R13). Choice of
the model it rests on: notes/assumptions/24.md. -/
def Obligations.RequestsActOncePerSequence : Prop :=
  ∀ (s : State) (b : Bay) (seq : Word16) (argument : Word32), Up s →
    (seq = 0 ∨ seq = (s.bay b).xu.lastSeq ∨ (s.bay b).xu.enabled = false →
      exec (.abortRun b seq) s = .next s ∧ exec (.withdraw b seq argument) s = .next s ∧
      exec (.clearFaults b seq) s = .next s ∧ exec (.unknownRequest (some b) seq) s = .next s) ∧
    (seq = 0 ∨ seq = s.xu.rackSeq →
      exec (.recoverBus seq) s = .next s ∧ exec (.unknownRequest none seq) s = .next s) ∧
    (seq ≠ 0 → seq ≠ (s.bay b).xu.lastSeq → (s.bay b).xu.enabled = true →
      ∀ c, c = .abortRun b seq ∨ c = .withdraw b seq argument ∨ c = .clearFaults b seq ∨
        c = .unknownRequest (some b) seq → ∃ t, exec c s = .next t ∧ (t.bay b).xu.lastSeq = seq) ∧
    (seq ≠ 0 → seq ≠ s.xu.rackSeq →
      ∀ c, c = .recoverBus seq ∨ c = .unknownRequest none seq → ∃ t, exec c s = .next t ∧ t.xu.rackSeq = seq)

/-- ABORT_RUN acted on: IGNORED where there is no run to abort; in LOADING the abort and its echo wait for the read in
progress, an earlier cause standing; from CHECKING to PAUSED the run is aborted with cause REQUEST, every step in
flight ends ABORTED with that cause, the echo is DONE, and the bay status blocks that show CLOSING show no step in flight
and no unfinished step (R13, R14, R17, R18, R35, R44, R46, R57). Choices of the model it rests on:
notes/assumptions/19.md and 29.md. -/
def Obligations.AbortRequestEndsTheRun : Prop :=
  ∀ (s : State) (b : Bay) (seq : Word16), Up s → seq ≠ 0 → seq ≠ (s.bay b).xu.lastSeq → (s.bay b).xu.enabled = true →
    NoCheckDue b s →
    ((s.bay b).phase = .idle ∨ (s.bay b).phase = .halted ∨ (s.bay b).phase = .closing →
      ∃ t, exec (.abortRun b seq) s = .next t ∧ Answered b seq .ignored s t) ∧
    (∀ l, (s.bay b).phase = .loading → (s.bay b).run.load = some l →
      exec (.abortRun b seq) s = .next { s with bays := baySet s.bays b { s.bay b with
        xu := { (s.bay b).xu with lastSeq := seq }
        run := { (s.bay b).run with
          load := some { l with abort := some (l.abort.getD .request), echo := some seq } } } }) ∧
    ((s.bay b).run.load = none →
      (s.bay b).phase = .checking ∨ (s.bay b).phase = .arming ∨ (s.bay b).phase = .running ∨ (s.bay b).phase = .paused →
      ∃ t, exec (.abortRun b seq) s = .next t ∧ Closed b .aborted (.abort .request) 0 t ∧
        (t.bay b).status.echo = .done ∧ (t.bay b).status.echoSeq = seq ∧ ShownInClosing b s t ∧
        ∀ e ∈ (s.bay b).run.inFlight,
          Ended b (resultOf e .aborted (.abort .request) s.rackTime) s t)

/-- WITHDRAW acted on in IDLE or HALTED has the named slot's ownership word read; elsewhere, and for an argument that
names no slot, it is IGNORED. WITHDRAW_READ_COMPLETE: a slot found POSTED in IDLE or HALTED gets the header of a withdrawn
slot and then FINISHED, becomes the slot last taken, leaves the waiting slot, makes the other slot the next one and is
counted finished, with echo DONE; otherwise the echo is IGNORED and the slot is not written; a header write not accepted
is a memory error and ends the withdrawal without FINISHED. A pass in progress disregards the withdrawn slot from then on,
and goes on if it has waited and no other withdrawal is outstanding (R2, R8, R10, R12, R13, R15, R17, R18, R20, R21).
Choices of the model it rests on: notes/assumptions/21.md, 39.md, 55.md and 57.md; that a withdrawal ended by a header write
error leaves the slot last taken and the next slot is the model's choice, by entry 57. -/
def Obligations.WithdrawalReadsAndHandsBack : Prop :=
  (∀ (s : State) (b : Bay) (seq : Word16) (argument : Word32), Up s → seq ≠ 0 → seq ≠ (s.bay b).xu.lastSeq →
      (s.bay b).xu.enabled = true →
      (∀ x, argument = (match x with | Slot.a => 0 | Slot.b => 1) →
        (s.bay b).phase = .idle ∨ (s.bay b).phase = .halted →
        exec (.withdraw b seq argument) s = .next { s with bays := baySet s.bays b { s.bay b with
          xu := { (s.bay b).xu with
            lastSeq := seq
            withdrawal := some ⟨x, seq, areaRead s (slotOffset b x)⟩ } } }) ∧
      ((s.bay b).phase ≠ .idle → (s.bay b).phase ≠ .halted →
        ∃ t, exec (.withdraw b seq argument) s = .next t ∧ Answered b seq .ignored s t) ∧
      (argument ≠ 0 → argument ≠ 1 → ∃ t, exec (.withdraw b seq argument) s = .next t ∧ Answered b seq .ignored s t)) ∧
  (∀ (s : State) (b : Bay) (word : Word32), Up s → s.xu.pass = none → ∀ w, (s.bay b).xu.withdrawal = some w →
    (∀ accepted, word ≠ 1 ∨ ((s.bay b).phase ≠ .idle ∧ (s.bay b).phase ≠ .halted) →
      ∃ t, exec (.withdrawReadComplete b word accepted) s = .next t ∧
        BayBecomes b { s.bay b with
          xu := { (s.bay b).xu with withdrawal := none }
          status := { (s.bay b).status with echoSeq := w.seq, echo := .ignored } } s t) ∧
    (word = 1 → (s.bay b).phase = .idle ∨ (s.bay b).phase = .halted →
      (let y := { s.bay b with
          run := { (s.bay b).run with lastTaken := some w.slot }
          xu := { (s.bay b).xu with
            withdrawal := none
            next := otherSlot w.slot
            waiting := if (s.bay b).xu.waiting = some w.slot then none else (s.bay b).xu.waiting }
          status := { (s.bay b).status with
            finished := (s.bay b).status.finished + 1, echoSeq := w.seq, echo := .done } }
       exec (.withdrawReadComplete b word true) s = .next { s with
          bays := baySet s.bays b { y with xu := { y.xu with
            write := if (s.bay b).xu.write = .idle then .busy else .busyMarked } }
          xu := { s.xu with
            stream := s.xu.stream ++
              areaItem s (.header b) (slotOffset b w.slot + 0x80)
                (headerBytes 5 1 0 0 0 0 s.rackTime 0 s.rackTime 0 0) ::
              areaItem s (.finished b) (slotOffset b w.slot) [3, 0, 0, 0] ::
              bayWrites b { s with bays := baySet s.bays b y } s } }) ∧
      ∃ t, exec (.withdrawReadComplete b word false) s = .next t ∧ ErrorRecorded .writeError (some b) s t ∧
        (t.bay b).status.echo = .ignored ∧ (t.bay b).status.echoSeq = w.seq ∧ (t.bay b).run = (s.bay b).run ∧
        (t.bay b).xu.next = (s.bay b).xu.next ∧ (t.bay b).xu.withdrawal = none ∧
        ∀ i ∈ issued s t, ∀ a d, i ≠ .write (.finished b) a d)) ∧
  ∀ (s : State) (b : Bay) (word : Word32) (accepted : Bool), Up s →
    ((s.bay b).xu.withdrawal = none → exec (.withdrawReadComplete b word accepted) s = .next s) ∧
    ∀ w, (s.bay b).xu.withdrawal = some w → ∀ p, s.xu.pass = some p →
      ∃ t, exec (.withdrawReadComplete b word accepted) { s with xu := { s.xu with pass := none } } = .next t ∧
        let gone := if word = 1 ∧ accepted = true ∧ ((s.bay b).phase = .idle ∨ (s.bay b).phase = .halted) then
          p.withdrawn ++ [(b, w.slot)] else p.withdrawn
        let u := { t with xu := { t.xu with pass := some { p with withdrawn := gone } } }
        (p.waits = true → (∀ o, o ≠ b → (s.bay o).xu.withdrawal = none) →
          exec (.withdrawReadComplete b word accepted) s = .next (passOn p.read u)) ∧
        (p.waits = false ∨ (∃ o, o ≠ b ∧ (s.bay o).xu.withdrawal ≠ none) →
          exec (.withdrawReadComplete b word accepted) s = .next u)

/-- CLEAR_FAULTS acted on in HALTED empties the latched-fault set and enters IDLE with echo DONE and no back-to-back read;
elsewhere it is IGNORED; an UNKNOWN_REQUEST is IGNORED for its bay or for the rack. RECOVER_BUS acted on with the bus FAILED
starts a recovery attempt, at the speed selected, with echo DONE; in any other bus state it is IGNORED and the result of
the last recovery stands (R13, R14, R16, R18, R48, R156, R160, R178). Choices of the model it rests on:
notes/assumptions/23.md, for a write of the bay status block at each change of a CLEAR_FAULTS acted on, and 52.md, for the
one write of the rack status block that a RECOVER_BUS acted on triggers. -/
def Obligations.ClearRecoverAndUnknownRequests : Prop :=
  (∀ (s : State) (b : Bay) (seq : Word16), Up s → seq ≠ 0 →
      (seq ≠ (s.bay b).xu.lastSeq → (s.bay b).xu.enabled = true →
        ((s.bay b).phase = .halted → ∃ t, exec (.clearFaults b seq) s = .next t ∧
          BayTriggered true b
            (if (s.bay b).supply.latched = 0 then
              { s.bay b with phase := .idle, xu := { (s.bay b).xu with lastSeq := seq } }
            else
              { s.bay b with
                supply := { (s.bay b).supply with latched := 0 }
                xu := { (s.bay b).xu with lastSeq := seq } })
            { s.bay b with
              phase := .idle
              supply := { (s.bay b).supply with latched := 0 }
              xu := { (s.bay b).xu with lastSeq := seq }
              status := { (s.bay b).status with echoSeq := seq, echo := .done } } s t) ∧
        ((s.bay b).phase ≠ .halted → ∃ t, exec (.clearFaults b seq) s = .next t ∧ Answered b seq .ignored s t) ∧
        ∃ t, exec (.unknownRequest (some b) seq) s = .next t ∧ Answered b seq .ignored s t) ∧
      (seq ≠ s.xu.rackSeq → ∃ t, exec (.unknownRequest none seq) s = .next t ∧
        RackBecomes { s.xu with rackSeq := seq, rackEchoSeq := seq, rackEcho := .ignored } s.bus s t)) ∧
  ∀ (s : State) (seq : Word16), Up s → seq ≠ 0 → seq ≠ s.xu.rackSeq →
    (s.bus.state = .failed → ∃ t, exec (.recoverBus seq) s = .next t ∧
      RackBecomes { s.xu with rackSeq := seq, rackEchoSeq := seq, rackEcho := .done }
        { s.bus with state := .recovering, fastInUse := s.bus.fast } s t) ∧
    (s.bus.state ≠ .failed → ∃ t, exec (.recoverBus seq) s = .next t ∧
      RackBecomes { s.xu with rackSeq := seq, rackEchoSeq := seq, rackEcho := .ignored } s.bus s t)

/-- OWNERSHIP_WORD_READ_COMPLETE: a slot found POSTED, not held and not withdrawn in the pass, is taken in IDLE, at the
first word and at the second, and is counted a finding elsewhere; any other word changes nothing. After the second word the
first finding of the bay that it does not hold becomes the waiting slot, and none does when there is none. The findings of a
disabled bay are discarded. Then the pass goes on. BACK_TO_BACK_READ_COMPLETE: POSTED in IDLE takes the slot, and while the
bay holds the other slot it makes the waiting slot; anything else leaves the bay as it is but for the read (R6, R8 to R11,
R18, R39). Choices of the model it rests on: notes/assumptions/2.md, 24.md, 25.md, 50.md and 55.md. -/
def Obligations.OwnershipFindings : Prop :=
  (∀ (s : State) (word : Word32), Up s →
      (s.xu.pass = none → exec (.ownershipWordReadComplete word) s = .next s) ∧
      (∀ p, s.xu.pass = some p → p.waits = true ∨ p.read = .rackBlock ∨ (∃ b, p.read = .bayBlock b) →
        exec (.ownershipWordReadComplete word) s = .next s)) ∧
  (∀ (s : State) (b : Bay) (x : Slot) (second : Bool) (word : Word32), Up s →
      ∀ p, s.xu.pass = some p → p.waits = false → p.read = .word b x second →
      (p.discard = true → exec (.ownershipWordReadComplete word) s = .next (passOn p.read s)) ∧
      (p.discard = false → ∃ u t, exec (.ownershipWordReadComplete word) s = .next (passOn p.read t) ∧
        (word ≠ 1 ∨ (s.bay b).run.slot = some x ∨ (b, x) ∈ p.withdrawn → u = s) ∧
        (word = 1 → (s.bay b).run.slot ≠ some x → (b, x) ∉ p.withdrawn →
          ((s.bay b).phase = .idle → Taken b x s u ∧ u.xu.pass = s.xu.pass) ∧
          ((s.bay b).phase ≠ .idle →
            u = { s with xu := { s.xu with pass := some { p with posted := p.posted ++ [x] } } })) ∧
        (second = false → t = u) ∧
        (second = true → ∀ q, u.xu.pass = some q →
          ∀ w, w = q.posted.find? (fun z => (u.bay b).run.slot ≠ some z) →
          ((u.bay b).xu.waiting = w → t = u) ∧
          ((u.bay b).xu.waiting ≠ w →
            BayBecomes b { u.bay b with xu := { (u.bay b).xu with waiting := w } } u t)))) ∧
  ∀ (s : State) (b : Bay), Up s →
    ((s.bay b).xu.backToBack = none → ∀ word, exec (.backToBackReadComplete b word) s = .next s) ∧
    ∀ r, (s.bay b).xu.backToBack = some r →
      (∀ word : Word32, word ≠ 1 → exec (.backToBackReadComplete b word) s = .next { s with bays := baySet s.bays b { s.bay b with
        xu := { (s.bay b).xu with backToBack := none } } }) ∧
      ((s.bay b).phase = .idle → ∃ t, exec (.backToBackReadComplete b 1) s = .next t ∧ Taken b r.1 s t ∧
        (t.bay b).xu.backToBack = none) ∧
      ((s.bay b).phase ≠ .idle → (s.bay b).run.slot = some (otherSlot r.1) → (s.bay b).xu.waiting ≠ some r.1 →
        ∃ t, exec (.backToBackReadComplete b 1) s = .next t ∧
          BayBecomes b { s.bay b with
            xu := { (s.bay b).xu with backToBack := none, waiting := some r.1 } } s t) ∧
      ((s.bay b).phase ≠ .idle → (s.bay b).run.slot ≠ some (otherSlot r.1) ∨ (s.bay b).xu.waiting = some r.1 →
        exec (.backToBackReadComplete b 1) s = .next { s with bays := baySet s.bays b { s.bay b with
          xu := { (s.bay b).xu with backToBack := none } } })

/-- STATUS_BLOCK_WRITE_COMPLETE: a write with none marked after it leaves no write in progress; a marked one is issued
at once, with the copy as it then stands; so for the rack status block (R18, R19). Choice of the model it rests on:
notes/assumptions/2.md. -/
def Obligations.StatusWritesCoalesce : Prop :=
  ∀ (s : State) (b : Bay), Up s →
    ((s.bay b).xu.write = .idle → exec (.statusBlockWriteComplete (some b)) s = .next s) ∧
    ((s.bay b).xu.write = .busy → exec (.statusBlockWriteComplete (some b)) s = .next { s with bays := baySet s.bays b { s.bay b with
      xu := { (s.bay b).xu with write := .idle } } }) ∧
    ((s.bay b).xu.write = .busyMarked → exec (.statusBlockWriteComplete (some b)) s = .next { s with
      bays := baySet s.bays b { s.bay b with xu := { (s.bay b).xu with write := .busy } }
      xu := { s.xu with stream := s.xu.stream ++ [areaItem s (.bayStatus b) (bayStatusOffset b) (bayStatusBytes b s)] } }) ∧
    (s.xu.rackWrite = .idle → exec (.statusBlockWriteComplete none) s = .next s) ∧
    (s.xu.rackWrite = .busy → exec (.statusBlockWriteComplete none) s = .next { s with xu :=
      { s.xu with rackWrite := .idle } }) ∧
    (s.xu.rackWrite = .busyMarked → exec (.statusBlockWriteComplete none) s = .next { s with xu := { s.xu with
      rackWrite := .busy
      stream := s.xu.stream ++ [areaItem s .rackStatus 0x0010 (rackStatusBytes s)] } })

/-! ### Memory errors -/

/-- READ_TIMEOUT and READ_ERROR record the error with its kind and bay and set XFAULT. One on a read of the pass ends
the pass and has no further effect on any bay; one on a back-to-back read leaves the bay in its state; one on a
withdrawal is answered IGNORED, and a pass that has waited for it alone goes on; one on a read of LOADING aborts the run
with EXCHANGE and latches it (where no write of its hand-back is marked as one that will fail); one on a read that is not
outstanding changes nothing (R8, R15, R20 to R22, R35, R44). Choices of the model it rests on: notes/assumptions/2.md,
14.md, 19.md, 21.md and 49.md. -/
def Obligations.ReadErrorsByAccess : Prop :=
  ∀ (s : State) (c : ReadAccess → Instr) (kind : ErrorKind), Up s →
    (c = .readTimeout ∧ kind = .timeout) ∨ (c = .readError ∧ kind = .readError) →
    (s.xu.pass = none → exec (c .pass) s = .next s) ∧
    (∀ p, s.xu.pass = some p →
      (p.waits = true → exec (c .pass) s = .next s) ∧
      (p.waits = false →
        (p.read = .rackBlock → ∃ t, exec (c .pass) s = .next t ∧ ErrorRecorded kind none s t ∧
          t.xu.pass = (passEnds s).xu.pass ∧ t.bays = s.bays ∧ t.bus = s.bus) ∧
        ∀ b, (p.read = .bayBlock b ∨ ∃ x second, p.read = .word b x second) →
          ∃ t, exec (c .pass) s = .next t ∧ ErrorRecorded kind (some b) s t ∧
            t.xu.pass = (passEnds s).xu.pass ∧ t.bays = s.bays ∧ t.bus = s.bus)) ∧
    (∀ b, (s.bay b).xu.backToBack = none → exec (c (.backToBack b)) s = .next s) ∧
    (∀ b r, (s.bay b).xu.backToBack = some r → ∃ t, exec (c (.backToBack b)) s = .next t ∧
      ErrorRecorded kind (some b) s t ∧ t.bus = s.bus ∧
      t.bays = baySet s.bays b { s.bay b with xu := { (s.bay b).xu with backToBack := none } }) ∧
    (∀ b, (s.bay b).xu.withdrawal = none → exec (c (.withdrawal b)) s = .next s) ∧
    (∀ b w, (s.bay b).xu.withdrawal = some w →
      ∃ t, exec (c (.withdrawal b)) { s with xu := { s.xu with pass := none } } = .next t ∧
        ErrorRecorded kind (some b) s t ∧ (t.bay b).phase = (s.bay b).phase ∧ (t.bay b).run = (s.bay b).run ∧
        (t.bay b).xu.withdrawal = none ∧ (t.bay b).status.echo = .ignored ∧ (t.bay b).status.echoSeq = w.seq ∧
        let u := { t with xu := { t.xu with pass := s.xu.pass } }
        (∀ p, s.xu.pass = some p → p.waits = true → (∀ o, o ≠ b → (s.bay o).xu.withdrawal = none) →
          exec (c (.withdrawal b)) s = .next (passOn p.read u)) ∧
        ((∀ p, s.xu.pass = some p → p.waits = false) ∨ (∃ o, o ≠ b ∧ (s.bay o).xu.withdrawal ≠ none) →
          exec (c (.withdrawal b)) s = .next u)) ∧
    (∀ b, (s.bay b).phase ≠ .loading → exec (c (.loading b)) s = .next s) ∧
    ∀ b l, (s.bay b).phase = .loading → (s.bay b).run.load = some l → NoCheckDue b s → (s.bay b).xu.refused = none →
      ∃ t, exec (c (.loading b)) s = .next t ∧ ErrorRecorded kind (some b) s t ∧
        Closed b .aborted (.abort (l.abort.getD .exchange)) 0 t ∧
        ((t.bay b).phase = .closing ∨ (t.bay b).phase = .halted ∨ (t.bay b).phase = .offline) ∧ ExchangeLatched b t

/-- WRITE_ERROR records the error and sets XFAULT. A slot write of the run held loses the run, with its label, and aborts
it with EXCHANGE, or with the cause that waits in LOADING, latching EXCHANGE; in CLOSING it only latches it, and nothing else
when the run is lost already; one reported after CLOSING, and the header write of a withdrawal, have no further effect, and
none at all when the part has written no slot of the bay since the last part reset. A bay status block write aborts a run in
the same way, in CLOSING only latches EXCHANGE, and in IDLE, HALTED or OFFLINE, as a rack status block write does, only ends;
a further write that is marked is issued then. One that names a write of the hand-back of a run held and not lost marks that
write, and changes nothing else before it (R4, R18 to R23, R35, R44). Choices of the model it rests on:
notes/assumptions/2.md, 19.md, 20.md, 21.md, 22.md, 49.md and 56.md. -/
def Obligations.WriteErrorsByAccess : Prop :=
  ∀ (s : State) (b : Bay), Up s →
    (∀ c, c = .writeError (.slot b false) ∨ c = .writeError (.withdrawal b) ∨
        (c = .writeError (.slot b true) ∧ (s.bay b).run.slot = none) →
      (SlotWritten b s →
        ∃ t, exec c s = .next t ∧ ErrorRecorded .writeError (some b) s t ∧ t.bays = s.bays ∧ t.bus = s.bus) ∧
      (¬ SlotWritten b s → exec c s = .next s)) ∧
    (NoCheckDue b s → (s.bay b).run.slot ≠ none → (s.bay b).run.lost = false →
      ∃ t, exec (.writeError (.slot b true)) s = .next t ∧ ErrorRecorded .writeError (some b) s t ∧
        (t.bay b).run.lost = true ∧ (t.bay b).status.runLost = true ∧
        (∀ h, (s.bay b).run.copy.header = some h → (t.bay b).status.lostLabel = h.label) ∧
        ((s.bay b).phase = .closing → (t.bay b).phase = .closing ∧ (t.bay b).run.verdict = (s.bay b).run.verdict ∧
          (t.bay b).run.cause = (s.bay b).run.cause ∧ (t.bay b).supply.latched = (s.bay b).supply.latched ||| 16#8) ∧
        (∀ l, (s.bay b).phase = .loading → (s.bay b).run.load = some l →
          Closed b .aborted (.abort (l.abort.getD .exchange)) 0 t ∧ ExchangeLatched b t ∧
            ∀ i ∈ issued s t, ∀ a d, i ≠ .write (.finished b) a d) ∧
        ((s.bay b).run.load = none → (s.bay b).phase = .checking ∨ (s.bay b).phase = .arming ∨
            (s.bay b).phase = .running ∨ (s.bay b).phase = .paused →
          Closed b .aborted (.abort .exchange) 0 t ∧ ExchangeLatched b t ∧
            ∀ i ∈ issued s t, ∀ a d, i ≠ .write (.finished b) a d)) ∧
    ((s.bay b).run.slot ≠ none → (s.bay b).run.lost = true → (s.bay b).phase = .closing → NoCheckDue b s →
      ∃ t, exec (.writeError (.slot b true)) s = .next t ∧ ErrorRecorded .writeError (some b) s t ∧ t.bus = s.bus ∧
        ∃ w, t.bays = baySet s.bays b { s.bay b with
          xu := { (s.bay b).xu with write := w }
          supply := { (s.bay b).supply with latched := (s.bay b).supply.latched ||| 16#8 } }) ∧
    (∀ w, ((s.bay b).run.slot ≠ none → (s.bay b).run.lost = false → w ≠ .record ∨ (s.bay b).phase ≠ .closing →
        exec (.writeError (.handBack b w)) s = .next { s with bays := baySet s.bays b { s.bay b with
          xu := { (s.bay b).xu with refused := some w } } }) ∧
      ((s.bay b).run.slot = none ∨ (s.bay b).run.lost = true ∨ (w = .record ∧ (s.bay b).phase = .closing) →
        exec (.writeError (.handBack b w)) s = .next s)) ∧
    ((s.bay b).xu.write = .idle → exec (.writeError (.bayStatus b)) s = .next s) ∧
    ((s.bay b).xu.write ≠ .idle → NoCheckDue b s →
      ((s.bay b).phase = .idle ∨ (s.bay b).phase = .halted ∨ (s.bay b).phase = .offline →
        ∃ t, exec (.writeError (.bayStatus b)) s = .next t ∧ ErrorRecorded .writeError (some b) s t ∧ t.bus = s.bus ∧
          t.bays = baySet s.bays b { s.bay b with
            xu := { (s.bay b).xu with write := if (s.bay b).xu.write = .busyMarked then .busy else .idle } } ∧
          ((s.bay b).xu.write = .busyMarked →
            areaItem s (.bayStatus b) (bayStatusOffset b) (bayStatusBytes b s) ∈ issued s t)) ∧
      ((s.bay b).phase = .closing →
        ∃ t, exec (.writeError (.bayStatus b)) s = .next t ∧ ErrorRecorded .writeError (some b) s t ∧
          (t.bay b).phase = .closing ∧ (t.bay b).run = (s.bay b).run ∧
          (t.bay b).supply.latched = (s.bay b).supply.latched ||| 16#8 ∧
          ((s.bay b).xu.write = .busyMarked →
            areaItem s (.bayStatus b) (bayStatusOffset b) (bayStatusBytes b s) ∈ issued s t)) ∧
      (∀ l, (s.bay b).phase = .loading → (s.bay b).run.load = some l → (s.bay b).xu.refused = none →
        ∃ t, exec (.writeError (.bayStatus b)) s = .next t ∧ ErrorRecorded .writeError (some b) s t ∧
          Closed b .aborted (.abort (l.abort.getD .exchange)) 0 t ∧ ExchangeLatched b t ∧
          ((s.bay b).xu.write = .busyMarked →
            areaItem s (.bayStatus b) (bayStatusOffset b) (bayStatusBytes b s) ∈ issued s t)) ∧
      ((s.bay b).run.load = none → (s.bay b).xu.refused = none →
          (s.bay b).phase = .checking ∨ (s.bay b).phase = .arming ∨ (s.bay b).phase = .running ∨ (s.bay b).phase = .paused →
        ∃ t, exec (.writeError (.bayStatus b)) s = .next t ∧ ErrorRecorded .writeError (some b) s t ∧
          Closed b .aborted (.abort .exchange) 0 t ∧ ExchangeLatched b t ∧
          ((s.bay b).xu.write = .busyMarked →
            areaItem s (.bayStatus b) (bayStatusOffset b) (bayStatusBytes b s) ∈ issued s t))) ∧
    (s.xu.rackWrite = .idle → exec (.writeError .rackStatus) s = .next s) ∧
    (s.xu.rackWrite ≠ .idle →
      ∃ t, exec (.writeError .rackStatus) s = .next t ∧ ErrorRecorded .writeError none s t ∧ t.bays = s.bays ∧
        t.bus = s.bus ∧ t.xu.rackWrite = (if s.xu.rackWrite = .busyMarked then .busy else .idle) ∧
        (s.xu.rackWrite = .busyMarked → areaItem s .rackStatus 0x0010 (rackStatusBytes s) ∈ issued s t))

/-! ### LOADING -/

/-- LOADING_READ_COMPLETE of the header sets the run's label and, with a step count of 1 to 96, issues the read of the
first setup part present or of the first record, each at its place in the slot; a step count outside that refuses the run
with INVALID_RUN and index 0xFF; an abort that has waited for the read is taken with its cause; a setup part or record
read is kept and the reads go on in order to the text area (R2, R20, R27, R29, R35, R37, R39). Choices of the model it
rests on: notes/assumptions/19.md and 39.md. -/
def Obligations.LoadingReadsInOrder : Prop :=
  (∀ (s : State) (b : Bay) (d : List Byte), Up s → (s.bay b).phase ≠ .loading ∨ (s.bay b).run.load = none →
      exec (.loadingReadComplete b d) s = .next s) ∧
  ∀ (s : State) (b : Bay) (d : List Byte), Up s → (s.bay b).phase = .loading →
    ∀ l, (s.bay b).run.load = some l → ∀ k, (s.bay b).run.slot = some k →
    (l.read = .header → l.abort = none → 1 ≤ u16At d 0x0C → u16At d 0x0C ≤ 96 →
      exec (.loadingReadComplete b d) s = .next { s with bays := baySet s.bays b { s.bay b with
        status := { (s.bay b).status with label := BitVec.ofNat 32 (u32At d 0x04) }
        run := { (s.bay b).run with
          copy := { (s.bay b).run.copy with header := some (parseHeader d) }
          load := some (loadingRead s (slotOffset b k)
            (if (u16At d 0x0E).testBit 0 then .stimulus else if (u16At d 0x0E).testBit 1 then .schedule
              else if (u16At d 0x0E).testBit 2 then .taps else if (u16At d 0x0E).testBit 3 then .supervision
              else .record 0)) } } }) ∧
    (l.read = .header → l.abort = none → u16At d 0x0C = 0 ∨ 96 < u16At d 0x0C →
      ∃ t, exec (.loadingReadComplete b d) s = .next t ∧ Closed b .refused .invalidRun 0xFF t ∧
        (t.bay b).status.label = BitVec.ofNat 32 (u32At d 0x04) ∧ (t.bay b).run.results = (s.bay b).run.results) ∧
    (∀ cause, l.abort = some cause →
      ∃ t, exec (.loadingReadComplete b d) s = .next t ∧ Closed b .aborted (.abort cause) 0 t ∧
        ∀ seq, l.echo = some seq → (t.bay b).status.echo = .done ∧ (t.bay b).status.echoSeq = seq) ∧
    ∀ h, (s.bay b).run.copy.header = some h → 1 ≤ h.stepCount → h.stepCount ≤ 96 → l.abort = none →
      (l.read = .stimulus → h.hasStimulus = true →
        exec (.loadingReadComplete b d) s = .next { s with bays := baySet s.bays b { s.bay b with
          run := { (s.bay b).run with
            copy := { (s.bay b).run.copy with stimulus := d }
            load := some (loadingRead s (slotOffset b k)
              (if h.hasSchedule then .schedule else if h.hasTaps then .taps
                else if h.hasSupervision then .supervision else .record 0)) } } }) ∧
      (l.read = .schedule → h.hasSchedule = true →
        exec (.loadingReadComplete b d) s = .next { s with bays := baySet s.bays b { s.bay b with
          run := { (s.bay b).run with
            copy := { (s.bay b).run.copy with schedule := d }
            load := some (loadingRead s (slotOffset b k)
              (if h.hasTaps then .taps else if h.hasSupervision then .supervision else .record 0)) } } }) ∧
      (l.read = .taps → h.hasTaps = true →
        exec (.loadingReadComplete b d) s = .next { s with bays := baySet s.bays b { s.bay b with
          run := { (s.bay b).run with
            copy := { (s.bay b).run.copy with taps := d }
            load := some (loadingRead s (slotOffset b k)
              (if h.hasSupervision then .supervision else .record 0)) } } }) ∧
      (l.read = .supervision → h.hasSupervision = true →
        exec (.loadingReadComplete b d) s = .next { s with bays := baySet s.bays b { s.bay b with
          run := { (s.bay b).run with
            copy := { (s.bay b).run.copy with supervision := d }
            load := some (loadingRead s (slotOffset b k) (.record 0)) } } }) ∧
      ∀ i, l.read = .record i → i < h.stepCount →
        exec (.loadingReadComplete b d) s = .next { s with bays := baySet s.bays b { s.bay b with
          run := { (s.bay b).run with
            copy := { (s.bay b).run.copy with records := (s.bay b).run.copy.records ++ [d] }
            load := some (loadingRead s (slotOffset b k)
              (if i + 1 < h.stepCount then .record (i + 1) else .text)) } } }

/-- The last read of LOADING validates the run. A valid one has its setup parts loaded, keeps the absent ones, has its
channels' values, forms and staircase steps, its schedule's working parts and its taps set as the loads of those parts
say, enters CHECKING and asks for the ident read, or with the bus FAILED is refused with FIXTURE_BUS; a failed check on
the header or setup refuses it with index 0xFF; a failed check on a step refuses it with that step's index and an ERROR
result with the check's detail code, whose start time is a free value (notes/assumptions/7.md) (R30, R36, R37, R40, R41,
R66, R96, R113, R143, R183, R184). Choices of the model it rests on: notes/assumptions/18.md, 26.md, 60.md,
65.md and 67.md. -/
def Obligations.ValidationDecidesTheRun : Prop :=
  ∀ (s : State) (b : Bay) (d : List Byte), Up s → (s.bay b).phase = .loading →
    ∀ l, (s.bay b).run.load = some l → l.read = .text → l.abort = none → ∀ h, (s.bay b).run.copy.header = some h →
    1 ≤ h.stepCount → h.stepCount ≤ 96 →
    (textOffsetValid h.passText = false ∨ textOffsetValid h.failText = false →
      ∃ t, exec (.loadingReadComplete b d) s = .next t ∧ Closed b .refused .invalidRun 0xFF t) ∧
    (textOffsetValid h.passText = true → textOffsetValid h.failText = true →
      (setupAfter h (s.bay b) = none →
        ∃ t, exec (.loadingReadComplete b d) s = .next t ∧ Closed b .refused .invalidRun 0xFF t) ∧
      ∀ x, setupAfter h (s.bay b) = some x →
        (∀ i detail, parseSteps d 0 (s.bay b).run.copy.records = .error (i, detail) →
          ∃ t w, exec (.loadingReadComplete b d) s = .next t ∧ Closed b .refused .invalidRun i t ∧
            ⟨i, tagOf (s.bay b).run i, .error, detail, 0, 0, w, s.rackTime, List.replicate 4 (.none, 0)⟩
              ∈ (t.bay b).run.results) ∧
        ∀ steps, parseSteps d 0 (s.bay b).run.copy.records = .ok steps →
          (s.bus.state = .failed →
            ∃ t, exec (.loadingReadComplete b d) s = .next t ∧ Closed b .refused .fixtureBus 0 t) ∧
          (s.bus.state ≠ .failed → ∃ t, exec (.loadingReadComplete b d) s = .next t ∧ (t.bay b).phase = .checking ∧
            (t.bay b).run.load = none ∧ (t.bay b).run.copy.steps = steps ∧ (t.bay b).run.identMark = true ∧
            (t.bay b).stim.setup = (if h.hasStimulus then x.1 else (s.bay b).stim.setup) ∧
            (∀ i : Fin 14, (t.bay b).stim.values[i] =
              if h.hasStimulus then x.1.ranges[i].dflt else (s.bay b).stim.values[i]) ∧
            (∀ i : Fin 4, (t.bay b).stim.forms[i] = (if h.hasStimulus then .converted else (s.bay b).stim.forms[i]) ∧
              (t.bay b).stim.stair[i] = (if h.hasStimulus then none else (s.bay b).stim.stair[i])) ∧
            (t.bay b).net.setup = (if h.hasSchedule then x.2.1 else (s.bay b).net.setup) ∧
            (∀ e : Fin 16, (t.bay b).net.work[e].late = 0 ∧
              (t.bay b).net.work[e].bytes = (t.bay b).net.setup.entries[e].bytes ∧
              (t.bay b).net.work[e].on =
                ((t.bay b).net.setup.entries[e].enabled && (t.bay b).net.setup.entries[e].auto) ∧
              (t.bay b).net.work[e].mode = (t.bay b).net.setup.entries[e].mode ∧
              (t.bay b).net.work[e].anchor = none ∧
              ∀ c, (t.bay b).net.setup.entries[e].counter = some c → (t.bay b).net.work[e].counter = c.initial) ∧
            (∀ i : Fin 8,
              (h.hasTaps = true → (t.bay b).net.taps[i].setup = x.2.2.1[i] ∧ (t.bay b).net.taps[i].value = 0 ∧
                (t.bay b).net.taps[i].fresh = false) ∧
              (h.hasTaps = false → (t.bay b).net.taps[i] = (s.bay b).net.taps[i])) ∧
            (t.bay b).supply.setup = (if h.hasSupervision then x.2.2.2 else (s.bay b).supply.setup) ∧
            (t.bay b).supply.on = (s.bay b).supply.on ∧
            ⟨b, .fixtureCheck, 0, .read 14, 0, 0, false⟩ ∈ t.bus.queue ++ t.bus.held))

/-! ### The ends of steps -/

/-- DWELL_END ends a DWELL step whose remaining duration is 0 with DONE, STEP_TIMEOUT a step of any kind whose
remaining timeout is 0 with TIMED_OUT, and STEP_END a step with the end that the block carrying it has to report, each
with the result that R61 gives: DONE for a DRIVE step whose unfinished actions have all reached their targets, CUT when all
were cut; DONE for a DWELL step at 0 and for a JOIN step whose condition holds; NO_ANSWER for a prompt whose answer timeout
has run out; FAIL with NOT_SETTLED for a POWER ON step after 200 boundaries. Before that, for any other end, and for a step
not in flight, nothing changes; FRAME and FIXTURE steps have no end but by their own events (section 2.3; R33, R34, R50 to
R52, R54, R58, R61, R145, R207). Choices of the model it rests on: notes/assumptions/2.md, 29.md and 31.md. -/
def Obligations.StepsEndOnceWithTheirResult : Prop :=
  (∀ (s : State) (b : Bay) (i : Nat), Up s → NoCheckDue b s →
      (findInFlight (s.bay b).run i = none →
        exec (.dwellEnd b i) s = .next s ∧ exec (.stepTimeout b i) s = .next s) ∧
      ∀ e, findInFlight (s.bay b).run i = some e → i < (s.bay b).run.next →
        (∀ n, e.work = .dwell (n + 1) → exec (.dwellEnd b i) s = .next s) ∧
        ((∀ n, e.work ≠ .dwell n) → exec (.dwellEnd b i) s = .next s) ∧
        (e.work = .dwell 0 → ∃ t, exec (.dwellEnd b i) s = .next t ∧
          Ended b ⟨i, e.tag, .done, .none, e.clamped, e.reported, e.start, s.rackTime, List.replicate 4 (.none, 0)⟩ s t) ∧
        (e.timeout ≠ some 0 → exec (.stepTimeout b i) s = .next s) ∧
        (e.timeout = some 0 → ∃ t, exec (.stepTimeout b i) s = .next t ∧
          Ended b ⟨i, e.tag, .timedOut, .none, e.clamped, e.reported, e.start, s.rackTime, workProbes e.work⟩ s t)) ∧
  (∀ (s : State) (b : Bay) (i : Nat) (o : StepOutcome) (d : Detail), Up s → NoCheckDue b s →
      (findInFlight (s.bay b).run i = none → exec (.stepEnd b i o d) s = .next s) ∧
      ∀ e, findInFlight (s.bay b).run i = some e → i < (s.bay b).run.next →
        (dueEnd (s.bay b) e ≠ some (o, d) → exec (.stepEnd b i o d) s = .next s) ∧
        (dueEnd (s.bay b) e = some (o, d) → ∃ t, exec (.stepEnd b i o d) s = .next t ∧
          Ended b ⟨i, e.tag, o, d, e.clamped, e.reported, e.start, s.rackTime, List.replicate 4 (.none, 0)⟩ s t)) ∧
  ∀ (y : BayState) (e : InFlight),
    (∀ left any, e.work = .drive left any →
      ((∃ p ∈ left, ∀ c : Fin 14, ∀ a, y.stim.actions[c] = some a →
          a.step ≠ e.index ∨ a.position ≠ p ∨ a.reached = false) → dueEnd y e = none) ∧
      ((∀ p ∈ left, ∃ c : Fin 14, ∃ a, y.stim.actions[c] = some a ∧ a.step = e.index ∧ a.position = p ∧ a.reached = true) →
        dueEnd y e = some (if left = [] ∧ any = false then (.cut, .superseded) else (.done, .none)))) ∧
    (∀ n, e.work = .dwell n → dueEnd y e = if n = 0 then some (.done, .none) else none) ∧
    (∀ q rest, e.work = .prompt → y.panel.prompts = q :: rest → (∀ x ∈ rest, x.state ≠ .armed) →
      dueEnd y e = if q.state = .armed ∧ q.remaining = some 0 ∧ q.step = e.index then some (.noAnswer, .none) else none) ∧
    (e.work = .prompt → (∀ q ∈ y.panel.prompts, q.state ≠ .armed) → dueEnd y e = none) ∧
    (e.work = .power → y.supply.settle = none → dueEnd y e = none) ∧
    (∀ j, e.work = .power → y.supply.settle = some j →
      dueEnd y e = if 200 ≤ j.count ∧ j.step = e.index then some (.fail, .notSettled) else none) ∧
    (e.work = .join none → dueEnd y e =
      if ∃ g ∈ y.run.inFlight, g.index ≠ e.index then none else some (.done, .none)) ∧
    (∀ n, e.work = .join (some n) → dueEnd y e =
      if ∃ g ∈ y.run.inFlight, g.index ≠ e.index ∧ g.tag = n then none else some (.done, .none)) ∧
    (e.work = .frame → dueEnd y e = none) ∧
    ∀ write expected mask, e.work = .fixture write expected mask → dueEnd y e = none

/-- A counted step that ends failing, with its own STOP_ON_FAIL or the run's STOP_ON_FIRST_FAIL in force, stops the
run: FAIL, NO_DATA, NO_ANSWER, TIMED_OUT and ERROR are failing, and MARGINAL with MARGINAL_IS_FAIL; verdict FAIL, cause
STOPPED_ON_FAIL and that step's index; every other step in flight ends CUT with detail STOPPED, and every step not started
ends SKIPPED. So at the operation that takes the end of any step, and at STEP_TIMEOUT, NOT_SETTLED, KEY_NO, NO_ANSWER and
PERIOD_END. The end of a step that is NOT_COUNTED, or whose outcome is not failing, or with neither option in force, stops
nothing: its result stands and the run goes on (R50, R52, R55, R56, R59 to R61, R136, R145, R203, R207). Choice of the model
it rests on: notes/assumptions/29.md. -/
def Obligations.FailingStepStopsTheRun : Prop :=
  (∀ (s : State) (b : Bay) (i : Nat) (o : StepOutcome) (d : Detail),
      ∀ e, findInFlight (s.bay b).run i = some e →
      (∀ h, StopOnFail (s.bay b).run i h → FailingOutcome h o →
        StoppedBy b i (resultOf e o d s.rackTime) h.stepCount s (endStep b i o d s)) ∧
      (∀ h x record, (s.bay b).run.copy.header = some h → (s.bay b).run.copy.steps[i]? = some x →
        (s.bay b).run.copy.records[i]? = some record →
        recordNotCounted record = true ∨ ¬ FailingOutcome h o ∨ (x.stopOnFail = false ∧ h.stopOnFirstFail = false) →
        ((endStep b i o d s).bay b).phase = (s.bay b).phase ∧
          ((endStep b i o d s).bay b).run.verdict = (s.bay b).run.verdict ∧
          ((endStep b i o d s).bay b).run.results = (s.bay b).run.results ++ [resultOf e o d s.rackTime] ∧
          ((endStep b i o d s).bay b).run.inFlight = (s.bay b).run.inFlight.filter fun g => g.index ≠ i)) ∧
  (∀ (s : State) (b : Bay) (i : Nat), Up s → NoCheckDue b s → ((s.bay b).run.inFlight.map fun e => e.index).Nodup →
      ∀ e, findInFlight (s.bay b).run i = some e → ∀ h, StopOnFail (s.bay b).run i h →
      (e.timeout = some 0 → ∃ t, exec (.stepTimeout b i) s = .next t ∧
        StoppedBy b i (resultOf e .timedOut .none s.rackTime) h.stepCount s t) ∧
      (∀ j, (s.bay b).supply.settle = some j → 200 ≤ j.count → j.step = i → ∃ t, exec (.notSettled b) s = .next t ∧
        StoppedBy b i (resultOf e .fail .notSettled s.rackTime) h.stepCount s t) ∧
      ∀ q rest, (s.bay b).panel.prompts = q :: rest → q.state = .armed → q.step = i →
        ((s.bay b).phase = .running → q.form = .ask → ∃ t, exec (.keyNo b) s = .next t ∧
          StoppedBy b i (resultOf e .fail .none s.rackTime) h.stepCount s t) ∧
        (q.remaining = some 0 → ∃ t, exec (.noAnswer b) s = .next t ∧
          StoppedBy b i (resultOf e .noAnswer .none s.rackTime) h.stepCount s t)) ∧
  ∀ (s : State) (b : Bay) (i : Nat), Up s → OnlyCheckDue b i s →
    ((s.bay b).run.inFlight.map fun e => e.index).Nodup →
    ∀ e, findInFlight (s.bay b).run i = some e → ∀ c, e.work = .check c → c.period ≤ c.k →
    ∀ h, StopOnFail (s.bay b).run i h → FailingOutcome h (checkOutcome (c.probes.map decideProbe)) →
    ∃ t, exec (.periodEnd b i) s = .next t ∧
      StoppedBy b i ⟨i, e.tag, checkOutcome (c.probes.map decideProbe), checkDetail c, e.clamped, e.reported, e.start,
        s.rackTime, probeEntries (c.probes.map decideProbe)⟩ h.stepCount s t

/-- CHECK_EARLY_DECISION ends a CHECK step when all its probes are decided, and PERIOD_END one whose counted boundaries
have reached its period, and STEP_END takes that end too, with the worst of its probes' outcomes, every pending probe
decided, and the probe entries in its result, whatever other CHECK steps are due; otherwise nothing changes. The steps in
flight have distinct indices, as RunLaw states of every lawful state. The due end of
another CHECK step that is not failing is taken with it, even when the first stops the run: both were reported at the
boundary. A JOIN that waits on that step alone ends DONE with it, the run stopped or not (no prompt is the JOIN's): it tests
its condition after each end. So does the walker: with the end of a DWELL step that alone held it, the next step is started
before the end of a CHECK step due at that boundary stops the run, and so does not end SKIPPED. The timeout of a CHECK step whose own end is due, taken first, ends it TIMED_OUT with its probes as they stand,
whatever other CHECK steps are due (R34, R49, R50, R52, R56, R58, R135 to R137, R140). Choices of the
model it rests on: notes/assumptions/2.md, 29.md, 31.md, 54.md and 64.md. -/
def Obligations.CheckStepEnds : Prop :=
  (∀ (s : State) (b : Bay) (i : Nat), Up s →
      (findInFlight (s.bay b).run i = none →
        exec (.checkEarlyDecision b i) s = .next s ∧ exec (.periodEnd b i) s = .next s) ∧
      (∀ e, findInFlight (s.bay b).run i = some e → (∀ c, e.work ≠ .check c) →
        exec (.checkEarlyDecision b i) s = .next s ∧ exec (.periodEnd b i) s = .next s) ∧
      ∀ e, findInFlight (s.bay b).run i = some e → ∀ c, e.work = .check c →
        ((∃ p ∈ c.probes, p.state = .pending) → exec (.checkEarlyDecision b i) s = .next s) ∧
        (c.k < c.period → exec (.periodEnd b i) s = .next s) ∧
        (i < (s.bay b).run.next → ((s.bay b).run.inFlight.map fun e => e.index).Nodup →
          ((∀ p ∈ c.probes, p.state ≠ .pending) → ∃ t, exec (.checkEarlyDecision b i) s = .next t ∧
            Ended b ⟨i, e.tag, checkOutcome c.probes, checkDetail c, e.clamped, e.reported, e.start, s.rackTime,
              probeEntries c.probes⟩ s t) ∧
          (c.period ≤ c.k → ∃ t, exec (.periodEnd b i) s = .next t ∧
            Ended b ⟨i, e.tag, checkOutcome (c.probes.map decideProbe), checkDetail c, e.clamped, e.reported, e.start,
              s.rackTime, probeEntries (c.probes.map decideProbe)⟩ s t) ∧
          (c.period ≤ c.k ∨ (∀ p ∈ c.probes, p.state ≠ .pending) → e.timeout = some 0 →
            ∃ t, exec (.stepTimeout b i) s = .next t ∧
              Ended b ⟨i, e.tag, .timedOut, .none, e.clamped, e.reported, e.start, s.rackTime,
                probeEntries c.probes⟩ s t))) ∧
  (∀ (s : State) (b : Bay) (i : Nat) (o : StepOutcome) (d : Detail), Up s →
      ∀ e, findInFlight (s.bay b).run i = some e → ∀ c, e.work = .check c →
      ((c.k < c.period ∧ ∃ p ∈ c.probes, p.state = .pending) ∨ o ≠ checkOutcome (c.probes.map decideProbe) ∨
          d ≠ checkDetail c → exec (.stepEnd b i o d) s = .next s) ∧
      (c.period ≤ c.k ∨ (∀ p ∈ c.probes, p.state ≠ .pending) → i < (s.bay b).run.next →
        ((s.bay b).run.inFlight.map fun e => e.index).Nodup → o = checkOutcome (c.probes.map decideProbe) → d = checkDetail c → ∃ t, exec (.stepEnd b i o d) s = .next t ∧
        Ended b ⟨i, e.tag, o, d, e.clamped, e.reported, e.start, s.rackTime,
          probeEntries (c.probes.map decideProbe)⟩ s t)) ∧
  (∀ (s : State) (b : Bay) (i j n : Nat), Up s → i ≠ j → (s.bay b).run.next = n → i < n → j < n →
      (s.bay b).phase = .running → (s.bay b).run.inFlight.length ≤ 4 →
      (∀ g ∈ (s.bay b).run.inFlight, g.index < n ∧ (g.index ≠ i → g.overlap = true ∧ ∀ w, g.work ≠ .join w)) →
      ((s.bay b).run.inFlight.map fun e => e.index).Nodup →
      ∀ e, findInFlight (s.bay b).run i = some e → e.work = .dwell 0 →
      ∀ f, findInFlight (s.bay b).run j = some f → ∀ x, f.work = .check x → x.period ≤ x.k → OnlyCheckDue b j s →
      ∀ h, StopOnFail (s.bay b).run j h → FailingOutcome h (checkOutcome (x.probes.map decideProbe)) →
      n < h.stepCount → (s.bay b).run.copy.steps[n]? ≠ none → (∀ y ∈ (s.bay b).run.results, y.index ≠ n) →
      ∃ t, exec (.dwellEnd b i) s = .next t ∧ Closed b .fail .stoppedOnFail j t ∧
        Ended b ⟨i, e.tag, .done, .none, e.clamped, e.reported, e.start, s.rackTime, List.replicate 4 (.none, 0)⟩ s t ∧
        Ended b ⟨j, f.tag, checkOutcome (x.probes.map decideProbe), checkDetail x, f.clamped, f.reported, f.start,
          s.rackTime, probeEntries (x.probes.map decideProbe)⟩ s t ∧
        ∃ y ∈ (t.bay b).run.results, y.index = n ∧ y.outcome ≠ .skipped ∧ y.start = s.rackTime) ∧
  ∀ (s : State) (b : Bay) (i j : Nat), Up s → i ≠ j → j < (s.bay b).run.next →
    ((s.bay b).run.inFlight.map fun e => e.index).Nodup →
    ∀ e, findInFlight (s.bay b).run i = some e → ∀ c, e.work = .check c → c.period ≤ c.k →
    ∀ f, findInFlight (s.bay b).run j = some f → ∀ x, f.work = .check x →
    x.period ≤ x.k ∨ (∀ p ∈ x.probes, p.state ≠ .pending) →
    ∀ h, (s.bay b).run.copy.header = some h → ¬ FailingOutcome h (checkOutcome (x.probes.map decideProbe)) →
    ∃ t, exec (.periodEnd b i) s = .next t ∧
      Ended b ⟨j, f.tag, checkOutcome (x.probes.map decideProbe), checkDetail x, f.clamped, f.reported, f.start,
        s.rackTime, probeEntries (x.probes.map decideProbe)⟩ s t ∧
      ∀ k, k < (s.bay b).run.next → ∀ g, findInFlight (s.bay b).run k = some g → g.work = .join (some f.tag) →
        (∀ y ∈ (s.bay b).run.inFlight, y.index ≠ j → y.index ≠ k → y.tag ≠ f.tag ∧ ∀ w, y.work ≠ .join w) →
        (∀ q ∈ (s.bay b).panel.prompts, q.step ≠ k) →
        Ended b ⟨k, g.tag, .done, .none, g.clamped, g.reported, g.start, s.rackTime, List.replicate 4 (.none, 0)⟩ s t

/-- A pending probe at a counted boundary: a stale sample is skipped but marked; a fresh one enters the filter, whose mean
over the last samples acts by the probe's mode. HOLD counts a run outside its window, a violation at its deglitch, and inside
marks a margin after a shorter run or in the guard zone; REACH counts a run inside and is decided at its deglitch, MARGINAL
in the guard zone; COUNT counts the rises from below to above. At the end of its period: NO_DATA without a fresh sample or
with a stale last one; HOLD fails on a violation, is marginal on a margin, and passes otherwise; REACH fails; FINAL goes by
the zone of its filtered value; COUNT by its count. A decided probe takes no sample and stays as it is. Worst values go by
margin, the smaller of v − low and high − v: a value offered replaces none, or one of strictly larger margin. HOLD and REACH
offer every filtered value to the period worst; REACH offers one inside or in the guard zone to the run worst too, and one
outside clears the run worst; FINAL and COUNT keep no worst value, a stale sample offers nothing, the decision at period end
keeps both, and the start and a restart clear everything. An entry holds the outcome and the value that the mode names, 0 when
there is none (R121 to R132, R134, R136, R139, R140). Choice of the model it rests on: notes/assumptions/59.md; that HOLD
marks a margin after a shorter run with g = 0 too is the model's choice, by entry 59. -/
def Obligations.ProbesDecidedAtPeriodEnd : Prop :=
  (∀ (p : Probe) (x : Int) (fresh : Bool), p.state ≠ .pending → takeSample x fresh p = p ∧ decideProbe p = p) ∧
  (∀ (p : Probe) (x : Int), p.state = .pending → takeSample x false p = { p with lastStale := true }) ∧
  (∀ (p : Probe) (x : Int) (last : List Int) (v : Int) (outside inGuard : Bool), p.state = .pending →
      last = (p.history ++ [x]).drop (p.history.length + 1 - p.setup.filter) → v = roundDiv last.sum last.length →
      outside = decide (v < p.setup.low ∨ p.setup.high < v) →
      inGuard = (!outside && decide (v < p.setup.low + p.setup.guard ∨ p.setup.high - p.setup.guard < v)) →
      (takeSample x true p).history = last ∧ (takeSample x true p).filtered = some v ∧
      (takeSample x true p).fresh = p.fresh + 1 ∧ (takeSample x true p).lastStale = false ∧
      (takeSample x true p).setup = p.setup ∧
      (p.setup.mode = .hold → (takeSample x true p).state = .pending ∧
        (outside = true → (takeSample x true p).run = min (p.run + 1) (max p.run p.setup.deglitch) ∧
          (takeSample x true p).violation =
            (p.violation || decide ((takeSample x true p).run = p.setup.deglitch)) ∧
          (takeSample x true p).margin = p.margin) ∧
        (outside = false → (takeSample x true p).run = 0 ∧ (takeSample x true p).violation = p.violation ∧
          (takeSample x true p).margin = (p.margin || decide (0 < p.run ∧ p.run < p.setup.deglitch) || inGuard))) ∧
      (p.setup.mode = .reach →
        (outside = true → (takeSample x true p).state = .pending ∧ (takeSample x true p).run = 0) ∧
        (outside = false → (takeSample x true p).run = p.run + 1 ∧
          (takeSample x true p).state =
            if p.run + 1 < p.setup.deglitch then .pending else if inGuard then .marginal else .pass)) ∧
      (let offered := fun worst : Option Int =>
          (match worst with
          | none => some v
          | some w =>
            if min (v - p.setup.low) (p.setup.high - v) < min (w - p.setup.low) (p.setup.high - w) then some v else some w);
        (takeSample x true p).periodWorst =
            (match p.setup.mode with | .hold | .reach => offered p.periodWorst | .final | .count => p.periodWorst) ∧
          (takeSample x true p).runWorst =
            (match p.setup.mode with
            | .reach => if outside then none else offered p.runWorst
            | .hold | .final | .count => p.runWorst)) ∧
      (p.setup.mode = .final → (takeSample x true p).state = .pending) ∧
      (p.setup.mode = .count → (takeSample x true p).state = .pending ∧
        (p.level = .none → (takeSample x true p).count = p.count ∧
          (takeSample x true p).level = if p.setup.low + p.setup.guard ≤ v then .above else .below) ∧
        (p.level = .below →
          (takeSample x true p).count = (if p.setup.low + p.setup.guard ≤ v then p.count + 1 else p.count) ∧
          (takeSample x true p).level = if p.setup.low + p.setup.guard ≤ v then .above else .below) ∧
        (p.level = .above → (takeSample x true p).count = p.count ∧
          (takeSample x true p).level = if v ≤ p.setup.low - p.setup.guard then .below else .above))) ∧
  (∀ setup : ProbeSetup, freshProbe setup = ⟨setup, .pending, [], none, 0, 0, false, false, .none, 0, none, none, false⟩) ∧
  (∀ c : CheckWork, restartCheck c = ⟨0, c.period, true, c.probes.map fun p => freshProbe p.setup⟩) ∧
  (∀ ps : List Probe, ps.length ≤ 4 → (probeEntries ps).length = 4 ∧
      (∀ (i : Nat) (p : Probe), ps[i]? = some p → (probeEntries ps)[i]? = some (p.state,
        match p.setup.mode with
        | .hold => p.periodWorst.getD 0
        | .reach => if p.state = .pass ∨ p.state = .marginal then p.runWorst.getD 0 else p.periodWorst.getD 0
        | .final => p.filtered.getD 0
        | .count => (p.count : Int))) ∧
      ∀ i : Nat, ps.length ≤ i → i < 4 → (probeEntries ps)[i]? = some (.none, 0)) ∧
  ∀ p : Probe, p.state = .pending → decideProbe p = { p with state := (decideProbe p).state } ∧
    (p.fresh = 0 ∨ p.lastStale = true → (decideProbe p).state = .noData) ∧
    (p.fresh ≠ 0 → p.lastStale = false →
      (p.setup.mode = .hold → (decideProbe p).state =
        if p.violation then .fail
        else if p.margin ∨ (0 < p.run ∧ p.run < p.setup.deglitch) then .marginal else .pass) ∧
      (p.setup.mode = .reach → (decideProbe p).state = .fail) ∧
      (∀ v, p.setup.mode = .final → p.filtered = some v → (decideProbe p).state =
        if v < p.setup.low ∨ p.setup.high < v then .fail
        else if v < p.setup.low + p.setup.guard ∨ p.setup.high - p.setup.guard < v then .marginal else .pass) ∧
      (p.setup.mode = .count → (decideProbe p).state =
        if p.setup.countMin ≤ p.count ∧ (p.count : Int) ≤ p.setup.countMax then .pass else .fail))

/-! ### The stimulus unit and the network -/

/-- ACTION_REACHES_TARGET: without an action at its target on the channel nothing changes; an action that is not the
last of its step leaves the channel undriven at its present value and releases its claim; the last one ends the step
DONE (R54, R61, R74). Choices of the model it rests on: notes/assumptions/2.md and 29.md. -/
def Obligations.ActionReachesItsTarget : Prop :=
  ∀ (s : State) (b : Bay) (c : Fin 14), Up s →
    ((∀ a, (s.bay b).stim.actions[c] = some a → a.reached = false) →
      exec (.actionReachesTarget b c) s = .next s) ∧
    ∀ a e left any, (s.bay b).stim.actions[c] = some a → a.reached = true →
      findInFlight (s.bay b).run a.step = some e → e.work = .drive left any → a.step < (s.bay b).run.next →
      NoCheckDue b s →
      ((∃ p ∈ left, p ≠ a.position) → ∃ t, exec (.actionReachesTarget b c) s = .next t ∧
        (t.bay b).stim.actions[c] = none ∧ (t.bay b).stim.values = (s.bay b).stim.values ∧
        (t.bay b).run.claims[c] = none ∧ (t.bay b).run.results = (s.bay b).run.results ∧ t.xu = s.xu ∧ t.bus = s.bus ∧
        findInFlight (t.bay b).run a.step =
          some { e with work := .drive (left.filter fun p => p ≠ a.position) true }) ∧
      ((∀ p ∈ left, p = a.position) → ∃ t, exec (.actionReachesTarget b c) s = .next t ∧
        Ended b ⟨a.step, e.tag, .done, .none, e.clamped, e.reported, e.start, s.rackTime,
          List.replicate 4 (.none, 0)⟩ s t)

/-- One action of a DRIVE step at its start claims its channel, cutting the action in force there, which leaves its
step's unfinished actions. The new action starts from the present value with its target clamped into the channel's range
and its time or rate into theirs, which sets its clamped flag; OPEN and SHORT keep the value as their target. It is in force
from then on, but a TIMED or RATE action whose target is its start value reaches it at once: its claim is released and it
leaves its own step's unfinished actions as reached. A level channel takes the form of the action, OPEN and SHORT with the
staircase step to be chosen. The other channels, and all values, stay. An action cut short of its target leaves the value of
its next boundary with the new one, for a boundary of the same event that comes after the claim; where the new one has ended
at once the step is marked as started before it (R53, R54, R61, R68, R70, R74, R76, R78, R83). Choices of the model it rests
on: notes/assumptions/30.md and 58.md. -/
def Obligations.DriveActionClaimsItsChannel : Prop :=
  ∀ (s : State) (b : Bay) (i : Nat) (a : DriveAction) (v0 v1 : Int) (sh : Machine.Shape) (clamped : Bool)
    (older : List Handed),
    v0 = (s.bay b).stim.values[a.channel] →
    v1 = (match a.kind with
      | .value =>
        clampTo (s.bay b).stim.setup.ranges[a.channel].min (s.bay b).stim.setup.ranges[a.channel].max a.target
      | .opened | .shorted => v0) →
    sh = (match a.kind, a.shape with
      | .value, .timed d => .timed (max 1 (min 600000 d))
      | .value, .rate r => .rate (max 1 (min 1000000000 r))
      | _, x => x) →
    clamped = (decide (a.kind = .value) && (decide (v1 ≠ a.target) || decide (sh ≠ a.shape))) →
    older = (match (s.bay b).stim.actions[a.channel] with
      | none => []
      | some old =>
        match old.reached, findInFlight (s.bay b).run old.step with
        | false, some e => ⟨old.step, e.start, e.early, (nextValue old v0).1⟩ :: old.older
        | _, _ => []) →
    (a.kind ≠ .value ∨ a.shape = .step ∨ v1 ≠ v0 →
      ((startAction b i a s).bay b).stim.actions[a.channel] =
          some ⟨i, a.position, a.kind, sh, v0, v1, 0, clamped, false, older⟩ ∧
        ((startAction b i a s).bay b).run.claims[a.channel] = some (i, a.position) ∧
        ∀ e, findInFlight (s.bay b).run i = some e →
          (∀ old, (s.bay b).stim.actions[a.channel] = some old → old.step ≠ i) →
          findInFlight ((startAction b i a s).bay b).run i =
            some { e with clamped := if clamped then e.clamped ||| BitVec.ofNat 4 (2 ^ a.position) else e.clamped }) ∧
    (a.kind = .value → a.shape ≠ .step → v1 = v0 →
      ((startAction b i a s).bay b).stim.actions[a.channel] = none ∧
        ((s.bay b).stim.actions[a.channel] ≠ none ∨ (s.bay b).run.claims[a.channel] = none →
          ((startAction b i a s).bay b).run.claims[a.channel] = none) ∧
        ∀ e, findInFlight (s.bay b).run i = some e → ∀ left any, e.work = .drive left any →
          (∀ old, (s.bay b).stim.actions[a.channel] = some old → old.step ≠ i) →
          findInFlight ((startAction b i a s).bay b).run i = some { e with
            early := e.early || !older.isEmpty
            clamped := if clamped then e.clamped ||| BitVec.ofNat 4 (2 ^ a.position) else e.clamped
            work := .drive (left.filter fun p => p ≠ a.position) true }) ∧
    (∀ l : Fin 4, l.1 + 2 = a.channel.1 →
      ((startAction b i a s).bay b).stim.forms[l] =
          (match a.kind with | .value => .converted | .opened => .opened | .shorted => .shorted) ∧
        ((startAction b i a s).bay b).stim.stair[l] =
          (match a.kind with | .value => (s.bay b).stim.stair[l] | .opened | .shorted => none)) ∧
    (∀ l : Fin 4, l.1 + 2 ≠ a.channel.1 →
      ((startAction b i a s).bay b).stim.forms[l] = (s.bay b).stim.forms[l] ∧
        ((startAction b i a s).bay b).stim.stair[l] = (s.bay b).stim.stair[l]) ∧
    (∀ c : Fin 14, c ≠ a.channel →
      ((startAction b i a s).bay b).stim.actions[c] = (s.bay b).stim.actions[c] ∧
      ((startAction b i a s).bay b).run.claims[c] = (s.bay b).run.claims[c]) ∧
    ((startAction b i a s).bay b).stim.values = (s.bay b).stim.values ∧
    ∀ old, (s.bay b).stim.actions[a.channel] = some old → old.step ≠ i →
      ∀ e, findInFlight (s.bay b).run old.step = some e → ∀ left any, e.work = .drive left any →
      findInFlight ((startAction b i a s).bay b).run old.step =
        some { e with work := .drive (left.filter fun p => p ≠ old.position) (any || old.reached) }

/-- The walker's start of a step puts its entry in flight, with its start time, its timeout and its work, and hands its body
to the block that carries it. DWELL and CHECK start with their durations in range and their probes PENDING. A DRIVE step puts its actions in force
one by one, then turns the lines of its two sets ON and OFF, which reach the line outputs outside the safe state; it stays in
flight while an action is left, and ends DONE at its start with none left. A PROMPT step's prompt joins the tail of its queue
WAITING, with its answer timeout in range; alone, with no display write outstanding and no text waiting, it enters WRITING
and its display write is requested; behind a display write, or a prompt WRITING or ARMED, nothing else changes. A FIXTURE
step's transaction is requested with its module, operation, register index and bytes. With the bus FAILED both end ERROR with
BUS_FAILED at the start; but where that end stops the run while another CHECK step is due, it waits for the due ends, and the
start leaves the step in flight. A FRAME step ends
DONE at its start, with UNUSED_ENTRY for an entry not enabled, LATE for one with late frames, and acts on its entry's working
part: START turns it on, anchored at the next boundary but in STOPPED; STOP turns it off and takes its waiting frame from the
queue; SET_BYTES and INJECT set their field, SILENT taking the waiting frame too. A JOIN step ends DONE at its start when no
other step in flight is one it waits on, and stays otherwise. A POWER ON step puts the supply on at its setting with the
voltage watch disarmed and a judgement begun, and ends the safe state; a POWER OFF step switches the supply off, or changes
nothing with it off, and ends DONE (R32 to R34, R49, R51, R53, R54, R69, R89, R90, R93, R94, R108 to R112, R120, R133, R144
to R146, R162, R166, R191, R205, R208). Choices of the model it rests on: notes/assumptions/11.md, 29.md, 38.md, 42.md,
53.md, 58.md, 62.md and 63.md; that POWER ON replaces a settle judgement in progress is the model's choice, by entry 38. -/
def Obligations.StepsStartInTheirBlocks : Prop :=
  (∀ (s : State) (b : Bay), ∀ x, (s.bay b).run.copy.steps[(s.bay b).run.next]? = some x →
      startStep b s = startBody b (s.bay b).run.next x.body { s with bays := baySet s.bays b { s.bay b with
        run := { (s.bay b).run with
          next := (s.bay b).run.next + 1
          inFlight := (s.bay b).run.inFlight ++ [startEntry (s.bay b).run.next x s.rackTime] } } }) ∧
  (∀ (i : Nat) (x : Step) (now : RackTime),
      startEntry i x now = ⟨i, x.tag, x.overlap, now, false, if x.timeout = 0 then none else some x.timeout, 0, 0,
        (startEntry i x now).work⟩ ∧
      (∀ ms, x.body = .dwell ms → (startEntry i x now).work = .dwell (max 1 (min 600000 ms))) ∧
      ∀ period probes, x.body = .check period probes → ∃ places, (startEntry i x now).work =
        .check ⟨0, max 1 (min 600000 period), false, places⟩ ∧
          places = probes.map (fun p => freshProbe (probeInRange p)) ∧ ∀ p ∈ places, p.state = .pending) ∧
  (∀ (s : State) (b : Bay) (i : Nat) (actions : List DriveAction) (on off : BitVec 16), on &&& off = 0 →
      let u := forAll actions (startAction b i) s
      let t := startBody b i (.drive actions on off) s
      let lines := ((s.bay b).stim.lines ||| on) &&& ~~~off
      (t.bay b).stim = { (u.bay b).stim with
        lines := lines
        lineOut := if (s.bay b).stim.safe then (s.bay b).stim.lineOut else lines } ∧
      ∀ f, findInFlight (u.bay b).run i = some f → ∀ left any, f.work = .drive left any →
        (left ≠ [] → findInFlight (t.bay b).run i = some f) ∧
        (left = [] → any = true →
          Ended b ⟨i, f.tag, .done, .none, f.clamped, f.reported, f.start, s.rackTime, List.replicate 4 (.none, 0)⟩ s t)) ∧
  (∀ (s : State) (b : Bay) (i : Nat) (text : List Byte) (form : PromptForm) (ms : Nat),
      let panel := (s.bay b).panel
      let q : Prompt := ⟨i, form, text, min 3600000 ms, none, .waiting, none⟩
      let t := startBody b i (.prompt text form ms) s
      (panel.display ≠ none ∨ (panel.waitingText = none ∧ ∃ x ∈ panel.prompts, x.state ≠ .waiting) →
        t = { s with bays := baySet s.bays b { s.bay b with panel := { panel with prompts := panel.prompts ++ [q] } } }) ∧
      (panel.display = none → panel.waitingText = none → panel.prompts = [] →
        (s.bay b).phase = .running ∨ (s.bay b).phase = .paused →
        (s.bus.state ≠ .failed →
          Requested ⟨b, .display (.prompt i), 1, .write text, 0, 0, false⟩ s t ∧
          t.bays = baySet s.bays b { s.bay b with
            panel := { panel with prompts := [{ q with state := .writing }], display := some (.prompt i) } }) ∧
        (s.bus.state = .failed → ∀ f, findInFlight (s.bay b).run i = some f → f.work = .prompt → i < (s.bay b).run.next →
          ((∀ e ∈ (s.bay b).run.inFlight, checkDue e = true → endStops (s.bay b).run i .error = false ∧ e.index ≠ i) →
            (t.bay b).panel.prompts = [] ∧
            Ended b ⟨i, f.tag, .error, .bus .busFailed, f.clamped, f.reported, f.start, s.rackTime,
              List.replicate 4 (.none, 0)⟩ s t) ∧
          ((∃ e ∈ (s.bay b).run.inFlight, checkDue e = true) → (∃ h, StopOnFail (s.bay b).run i h) →
            t = { s with bays := baySet s.bays b { s.bay b with panel := { panel with prompts := [q] } } })))) ∧
  (∀ (s : State) (b : Bay) (i : Nat) (m : Fin 16) (write : Bool) (index : Byte) (data expected mask : List Byte),
      let t := startBody b i (.fixture m write index data expected mask) s
      (s.bus.state ≠ .failed →
        Requested ⟨b, .step i, m, if write then .write data else .read data.length, index, 0, false⟩ s t ∧
          t.bays = s.bays) ∧
      (s.bus.state = .failed → ∀ f, findInFlight (s.bay b).run i = some f → f.work = .fixture write expected mask →
        i < (s.bay b).run.next →
        ((∀ e ∈ (s.bay b).run.inFlight, checkDue e = true → endStops (s.bay b).run i .error = false ∧ e.index ≠ i) →
          Ended b ⟨i, f.tag, .error, .bus .busFailed, f.clamped, f.reported, f.start, s.rackTime,
            List.replicate 4 (.none, 0)⟩ s t) ∧
        ((∃ e ∈ (s.bay b).run.inFlight, checkDue e = true) → (∃ h, StopOnFail (s.bay b).run i h) → t = s))) ∧
  (∀ (s : State) (b : Bay) (i : Nat) (e : Fin 16) (act : FrameAction),
      (∀ f, findInFlight (s.bay b).run i = some f → f.work = .frame →
        Ended b ⟨i, f.tag, .done,
          if (s.bay b).net.setup.entries[e].enabled = false then .unusedEntry
            else if (s.bay b).net.work[e].late ≠ 0 then .late else .none,
          f.clamped, f.reported, f.start, s.rackTime, List.replicate 4 (.none, 0)⟩ s (startBody b i (.frame e act) s)) ∧
      ((s.bay b).net.setup.entries[e].enabled = false →
        ((startBody b i (.frame e act) s).bay b).net = (s.bay b).net) ∧
      ((s.bay b).net.setup.entries[e].enabled = true →
        let n := (s.bay b).net
        let t := startBody b i (.frame e act) s
        let kept := n.queue.filter fun q =>
          q.entry ≠ e || (match n.attempt with | some a => decide (a.entry = e) | none => false)
        (act = .start → n.work[e].on = false → n.state ≠ .stopped →
          (t.bay b).net = { n with work := tabSet n.work e { n.work[e] with
            on := true
            anchor := some (s.rackTime + 1)
            untilRelease := n.setup.entries[e].phase + 1
            due := false } }) ∧
        (act = .start → n.work[e].on = false → n.state = .stopped →
          (t.bay b).net = { n with work := tabSet n.work e { n.work[e] with on := true } }) ∧
        (act = .start → n.work[e].on = true → (t.bay b).net = n) ∧
        (act = .stop → n.work[e].on = true →
          (t.bay b).net = { n with
            work := tabSet n.work e { n.work[e] with on := false, anchor := none, untilRelease := 0, due := false }
            queue := kept }) ∧
        (act = .stop → n.work[e].on = false → (t.bay b).net = n) ∧
        (∀ bytes, act = .setBytes bytes →
          (t.bay b).net = { n with work := tabSet n.work e { n.work[e] with bytes := bytes } }) ∧
        ∀ mode, act = .inject mode →
          (t.bay b).net = { n with
            work := tabSet n.work e { n.work[e] with mode := mode }
            queue := if mode = .silent then kept else n.queue })) ∧
  (∀ (s : State) (b : Bay) (i : Nat) (tag : Option Nat), ∀ f, findInFlight (s.bay b).run i = some f → f.work = .join tag →
      ((s.bay b).run.inFlight.map fun e => e.index).Nodup →
      (∀ g ∈ (s.bay b).run.inFlight, g.index ≠ i → ∀ x, g.work ≠ .join x) →
      ((∃ g ∈ (s.bay b).run.inFlight, g.index ≠ i ∧ ∀ n, tag = some n → g.tag = n) →
        startBody b i (.join tag) s = s) ∧
      ((∀ g ∈ (s.bay b).run.inFlight, g.index ≠ i → ∃ n, tag = some n ∧ g.tag ≠ n) →
        Ended b ⟨i, f.tag, .done, .none, f.clamped, f.reported, f.start, s.rackTime, List.replicate 4 (.none, 0)⟩ s
          (startBody b i (.join tag) s))) ∧
  (∀ (s : State) (b : Bay) (i v : Nat),
      let t := startBody b i (.power true v) s
      (t.bay b).supply = { (s.bay b).supply with
        armed := false
        setting := if v = 0 then (s.bay b).supply.setup.nominal else max 6000 (min 18000 v)
        on := true
        settle := some ⟨i, 0⟩
        watches := { (s.bay b).supply.watches with
          undervoltage := { (s.bay b).supply.watches.undervoltage with count := 0, recognized := false }
          overvoltage := { (s.bay b).supply.watches.overvoltage with count := 0, recognized := false } } } ∧
      (t.bay b).phase = (s.bay b).phase ∧ (t.bay b).run.results = (s.bay b).run.results ∧
      (t.bay b).run.inFlight.map (fun e => (e.index, e.work)) = (s.bay b).run.inFlight.map (fun e => (e.index, e.work)) ∧
      ((s.bay b).stim.safe = false → (t.bay b).stim = (s.bay b).stim ∧ (t.bay b).net = (s.bay b).net) ∧
      ((s.bay b).stim.safe = true → (t.bay b).stim.safe = false ∧ (t.bay b).stim.lineOut = (s.bay b).stim.lines ∧
        (t.bay b).stim.values = (s.bay b).stim.values ∧ (t.bay b).net.state = .live ∧
        ∀ e : Fin 16, (s.bay b).net.work[e].on = true → (t.bay b).net.work[e].anchor = some (s.rackTime + 1))) ∧
  ∀ (s : State) (b : Bay) (i v : Nat), ∀ f, findInFlight (s.bay b).run i = some f → f.work = .power →
    let t := startBody b i (.power false v) s
    Ended b ⟨i, f.tag, .done, .none, f.clamped, f.reported, f.start, s.rackTime, List.replicate 4 (.none, 0)⟩ s t ∧
      (t.bay b).supply.on = false ∧ (t.bay b).supply.setting = (s.bay b).supply.setting ∧
      (t.bay b).phase = (s.bay b).phase ∧
      ((s.bay b).supply.on = false → (t.bay b).supply = (s.bay b).supply ∧ (t.bay b).stim = (s.bay b).stim ∧
        (t.bay b).net = (s.bay b).net) ∧
      ((s.bay b).supply.on = true → (t.bay b).supply.armed = false ∧ (t.bay b).supply.settle = none ∧
        (t.bay b).stim.safe = true ∧ (t.bay b).net.state = .stopped)

/-- PULSE_PERIOD_END: the next period of a running generator has round(50,000,000,000 / f) ticks for the latest
frequency f in millihertz and a high time of its duty, at least one tick; with the frequency stopped the generator is
STOPPED; a stopped one stays; nothing else changes. The conversions of a boundary compute every pulse frequency, a cap
setting the clamped flag of the action in force there, and start a STOPPED generator whose frequency is not stopped, outside
the safe state; a period in progress goes on (R78 to R81). Choice of the model it rests on: notes/assumptions/2.md. -/
def Obligations.PulsePeriodFollowsFrequency : Prop :=
  (∀ (s : State) (b : Bay) (i : Fin 2), Up s →
      ((s.bay b).stim.generators[i] = .stopped → exec (.pulsePeriodEnd b i) s = .next s) ∧
      ∀ period high, (s.bay b).stim.generators[i] = .running period high →
        ∃ t g, exec (.pulsePeriodEnd b i) s = .next t ∧
          t = { s with bays := baySet s.bays b { s.bay b with stim := { (s.bay b).stim with generators := g } } } ∧
          (∀ j : Fin 2, j ≠ i → g[j] = (s.bay b).stim.generators[j]) ∧
          ((s.bay b).stim.frequency[i] = none → g[i] = .stopped) ∧
          ∀ f, (s.bay b).stim.frequency[i] = some f →
            g[i] = .running (roundDiv 50000000000 f).toNat
              (max 1 (roundDiv (((roundDiv 50000000000 f).toNat : Int) * (s.bay b).stim.setup.pulse[i].duty) 100).toNat)) ∧
  ∀ (s : State) (b : Bay) (i : Fin 2),
    ((convertAll b s).bay b).stim.values = (s.bay b).stim.values ∧
    FrequencyOf ((convertAll b s).bay b).stim i ∧
    (∀ period high, (s.bay b).stim.generators[i] = .running period high →
      ((convertAll b s).bay b).stim.generators[i] = .running period high) ∧
    ((s.bay b).stim.generators[i] = .stopped →
      (s.bay b).stim.safe = true ∨ ((convertAll b s).bay b).stim.frequency[i] = none →
      ((convertAll b s).bay b).stim.generators[i] = .stopped) ∧
    (∀ f, ((convertAll b s).bay b).stim.frequency[i] = some f → (s.bay b).stim.generators[i] = .stopped →
      (s.bay b).stim.safe = false →
      ((convertAll b s).bay b).stim.generators[i] = .running (roundDiv 50000000000 f).toNat
        (max 1 (roundDiv (((roundDiv 50000000000 f).toNat : Int) * (s.bay b).stim.setup.pulse[i].duty) 100).toNat)) ∧
    ∀ a, (s.bay b).stim.actions[pulseChannel i] = some a →
      ∃ x, ((convertAll b s).bay b).stim.actions[pulseChannel i] = some { a with clamped := x } ∧
        (x = true ↔ a.clamped = true ∨ (0 ≤ (s.bay b).stim.values[pulseChannel i] ∧ 20000000 <
          roundDiv ((s.bay b).stim.values[pulseChannel i] * (s.bay b).stim.setup.pulse[i].n) (s.bay b).stim.setup.pulse[i].d))

/-- The conversion of a level output: OPEN in the safe state and in form OPEN, 0 ohms in form SHORT, and otherwise by its
mode. DIRECT gives the value clamped to 10 to 4,000, a clamp setting the clamped flag of the action in force; LINEAR goes by
the points, rounded, and holds beyond the first and the last; STAIRCASE chooses the highest step whose threshold is at most
the value, and from then on rises past thresholds plus H and falls below thresholds less H. The other level outputs and all
values stay. The safe state opens every level output, stops every generator, turns the lines off and has the staircase steps
chosen anew, the values staying (R83 to R87, R89). Choice of the model it rests on: notes/assumptions/43.md. -/
def Obligations.LevelOutputsFollowTheirForms : Prop :=
  (∀ (s : State) (b : Bay) (i : Fin 4),
      ((setLevel b i s).bay b).stim.values = (s.bay b).stim.values ∧
      (∀ j : Fin 4, j ≠ i → ((setLevel b i s).bay b).stim.levelOut[j] = (s.bay b).stim.levelOut[j] ∧
        ((setLevel b i s).bay b).stim.stair[j] = (s.bay b).stim.stair[j]) ∧
      ((s.bay b).stim.safe = true ∨ (s.bay b).stim.forms[i] = .opened →
        ((setLevel b i s).bay b).stim.levelOut[i] = .opened ∧
        ((setLevel b i s).bay b).stim.stair[i] = (s.bay b).stim.stair[i]) ∧
      ((s.bay b).stim.safe = false → (s.bay b).stim.forms[i] = .shorted →
        ((setLevel b i s).bay b).stim.levelOut[i] = .ohms 0) ∧
      ((s.bay b).stim.safe = false → (s.bay b).stim.forms[i] = .converted →
        ∀ v, v = (s.bay b).stim.values[levelChannel i] →
        ((s.bay b).stim.setup.level[i] = .direct →
          ((setLevel b i s).bay b).stim.levelOut[i] = .ohms (max 10 (min 4000 v)) ∧
          ∀ a, (s.bay b).stim.actions[levelChannel i] = some a →
            ((setLevel b i s).bay b).stim.actions[levelChannel i] =
              some { a with clamped := a.clamped || decide (v < 10 ∨ 4000 < v) }) ∧
        (∀ points, (s.bay b).stim.setup.level[i] = .linear points →
          (∀ k p q, points[k]? = some p → points[k + 1]? = some q → p.1 < q.1) →
          (∀ p, points[0]? = some p → v ≤ p.1 → ((setLevel b i s).bay b).stim.levelOut[i] = .ohms p.2) ∧
          (∀ k p q, points[k]? = some p → points[k + 1]? = some q → p.1 ≤ v → v ≤ q.1 →
            ((setLevel b i s).bay b).stim.levelOut[i] =
              .ohms (p.2 + roundDiv ((q.2 - p.2) * (v - p.1)) (q.1 - p.1))) ∧
          ∀ p, points[points.length - 1]? = some p → p.1 ≤ v →
            ((setLevel b i s).bay b).stim.levelOut[i] = .ohms p.2) ∧
        ∀ ohms0 steps h, (s.bay b).stim.setup.level[i] = .staircase ohms0 steps h → 0 ≤ h →
          (∀ k p q, steps[k]? = some p → steps[k + 1]? = some q → p.1 < q.1) →
          ∃ j, ((setLevel b i s).bay b).stim.stair[i] = some j ∧
            (j = 0 → ((setLevel b i s).bay b).stim.levelOut[i] = .ohms ohms0) ∧
            (∀ p, 1 ≤ j → steps[j - 1]? = some p → ((setLevel b i s).bay b).stim.levelOut[i] = .ohms p.2) ∧
            ((s.bay b).stim.stair[i] = none → j ≤ steps.length ∧
              (∀ k p, k < j → steps[k]? = some p → p.1 ≤ v) ∧ ∀ p, steps[j]? = some p → v < p.1) ∧
            ∀ j0, (s.bay b).stim.stair[i] = some j0 → j0 ≤ steps.length →
              j ≤ steps.length ∧
              (j0 < j → (∀ k p, j0 ≤ k → k < j → steps[k]? = some p → p.1 + h ≤ v) ∧
                ∀ p, steps[j]? = some p → v < p.1 + h) ∧
              (j < j0 → (∀ k p, j ≤ k → k < j0 → steps[k]? = some p → v < p.1 - h) ∧
                ∀ p, 1 ≤ j → steps[j - 1]? = some p → p.1 - h ≤ v) ∧
              (j = j0 → (∀ p, steps[j]? = some p → v < p.1 + h) ∧
                ∀ p, 1 ≤ j → steps[j - 1]? = some p → p.1 - h ≤ v))) ∧
  ∀ (u : Stimulus),
    (stimSafe u).safe = true ∧ (stimSafe u).lineOut = 0 ∧ (stimSafe u).values = u.values ∧ (stimSafe u).lines = u.lines ∧
    (stimSafe u).forms = u.forms ∧ (∀ i : Fin 2, (stimSafe u).generators[i] = .stopped) ∧
    ∀ i : Fin 4, (stimSafe u).levelOut[i] = .opened ∧ (stimSafe u).stair[i] = none

/-- RELEASE of an entry: with no release moment due nothing changes; a SILENT entry builds nothing; in NO_PARTNER the
frame is built and discarded; in LIVE a frame with the entry's payload joins the queue when the entry has none there
and fewer than 8 wait, replaces the waiting content and counts late when it has, and is dropped and counted late when
the queue is full; the counter advances but for FREEZE_COUNTER; the rest of the bay's network stays (R98, R99, R101,
R102, R112). Choice of the model it rests on: notes/assumptions/2.md. -/
def Obligations.ReleaseOffersAFrame : Prop :=
  ∀ (s : State) (b : Bay) (e : Fin 16), Up s →
    ((s.bay b).net.work[e].due = false → exec (.release b e) s = .next s) ∧
    ((s.bay b).net.work[e].due = true →
      (s.bay b).net.work[e].mode = .silent ∨ (s.bay b).net.work[e].on = false ∨
        (s.bay b).net.setup.entries[e].enabled = false ∨ (s.bay b).net.state = .stopped →
      exec (.release b e) s = .next { s with bays := baySet s.bays b { s.bay b with net := { (s.bay b).net with
        work := tabSet (s.bay b).net.work e { (s.bay b).net.work[e] with due := false } } } }) ∧
    ((s.bay b).net.work[e].due = true → (s.bay b).net.work[e].mode ≠ .silent → (s.bay b).net.work[e].on = true →
      (s.bay b).net.setup.entries[e].enabled = true → (s.bay b).net.state = .noPartner →
      ∃ t, exec (.release b e) s = .next t ∧ (t.bay b).net.queue = (s.bay b).net.queue ∧
        (t.bay b).net.state = .noPartner ∧ (t.bay b).net.work[e].late = (s.bay b).net.work[e].late ∧
        (∀ c, (s.bay b).net.setup.entries[e].counter = some c → (s.bay b).net.work[e].mode = .normal →
          (t.bay b).net.work[e].counter = ((s.bay b).net.work[e].counter + 1) % c.modulus)) ∧
    ((s.bay b).net.work[e].due = true → (s.bay b).net.work[e].mode ≠ .silent → (s.bay b).net.work[e].on = true →
      (s.bay b).net.setup.entries[e].enabled = true → (s.bay b).net.state = .live →
      ∃ t, exec (.release b e) s = .next t ∧ (t.bay b).net.state = .live ∧
        (t.bay b).net.setup = (s.bay b).net.setup ∧ (t.bay b).net.taps = (s.bay b).net.taps ∧
        (t.bay b).net.attempt = (s.bay b).net.attempt ∧ (t.bay b).stim.values = (s.bay b).stim.values ∧
        (∀ j : Fin 16, j ≠ e → (t.bay b).net.work[j] = (s.bay b).net.work[j]) ∧
        (∀ c, (s.bay b).net.setup.entries[e].counter = some c → (t.bay b).net.work[e].counter =
          if (s.bay b).net.work[e].mode = .freezeCounter then (s.bay b).net.work[e].counter
          else ((s.bay b).net.work[e].counter + 1) % c.modulus) ∧
        ((∀ q ∈ (s.bay b).net.queue, q.entry ≠ e) → (s.bay b).net.queue.length < 8 →
          (t.bay b).net.queue = (s.bay b).net.queue ++ [⟨e, (s.bay b).net.setup.entries[e].id,
            buildPayload (s.bay b).stim e (s.bay b).net.setup.entries[e] (s.bay b).net.work[e], false, false⟩] ∧
          (t.bay b).net.work[e].late = (s.bay b).net.work[e].late) ∧
        ((∀ q ∈ (s.bay b).net.queue, q.entry ≠ e) → 8 ≤ (s.bay b).net.queue.length →
          (t.bay b).net.queue = (s.bay b).net.queue ∧
          (t.bay b).net.work[e].late = lateUp (s.bay b).net.work[e].late) ∧
        ((∃ q ∈ (s.bay b).net.queue, q.entry = e) →
          (t.bay b).net.queue.map (fun q => q.entry) = (s.bay b).net.queue.map (fun q => q.entry) ∧
          (∀ q ∈ (t.bay b).net.queue, q.entry = e →
            q.data = buildPayload (s.bay b).stim e (s.bay b).net.setup.entries[e] (s.bay b).net.work[e]) ∧
          (t.bay b).net.work[e].late = lateUp (s.bay b).net.work[e].late))

/-- The checksum byte of a payload: the identifier's low 8 bits, its high bits, the other bytes and the checksum add to 255
modulo 256; with BAD_CHECKSUM the byte placed is one more, the other bytes are as in NORMAL mode, and the counter advances
as in NORMAL mode (R100). -/
def Obligations.ChecksumAddsTo255 : Prop :=
  ∀ (u : Stimulus) (e : Fin 16) (setup : EntrySetup) (w : EntryWork) (k : Nat),
    setup.checksum = some k → k < setup.length →
    (w.mode ≠ .badChecksum →
      (setup.id % 256 + setup.id / 256 + ((buildPayload u e setup w).map fun x => x.toNat).sum) % 256 = 255) ∧
    (∀ j, j ≠ k → (buildPayload u e setup { w with mode := .badChecksum })[j]? =
      (buildPayload u e setup { w with mode := .normal })[j]?) ∧
    (byteAt (buildPayload u e setup { w with mode := .badChecksum }) k =
      (byteAt (buildPayload u e setup { w with mode := .normal }) k + 1) % 256) ∧
    (advanceCounter setup { w with mode := .badChecksum }).counter =
      (advanceCounter setup { w with mode := .normal }).counter

/-- ATTEMPT_START begins an attempt with the queued frame of lowest identifier, its content fixed; ATTEMPT_END with
ACKED takes the frame out of the queue, unless a release rebuilt it, and clears the failure count; LOST_ARB leaves
both, in NO_PARTNER too, where the state stays as well until the cluster's frame is received; the 32nd NO_ACK or BUS_ERROR
in LIVE enters NO_PARTNER with the queue emptied and the probe timer started; a probe ACKED returns to LIVE and one that
ends NO_ACK or BUS_ERROR leaves the queue with the count unchanged; a frame of an entry OFF or SILENT leaves at the
attempt's end whatever its outcome (R103 to R106, R110, R112). Choices of the model it rests on: notes/assumptions/2.md and 70.md (a probe that lost arbitration to a frame that
ended with an error is still the probe). -/
def Obligations.AttemptsSendAndCount : Prop :=
  ∀ (s : State) (b : Bay), Up s →
    ((s.bay b).net.attempt = none → (s.bay b).net.state ≠ .stopped → (s.bay b).net.queue ≠ [] →
      ∃ t f, exec (.attemptStart b) s = .next t ∧ f ∈ (s.bay b).net.queue ∧
        (∀ q ∈ (s.bay b).net.queue, f.id ≤ q.id) ∧
        t = { s with bays := baySet s.bays b { s.bay b with net := { (s.bay b).net with
          attempt := some ⟨f.entry, f.id, f.data⟩
          queue := (s.bay b).net.queue.map fun q =>
            if q.entry = f.entry then { q with rebuilt := false } else q } } }) ∧
    ((s.bay b).net.attempt ≠ none ∨ (s.bay b).net.queue = [] ∨ (s.bay b).net.state = .stopped →
      exec (.attemptStart b) s = .next s) ∧
    ((s.bay b).net.attempt = none → ∀ o, exec (.attemptEnd b o) s = .next s) ∧
    (∀ a f, (s.bay b).net.attempt = some a → (s.bay b).net.queue.find? (fun q => q.entry = a.entry) = some f →
      (((s.bay b).net.work[a.entry].on = false ∨ (s.bay b).net.work[a.entry].mode = .silent) → ∀ o,
        ∃ t, exec (.attemptEnd b o) s = .next t ∧ ∀ q ∈ (t.bay b).net.queue, q.entry ≠ a.entry) ∧
      ((s.bay b).net.work[a.entry].on = true → (s.bay b).net.work[a.entry].mode ≠ .silent → f.rebuilt = true →
        ∃ t, exec (.attemptEnd b .acked) s = .next t ∧ (t.bay b).net.attempt = none ∧ (t.bay b).net.failures = 0 ∧
          (t.bay b).net.queue.map (fun q => (q.entry, q.data)) =
            (s.bay b).net.queue.map (fun q => (q.entry, q.data))) ∧
      ((s.bay b).net.state = .noPartner → (s.bay b).net.work[a.entry].on = true →
        (s.bay b).net.work[a.entry].mode ≠ .silent → ∃ t, exec (.attemptEnd b .lostArb) s = .next t ∧
          (t.bay b).net = { (s.bay b).net with
            attempt := none
            queue := (s.bay b).net.queue.map fun q => if q.entry = a.entry then { q with rebuilt := false } else q }) ∧
      ((s.bay b).net.state = .noPartner → f.probe = true →
        (∃ t, exec (.attemptEnd b .acked) s = .next t ∧ (t.bay b).net.state = .live ∧ (t.bay b).net.failures = 0 ∧
          (t.bay b).net.probeTimer = none) ∧
        ∀ o, o = .noAck ∨ o = .busError → ∃ t, exec (.attemptEnd b o) s = .next t ∧
          (t.bay b).net.state = .noPartner ∧ (t.bay b).net.failures = (s.bay b).net.failures ∧
          ∀ q ∈ (t.bay b).net.queue, q.entry ≠ a.entry)) ∧
    ∀ a f, (s.bay b).net.attempt = some a → (s.bay b).net.state = .live →
      (s.bay b).net.queue.find? (fun q => q.entry = a.entry) = some f →
      (s.bay b).net.work[a.entry].on = true → (s.bay b).net.work[a.entry].mode ≠ .silent →
      (f.rebuilt = false → exec (.attemptEnd b .acked) s = .next { s with bays := baySet s.bays b { s.bay b with
        net := { (s.bay b).net with
          attempt := none
          failures := 0
          queue := (s.bay b).net.queue.filter fun q => q.entry ≠ a.entry } } }) ∧
      (∃ t, exec (.attemptEnd b .lostArb) s = .next t ∧ (t.bay b).net.failures = (s.bay b).net.failures ∧
        (t.bay b).net.attempt = none ∧
        (t.bay b).net.queue.map (fun q => (q.entry, q.data)) =
          (s.bay b).net.queue.map (fun q => (q.entry, q.data))) ∧
      ∀ o, o = .noAck ∨ o = .busError →
        ((s.bay b).net.failures < 31 → ∃ t, exec (.attemptEnd b o) s = .next t ∧ (t.bay b).net.state = .live ∧
          (t.bay b).net.failures = (s.bay b).net.failures + 1 ∧
          (t.bay b).net.queue.map (fun q => q.entry) = (s.bay b).net.queue.map (fun q => q.entry)) ∧
        ((s.bay b).net.failures = 31 → ∃ t, exec (.attemptEnd b o) s = .next t ∧
          BayBecomes b { s.bay b with net := { (s.bay b).net with
            state := .noPartner, failures := 32, probeTimer := some s.rackTime, attempt := none, queue := [] } } s t)

/-- PROBE_TIMER_EXPIRY in NO_PARTNER, 500 ms after the present period of the probe timer began and not before, begins the
next period there; with an empty queue it makes a probe of the entry of lowest identifier that is enabled, ON and not
SILENT, and none while a frame is queued or without such an entry; RECEIPT in NO_PARTNER returns the network to LIVE; a data
frame with an 11-bit identifier updates the taps in use that name it; TAP_STALE takes the mark of a tap whose timeout
has passed and keeps its value (R92, R105, R106, R107, R114, R115). Choices of the model it rests on: notes/assumptions/2.md,
9.md (the 500 ms are judged by rack time), 35.md and 68.md. -/
def Obligations.ProbesReceiptsAndTaps : Prop :=
  ∀ (s : State) (b : Bay), Up s →
    ((s.bay b).net.state ≠ .noPartner ∨ (s.bay b).net.probeTimer = none → exec (.probeTimerExpiry b) s = .next s) ∧
    (∀ r, (s.bay b).net.probeTimer = some r → (s.rackTime - r).toNat < 500 → exec (.probeTimerExpiry b) s = .next s) ∧
    (∀ r, (s.bay b).net.probeTimer = some r → 500 ≤ (s.rackTime - r).toNat → (s.bay b).net.state = .noPartner →
      (s.bay b).net.queue ≠ [] ∨ (∀ e : Fin 16, (s.bay b).net.setup.entries[e].enabled = false ∨
        (s.bay b).net.work[e].on = false ∨ (s.bay b).net.work[e].mode = .silent) →
      exec (.probeTimerExpiry b) s = .next { s with bays := baySet s.bays b { s.bay b with
        net := { (s.bay b).net with probeTimer := some (r + 500) } } }) ∧
    (∀ r, (s.bay b).net.probeTimer = some r → 500 ≤ (s.rackTime - r).toNat → (s.bay b).net.state = .noPartner →
      (s.bay b).net.queue = [] →
      (∃ e : Fin 16, (s.bay b).net.setup.entries[e].enabled = true ∧ (s.bay b).net.work[e].on = true ∧
        (s.bay b).net.work[e].mode ≠ .silent) →
      ∃ t, ∃ e : Fin 16, exec (.probeTimerExpiry b) s = .next t ∧ (t.bay b).net.probeTimer = some (r + 500) ∧
        (t.bay b).net.state = .noPartner ∧
        (s.bay b).net.setup.entries[e].enabled = true ∧ (s.bay b).net.work[e].on = true ∧
        (s.bay b).net.work[e].mode ≠ .silent ∧
        (∀ j : Fin 16, (s.bay b).net.setup.entries[j].enabled = true → (s.bay b).net.work[j].on = true →
          (s.bay b).net.work[j].mode ≠ .silent →
          (s.bay b).net.setup.entries[e].id ≤ (s.bay b).net.setup.entries[j].id) ∧
        (t.bay b).net.queue = [⟨e, (s.bay b).net.setup.entries[e].id,
          buildPayload (s.bay b).stim e (s.bay b).net.setup.entries[e] (s.bay b).net.work[e], true, false⟩] ∧
        (t.bay b).net.work[e].late = (s.bay b).net.work[e].late) ∧
    (∀ f : RxFrame,
      ((s.bay b).net.state = .stopped → exec (.receipt b f) s = .next s) ∧
      ((s.bay b).net.state = .noPartner → ∃ t, exec (.receipt b f) s = .next t ∧ (t.bay b).net.state = .live ∧
        (t.bay b).net.failures = 0 ∧ (t.bay b).net.probeTimer = none ∧
        (t.bay b).net.queue = (s.bay b).net.queue.map fun q => { q with probe := false }) ∧
      ((s.bay b).net.state ≠ .stopped → ∃ t, exec (.receipt b f) s = .next t ∧ ∀ i : Fin 8,
        ((f.extended = true ∨ f.remote = true ∨ (s.bay b).net.taps[i].setup.inUse = false ∨
            (s.bay b).net.taps[i].setup.id ≠ f.id ∨
            withinFrame (fieldPositions (s.bay b).net.taps[i].setup.field) f.data.length = false) →
          (t.bay b).net.taps[i] = (s.bay b).net.taps[i]) ∧
        (f.extended = false → f.remote = false → (s.bay b).net.taps[i].setup.inUse = true →
          (s.bay b).net.taps[i].setup.id = f.id →
          withinFrame (fieldPositions (s.bay b).net.taps[i].setup.field) f.data.length = true →
          (t.bay b).net.taps[i] = ⟨(s.bay b).net.taps[i].setup,
            clampTo (-1000000000) 1000000000
              (roundDiv (readField f.data (s.bay b).net.taps[i].setup.field * (s.bay b).net.taps[i].setup.resNum)
                (s.bay b).net.taps[i].setup.resDen + (s.bay b).net.taps[i].setup.offset),
            true, s.rackTime⟩))) ∧
    ∀ i : Fin 8,
      ((s.bay b).net.taps[i].fresh = true →
        (s.bay b).net.taps[i].setup.timeout ≤ (s.rackTime + 1 - (s.bay b).net.taps[i].receipt).toNat →
        exec (.tapStale b i) s = .next { s with bays := baySet s.bays b { s.bay b with net := { (s.bay b).net with
          taps := tabSet (s.bay b).net.taps i { (s.bay b).net.taps[i] with fresh := false } } } }) ∧
      ((s.bay b).net.taps[i].fresh = false ∨
        (s.rackTime + 1 - (s.bay b).net.taps[i].receipt).toNat < (s.bay b).net.taps[i].setup.timeout →
        exec (.tapStale b i) s = .next s)

/-! ### The sense unit and the supply monitor -/

/-- FI_RISING_EDGE: a first edge becomes the last edge and keeps the value; a later one, I ticks after it, gives
round(50,000,000,000 / I) clamped to 1,000,000,000, which intervals below 50 ticks give too. FI_EDGE_TIMEOUT sets the
value 0 and no last edge when 100,000,000 ticks will have passed at the coming boundary; nothing else changes (R119).
Choices of the model it rests on: notes/assumptions/2.md and 35.md. -/
def Obligations.FrequencyInputsMeasureIntervals : Prop :=
  ∀ (s : State) (b : Bay) (i : Fin 2), Up s →
    (∀ tick, (s.bay b).fi[i].lastEdge = none → exec (.fiRisingEdge b i tick) s = .next { s with bays := baySet s.bays b { s.bay b with
      fi := tabSet (s.bay b).fi i ⟨some tick, (s.bay b).fi[i].value⟩ } }) ∧
    (∀ tick last, (s.bay b).fi[i].lastEdge = some last → 50 ≤ tick - last →
      exec (.fiRisingEdge b i tick) s = .next { s with bays := baySet s.bays b { s.bay b with
        fi := tabSet (s.bay b).fi i ⟨some tick, min 1000000000 (roundDiv 50000000000 (tick - last : Nat)).toNat⟩ } }) ∧
    (∀ tick last, (s.bay b).fi[i].lastEdge = some last → tick - last < 50 →
      exec (.fiRisingEdge b i tick) s = .next { s with bays := baySet s.bays b { s.bay b with
        fi := tabSet (s.bay b).fi i ⟨some tick, 1000000000⟩ } }) ∧
    (∀ last, (s.bay b).fi[i].lastEdge = some last → 100000000 ≤ s.tick + 50000 - last →
      exec (.fiEdgeTimeout b i) s = .next { s with bays := baySet s.bays b { s.bay b with
        fi := tabSet (s.bay b).fi i ⟨none, 0⟩ } }) ∧
    ((s.bay b).fi[i].lastEdge = none ∨
        (∃ last, (s.bay b).fi[i].lastEdge = some last ∧ s.tick + 50000 - last < 100000000) →
      exec (.fiEdgeTimeout b i) s = .next s)

/-- NOT_SETTLED ends a POWER ON step FAIL with NOT_SETTLED when 200 boundaries have been counted without the supply
inside its window, and nothing before that. CONDITION_RECOGNIZED: without a recognition waiting nothing changes; in
RUNNING a LATCH fault, and a RETRY on LID_OPEN or at the maximum, is latched and aborts the run; a RETRY below it
pauses the bay with the supply off and one more retry, the settle judgement of a POWER ON step in flight being kept; in
PAUSED, ARMING and CLOSING a LATCH or RETRY fault acts as R154, R151 and R157 state; a REPORT fault joins the reported set
and, in RUNNING, PAUSED and ARMING, the steps in flight; OFF does nothing (R144 to R146, R150 to R152, R154, R155, R157).
Choices of the model it rests on: notes/assumptions/2.md, 11.md, 29.md and 34.md. -/
def Obligations.SupplyFaultsByMode : Prop :=
  ∀ (s : State) (b : Bay), Up s → NoCheckDue b s →
    ((∀ j, (s.bay b).supply.settle = some j → j.count < 200) → exec (.notSettled b) s = .next s) ∧
    (∀ j e, (s.bay b).supply.settle = some j → 200 ≤ j.count → findInFlight (s.bay b).run j.step = some e →
      j.step < (s.bay b).run.next → ∃ t, exec (.notSettled b) s = .next t ∧
        Ended b ⟨j.step, e.tag, .fail, .notSettled, e.clamped, e.reported, e.start, s.rackTime, workProbes e.work⟩ s t) ∧
    ∀ c, ((condGet (s.bay b).supply.watches c).pending = false → exec (.conditionRecognized b c) s = .next s) ∧
      ((condGet (s.bay b).supply.watches c).pending = true → (s.bay b).phase = .running → (s.bay b).run.load = none →
        (condGet (s.bay b).supply.setup.modes c = .latch ∨
            (condGet (s.bay b).supply.setup.modes c = .retry ∧
              (c = .lidOpen ∨ (s.bay b).supply.setup.retryMax ≤ (s.bay b).supply.retryCount)) →
          ∃ t, exec (.conditionRecognized b c) s = .next t ∧ Closed b .aborted (.abort (condCause c)) 0 t ∧
            ((t.bay b).phase ≠ .offline → (t.bay b).supply.latched &&& condBit c = condBit c) ∧
            ∀ e ∈ (s.bay b).run.inFlight, Ended b (resultOf e .aborted (.abort (condCause c)) s.rackTime) s t) ∧
        (condGet (s.bay b).supply.setup.modes c = .retry → c ≠ .lidOpen →
          (s.bay b).supply.retryCount < (s.bay b).supply.setup.retryMax → (s.bay b).supply.on = true →
          ∃ t, exec (.conditionRecognized b c) s = .next t ∧ (t.bay b).phase = .paused ∧
            (t.bay b).supply.on = false ∧ (t.bay b).stim.safe = true ∧ (t.bay b).net.state = .stopped ∧
            (t.bay b).supply.retryCount = (s.bay b).supply.retryCount + 1 ∧
            (t.bay b).supply.retry = .offTime 0 ∧ (t.bay b).supply.retryFault = some c ∧
            (t.bay b).run = (s.bay b).run ∧ (t.bay b).supply.settle = (s.bay b).supply.settle)) ∧
      ((condGet (s.bay b).supply.watches c).pending = true →
        (condGet (s.bay b).supply.setup.modes c = .report →
          (s.bay b).phase = .running ∨ (s.bay b).phase = .paused ∨ (s.bay b).phase = .arming →
          ∃ t, exec (.conditionRecognized b c) s = .next t ∧ (t.bay b).phase = (s.bay b).phase ∧
            (t.bay b).supply.on = (s.bay b).supply.on ∧ (t.bay b).supply.retry = (s.bay b).supply.retry ∧
            (t.bay b).supply.reported = (s.bay b).supply.reported ||| condBit c ∧
            (t.bay b).supply.latched = (s.bay b).supply.latched ∧
            (t.bay b).run.results = (s.bay b).run.results ∧
            (t.bay b).run.inFlight =
              (s.bay b).run.inFlight.map fun e => { e with reported := e.reported ||| condBit c }) ∧
        (condGet (s.bay b).supply.setup.modes c = .report → (s.bay b).phase = .closing →
          ∃ t, exec (.conditionRecognized b c) s = .next t ∧ (t.bay b).phase = .closing ∧
            (t.bay b).supply.reported = (s.bay b).supply.reported ||| condBit c ∧
            (t.bay b).supply.latched = (s.bay b).supply.latched ∧ (t.bay b).run = (s.bay b).run) ∧
        (condGet (s.bay b).supply.setup.modes c = .off →
          ∃ t, exec (.conditionRecognized b c) s = .next t ∧ (t.bay b).run = (s.bay b).run ∧
            (t.bay b).phase = (s.bay b).phase ∧ (t.bay b).stim = (s.bay b).stim ∧ (t.bay b).net = (s.bay b).net ∧
            (t.bay b).supply.latched = (s.bay b).supply.latched ∧
            (t.bay b).supply.reported = (s.bay b).supply.reported ∧
            (t.bay b).supply.on = (s.bay b).supply.on ∧ t.xu = s.xu ∧ t.bus = s.bus)) ∧
      ((condGet (s.bay b).supply.watches c).pending = true → (s.bay b).phase = .paused → (s.bay b).run.load = none →
        (condGet (s.bay b).supply.setup.modes c = .latch ∨
            (condGet (s.bay b).supply.setup.modes c = .retry ∧
              (c = .lidOpen ∨ (s.bay b).supply.setup.retryMax ≤ (s.bay b).supply.retryCount)) →
          ∃ t, exec (.conditionRecognized b c) s = .next t ∧ Closed b .aborted (.abort (condCause c)) 0 t) ∧
        (condGet (s.bay b).supply.setup.modes c = .retry → c ≠ .lidOpen →
          (s.bay b).supply.retryCount < (s.bay b).supply.setup.retryMax →
          ∃ t, exec (.conditionRecognized b c) s = .next t ∧ (t.bay b).phase = .paused ∧
            (t.bay b).supply.on = false ∧ (t.bay b).supply.retry = .offTime 0 ∧
            (t.bay b).supply.retryCount = (s.bay b).supply.retryCount + 1 ∧ (t.bay b).run = (s.bay b).run)) ∧
      ((condGet (s.bay b).supply.watches c).pending = true → (s.bay b).phase = .arming → (s.bay b).run.load = none →
        condGet (s.bay b).supply.setup.modes c = .latch ∨ condGet (s.bay b).supply.setup.modes c = .retry →
        ∃ t, exec (.conditionRecognized b c) s = .next t ∧ Closed b .aborted (.abort (condCause c)) 0 t) ∧
      ((condGet (s.bay b).supply.watches c).pending = true → (s.bay b).phase = .closing →
        condGet (s.bay b).supply.setup.modes c = .latch ∨ condGet (s.bay b).supply.setup.modes c = .retry →
        ∃ t, exec (.conditionRecognized b c) s = .next t ∧ (t.bay b).phase = .closing ∧
          (t.bay b).supply.latched = (s.bay b).supply.latched ||| condBit c ∧ (t.bay b).run = (s.bay b).run)

/-- RETRY_OFF_TIME_END switches the supply on for the settle once the retry time has passed, the bay staying PAUSED and
safe; RETRY_SETTLE_FAILED after 200 boundaries acts on the retry's fault as LATCH; before that neither does anything
(R44, R151, R153). Choices of the model it rests on: notes/assumptions/2.md, 48.md and 69.md; that the retry fault is none after the
retry is the model's choice, by entry 48. -/
def Obligations.RetryOffTimeAndSettle : Prop :=
  ∀ (s : State) (b : Bay), Up s →
    (∀ n, (s.bay b).supply.retry = .offTime n →
      ((s.bay b).supply.setup.retryTime ≤ n → exec (.retryOffTimeEnd b) s = .next { s with bays := baySet s.bays b { s.bay b with
        supply := { (s.bay b).supply with on := true, retry := .settling 0 } } }) ∧
      (n < (s.bay b).supply.setup.retryTime → exec (.retryOffTimeEnd b) s = .next s) ∧
      exec (.retrySettleFailed b) s = .next s) ∧
    ((s.bay b).supply.retry = .none →
      exec (.retryOffTimeEnd b) s = .next s ∧ exec (.retrySettleFailed b) s = .next s) ∧
    ∀ n, (s.bay b).supply.retry = .settling n →
      exec (.retryOffTimeEnd b) s = .next s ∧
      (n < 200 → exec (.retrySettleFailed b) s = .next s) ∧
      ∀ c, 200 ≤ n → (s.bay b).supply.retryFault = some c → (s.bay b).phase = .paused → (s.bay b).run.load = none →
        NoCheckDue b s → ∃ t, exec (.retrySettleFailed b) s = .next t ∧ Closed b .aborted (.abort (condCause c)) 0 t ∧
          (t.bay b).supply.retry = .none ∧ (t.bay b).supply.retryFault = none ∧ (t.bay b).supply.retryCount = (s.bay b).supply.retryCount ∧
          ((t.bay b).phase ≠ .offline → (t.bay b).supply.latched &&& condBit c = condBit c)

/-! ### The fixture bus -/

/-- TRANSACTION_BEGIN with the bus IDLE, both lines high and an entry waiting puts the head on the bus, which becomes
ACTIVE, at the speed selected, with the address byte, register index and data of R163 and R164; else nothing changes.
TRANSACTION_END leaves the bus IDLE with both lines high; no byte is sent after a refused one; a FIXTURE step takes its
outcome, and a lamp write frees the lamp. A refused address byte is NO_ACK_ADDR, a refused register index or data
byte NO_ACK_DATA, and none refused DONE (R160, R161, R163, R164, R167, R169, R192, R193, R200). Choices of
the model it rests on: notes/assumptions/2.md and 32.md. -/
def Obligations.TransactionsRunFromTheHead : Prop :=
  (∀ s : State, Up s →
      (s.bus.state ≠ .idle ∨ s.bus.scl = false ∨ s.bus.sda = false ∨ s.bus.queue = [] →
        exec .transactionBegin s = .next s) ∧
      (∀ e rest, s.bus.queue = e :: rest → s.bus.state = .idle → s.bus.onBus = false → s.bus.scl = true →
        s.bus.sda = true → ∃ t wire, exec .transactionBegin s = .next t ∧
          RackBecomes s.xu { s.bus with
            state := .active
            queue := { e with started := true } :: rest
            onBus := true
            wire := wire
            fastInUse := s.bus.fast } s t ∧
          (∀ data, e.op = .write data →
            wire = BitVec.ofNat 8 (2 * (0x20 + 16 * bayNum e.bay + e.module.1)) :: e.index :: data) ∧
          ∀ n, e.op = .read n → wire = [BitVec.ofNat 8 (2 * (0x20 + 16 * bayNum e.bay + e.module.1)), e.index,
            BitVec.ofNat 8 (2 * (0x20 + 16 * bayNum e.bay + e.module.1) + 1)]) ∧
      (s.bus.state ≠ .active ∨ s.bus.onBus = false ∨ s.bus.waitScl ≠ none → ∀ refused data attention,
        exec (.transactionEnd refused data attention) s = .next s) ∧
      (∀ e rest refused data attention, s.bus.queue = e :: rest → s.bus.state = .active → s.bus.onBus = true →
        s.bus.waitScl = none → ∃ t, exec (.transactionEnd refused data attention) s = .next t ∧ t.bus.state = .idle ∧
          t.bus.onBus = false ∧ t.bus.scl = true ∧ t.bus.sda = true ∧ t.bus.countsFrom = s.rackTime ∧
          t.bus.wire = (match refused with | none => s.bus.wire | some i => s.bus.wire.take (i + 1)) ∧
          (∀ c, c ≠ e.bay → t.bay c = s.bay c) ∧
          ∀ i f write expected mask, e.owner = .step i → findInFlight (s.bay e.bay).run i = some f →
            f.work = .fixture write expected mask → i < (s.bay e.bay).run.next → NoCheckDue e.bay s →
            Ended e.bay ⟨i, f.tag,
              if transactionOutcome e refused ≠ .done then .error else if write then .done
                else if maskedMatch expected mask (transactionData e data) then .pass else .fail,
              if transactionOutcome e refused ≠ .done then .bus (transactionOutcome e refused) else if write then .none
                else if maskedMatch expected mask (transactionData e data) then .none else .mismatch,
              f.clamped, f.reported, f.start, s.rackTime, List.replicate 4 (.none, 0)⟩ s t) ∧
      ∀ e rest data attention, s.bus.queue = e :: rest → s.bus.state = .active → s.bus.onBus = true →
        s.bus.waitScl = none → s.bus.held = [] → e.owner = .lamp → (s.bay e.bay).panel.lampWaiting = none →
        (s.bay e.bay).phase ≠ .closing →
        ∃ t, exec (.transactionEnd none data attention) s = .next t ∧ t.bus.queue = rest ∧ t.bus.held = [] ∧
          t.bus.state = .idle ∧ t.bus.onBus = false ∧ t.bus.scl = true ∧ t.bus.sda = true ∧
          t.bus.countsFrom = s.rackTime ∧ (t.bay e.bay).panel = { (s.bay e.bay).panel with lampWrite := none } ∧
          (t.bay e.bay).phase = (s.bay e.bay).phase ∧ (t.bay e.bay).run = (s.bay e.bay).run ∧
          ∀ c, c ≠ e.bay → t.bay c = s.bay c) ∧
  ∀ e : BusEntry, transactionOutcome e none = .done ∧ transactionOutcome e (some 0) = .noAckAddr ∧
    (∀ data, e.op = .write data → ∀ i, 1 ≤ i → i ≤ data.length + 1 → transactionOutcome e (some i) = .noAckData) ∧
    ∀ n, e.op = .read n → transactionOutcome e (some 1) = .noAckData ∧ transactionOutcome e (some 2) = .noAckAddr

/-- What each owner does with the outcome of its transaction. Fixture check: an ident read not DONE refuses the run with
FIXTURE_BUS; read DONE, its values are kept, and a wrong type refuses with FIXTURE_MISMATCH, a service limit that is reached
with SERVICE_DUE; passed, the bay goes to ARMING with WAIT_START, or to RUNNING, or is refused with LID_OPEN with the lid
open; out of CHECKING it is discarded. Cycle-count write: DONE, the count is what was written, and otherwise the failed flag is
set; the verdict's lamp and text are requested. Display write: of a fixed text, whatever its outcome, the waiting text
follows; of a prompt, a NOTE ends DONE and another is ARMED with its answer timeout, and with another outcome the step ends
ERROR with it; of the verdict text, a failure sets the flag. Lamp write: a failure sets the flag, and a waiting one follows.
Key read: DONE, the key acts by its own command and the line is looked at again; otherwise no key is taken until the next
boundary (R41 to R43, R63, R169, R184 to R188, R196, R198, R200 to R203, R206, R208, R211, R212). Choices of the model it
rests on: notes/assumptions/2.md, 29.md, 32.md and 51.md. -/
def Obligations.OwnersTakeTheirOutcomes : Prop :=
  ∀ (s : State) (refused : Option Nat) (data : List Byte) (attention : Bool), Up s → s.bus.state = .active →
    s.bus.onBus = true → s.bus.waitScl = none → ∀ e rest, s.bus.queue = e :: rest →
    ∃ t, exec (.transactionEnd refused data attention) s = .next t ∧
      (e.owner = .fixtureCheck → (s.bay e.bay).phase ≠ .checking → (s.bay e.bay).phase ≠ .closing →
        (t.bay e.bay).phase = (s.bay e.bay).phase ∧
        (t.bay e.bay).run = { (s.bay e.bay).run with identMark := false }) ∧
      (e.owner = .fixtureCheck → (s.bay e.bay).phase = .checking →
        (transactionOutcome e refused ≠ .done → Closed e.bay .refused .fixtureBus 0 t) ∧
        ∀ h, (s.bay e.bay).run.copy.header = some h → transactionOutcome e refused = .done → e.op = .read 14 →
          (t.bay e.bay).status.identType = u16At data 0 ∧
          (t.bay e.bay).status.identSerial = BitVec.ofNat 32 (u32At data 2) ∧
          (t.bay e.bay).status.identCycles = BitVec.ofNat 32 (u32At data 6) ∧
          (h.fixtureType ≠ 0 → h.fixtureType ≠ u16At data 0 → Closed e.bay .refused .fixtureMismatch 0 t) ∧
          (h.fixtureType = 0 ∨ h.fixtureType = u16At data 0 →
            (u32At data 10 ≠ 0 → u32At data 10 ≤ u32At data 6 → h.ignoreService = false →
              Closed e.bay .refused .serviceDue 0 t) ∧
            (u32At data 10 = 0 ∨ u32At data 6 < u32At data 10 ∨ h.ignoreService = true →
              (h.waitStart = true → (t.bay e.bay).phase = .arming) ∧
              (h.waitStart = false → (s.bay e.bay).supply.lidOpen = true →
                Closed e.bay .refused (.abort .lidOpen) 0 t) ∧
              (h.waitStart = false → (s.bay e.bay).supply.lidOpen = false →
                (t.bay e.bay).run.ran = true ∧ (t.bay e.bay).run.startTime = s.rackTime ∧
                (t.bay e.bay).phase ≠ .checking ∧ (t.bay e.bay).phase ≠ .arming)))) ∧
      (e.owner = .cycleCount → (s.bay e.bay).phase = .closing → (s.bay e.bay).run.closing = .cycle →
        (s.bay e.bay).panel.lampWrite = none → (s.bay e.bay).panel.display = none →
        ∀ v, (s.bay e.bay).run.verdict = some v → ∀ x, (s.bay e.bay).run.ident = some x →
          (t.bay e.bay).phase = .closing ∧ (t.bay e.bay).run.closing = .panel ∧
          (transactionOutcome e refused = .done → (t.bay e.bay).status.identCycles = x.cycles + 1 ∧
            (t.bay e.bay).run.cycleAfter = x.cycles + 1) ∧
          (transactionOutcome e refused ≠ .done → (t.bay e.bay).status.cycleFailed = true ∧
            (t.bay e.bay).run.cycleAfter = (s.bay e.bay).run.cycleAfter) ∧
          ⟨e.bay, .lamp, 1, .write [match v with
            | .pass => 0x01 | .fail | .aborted => 0x02 | .refused | .withdrawn => 0x04], 0x40, 0, false⟩
            ∈ t.bus.queue ++ t.bus.held ∧
          (∀ h, (s.bay e.bay).run.copy.header = some h →
            (v = .pass ∧ h.passText ≠ 0 → ⟨e.bay, .display .verdictText, 1,
              .write (bytesAt (s.bay e.bay).run.copy.text h.passText 48), 0, 0, false⟩ ∈ t.bus.queue ++ t.bus.held) ∧
            (v = .fail ∧ h.failText ≠ 0 → ⟨e.bay, .display .verdictText, 1,
              .write (bytesAt (s.bay e.bay).run.copy.text h.failText 48), 0, 0, false⟩ ∈ t.bus.queue ++ t.bus.held)) ∧
          (v = .aborted ∨ v = .refused → (t.bay e.bay).panel.display = none)) ∧
      (∀ text, e.owner = .display (.fixed text) → (s.bay e.bay).phase ≠ .running → (s.bay e.bay).phase ≠ .paused →
        (s.bay e.bay).phase ≠ .closing → (s.bay e.bay).run.inFlight = [] →
        (t.bay e.bay).run = (s.bay e.bay).run ∧ (t.bay e.bay).status = (s.bay e.bay).status ∧
        ((s.bay e.bay).panel.waitingText = none →
          (t.bay e.bay).panel = { (s.bay e.bay).panel with display := none }) ∧
        ∀ next, (s.bay e.bay).panel.waitingText = some next →
          (t.bay e.bay).panel = { (s.bay e.bay).panel with display := some (.fixed next), waitingText := none } ∧
          ⟨e.bay, .display (.fixed next), 1, .write (fixedTextBytes next), 0, 0, false⟩ ∈ t.bus.queue ++ t.bus.held) ∧
      (∀ i, e.owner = .display (.prompt i) → (s.bay e.bay).phase = .running ∨ (s.bay e.bay).phase = .paused →
        NoCheckDue e.bay s → i < (s.bay e.bay).run.next →
        ∀ q, (s.bay e.bay).panel.prompts.find? (fun q => q.step = i && q.state = .writing) = some q →
        ∀ f, findInFlight (s.bay e.bay).run i = some f →
        (transactionOutcome e refused ≠ .done → Ended e.bay ⟨i, f.tag, .error, .bus (transactionOutcome e refused),
          f.clamped, f.reported, f.start, s.rackTime, workProbes f.work⟩ s t) ∧
        (transactionOutcome e refused = .done → q.form = .note → Ended e.bay ⟨i, f.tag, .done, .none,
          f.clamped, f.reported, f.start, s.rackTime, workProbes f.work⟩ s t) ∧
        (transactionOutcome e refused = .done → q.form ≠ .note →
          (t.bay e.bay).phase = (s.bay e.bay).phase ∧ (t.bay e.bay).run = (s.bay e.bay).run ∧
          (t.bay e.bay).panel.prompts = (s.bay e.bay).panel.prompts.map fun x =>
            if x.step = i then
              { x with
                state := .armed
                remaining := if x.timeout = 0 then none else some x.timeout
                armedAt := some s.rackTime }
            else x)) ∧
      (e.owner = .display .verdictText → (s.bay e.bay).phase = .closing → (s.bay e.bay).run.closing = .panel →
        (s.bay e.bay).panel.lampWrite ≠ none →
        (t.bay e.bay).phase = .closing ∧ (t.bay e.bay).run = (s.bay e.bay).run ∧ (t.bay e.bay).panel.display = none ∧
        (transactionOutcome e refused = .done → (t.bay e.bay).status = (s.bay e.bay).status) ∧
        (transactionOutcome e refused ≠ .done → (t.bay e.bay).status.lampFailed = true)) ∧
      (e.owner = .lamp → (s.bay e.bay).phase ≠ .closing →
        (t.bay e.bay).run = (s.bay e.bay).run ∧
        (transactionOutcome e refused ≠ .done → (t.bay e.bay).status.lampFailed = true) ∧
        (transactionOutcome e refused = .done → (t.bay e.bay).status = (s.bay e.bay).status) ∧
        ∀ lamps, (s.bay e.bay).panel.lampWaiting = some lamps →
          (t.bay e.bay).panel = { (s.bay e.bay).panel with lampWrite := some lamps, lampWaiting := none } ∧
          ⟨e.bay, .lamp, 1, .write [lamps], 0x40, 0, false⟩ ∈ t.bus.queue ++ t.bus.held) ∧
      (e.owner = .key → (s.bay e.bay).phase ≠ .closing →
        (t.bay e.bay).panel.attention = attention ∧
        (transactionOutcome e refused ≠ .done → (t.bay e.bay).panel.keyRead = .waitBoundary ∧
          (t.bay e.bay).phase = (s.bay e.bay).phase ∧ (t.bay e.bay).run = (s.bay e.bay).run) ∧
        (transactionOutcome e refused = .done → e.op = .read 1 →
          let u := { s with
            bus := { s.bus with queue := rest, onBus := false, scl := true, sda := true }
            bays := baySet s.bays e.bay { s.bay e.bay with
              panel := { (s.bay e.bay).panel with attention := attention, keyRead := .none } } }
          (data.headD 0 = 1 → KeyActs (.keyYes e.bay) e.bay u t) ∧
          (data.headD 0 = 2 → KeyActs (.keyNo e.bay) e.bay u t) ∧
          (data.headD 0 = 3 → KeyActs (.keyStart e.bay) e.bay u t) ∧
          (data.headD 0 = 4 → KeyActs (.keyAbort e.bay) e.bay u t) ∧
          (data.headD 0 = 0 ∨ 4 < (data.headD 0).toNat → (t.bay e.bay).phase = (s.bay e.bay).phase ∧
            (t.bay e.bay).run = (s.bay e.bay).run ∧
            (attention = false → (t.bay e.bay).panel.keyRead = .none) ∧
            (attention = true → (t.bay e.bay).panel.keyRead = .outstanding ∧
              ⟨e.bay, .key, 1, .read 1, 0x50, 0, false⟩ ∈ t.bus.queue ++ t.bus.held))))

/-- The way of a run through CLOSING. An abort of a run that has reached RUNNING waits for the bay's transaction on the
bus, if there is one, and else requests the write of the cycle count read plus one. When the last verdict write has ended,
a run that is not lost has its header fields written and then FINISHED, is counted finished, and passed or failed by its
verdict, and sets DONE with EVENT_ON_FINISH; a lost one writes neither and is not counted. One of these two writes, or a
result record written at the entry, that the card does not accept records the error and loses the run, with its label: it is
not counted, EXCHANGE is latched, and no header or FINISHED follows a write that failed. The slot is held no more, the other slot is the next one, and the bay enters OFFLINE
when it is disabled, HALTED with ALERT when a fault is latched, and else IDLE with the read of the other slot's ownership
word while RUN = 1 (R2, R11, R12, R17, R20 to R25, R28, R46 to R48, R60, R63, R187). Choices of the model it rests on:
notes/assumptions/2.md, 39.md, 40.md and 49.md. -/
def Obligations.RunsAreHandedBack : Prop :=
  (∀ (s : State) (b : Bay), Up s → NoCheckDue b s → (s.bay b).run.load = none →
      (s.bay b).phase = .running ∨ (s.bay b).phase = .paused → (s.bay b).run.ran = true → s.bus.state ≠ .failed →
      ∀ x, (s.bay b).run.ident = some x →
      ∃ t, exec (.keyAbort b) s = .next t ∧ (t.bay b).phase = .closing ∧
        ((∀ e rest, s.bus.queue = e :: rest → s.bus.onBus = true → e.bay ≠ b) →
          (t.bay b).run.closing = .cycle ∧
          ⟨b, .cycleCount, 0, .write (wordBytes (x.cycles + 1)), 6, 0, false⟩ ∈ t.bus.queue ++ t.bus.held) ∧
        (∀ e rest, s.bus.queue = e :: rest → s.bus.onBus = true → e.bay = b →
          (t.bay b).run.closing = .bus ∧ t.bus.queue.head? = some e ∧
          ∀ g ∈ t.bus.queue.drop 1 ++ t.bus.held, g.bay ≠ b)) ∧
  (∀ (s : State) (b : Bay), Up s → NoCheckDue b s → (s.bay b).run.load = none →
      (s.bay b).phase = .running ∨ (s.bay b).phase = .paused → (s.bay b).run.inFlight ≠ [] → (s.bay b).run.lost = false →
      (s.bay b).run.slot ≠ none → (s.bay b).xu.refused = some .record →
      ∃ t, exec (.keyAbort b) s = .next t ∧ ErrorRecorded .writeError (some b) s t ∧ (t.bay b).run.lost = true ∧
        (t.bay b).status.runLost = true ∧
        (∀ h, (s.bay b).run.copy.header = some h → (t.bay b).status.lostLabel = h.label) ∧ ExchangeLatched b t ∧
        (t.bay b).status.finished = (s.bay b).status.finished ∧
        ∀ i ∈ issued s t, ∀ a d, i ≠ .write (.header b) a d ∧ i ≠ .write (.finished b) a d) ∧
  ∀ (s : State) (refused : Option Nat) (data : List Byte) (attention : Bool), Up s → s.bus.state = .active →
    s.bus.onBus = true → s.bus.waitScl = none → ∀ e rest, s.bus.queue = e :: rest → e.owner = .lamp →
    (s.bay e.bay).phase = .closing → (s.bay e.bay).run.closing = .panel →
    (s.bay e.bay).panel.lampWaiting = none → (s.bay e.bay).panel.display = none →
    (∀ c, (condGet (s.bay e.bay).supply.watches c).pending = false) →
    ∀ k, (s.bay e.bay).run.slot = some k → ∀ v, (s.bay e.bay).run.verdict = some v →
    ∃ t, exec (.transactionEnd refused data attention) s = .next t ∧
      (t.bay e.bay).run.slot = none ∧ (t.bay e.bay).run.inFlight = [] ∧
      (t.bay e.bay).xu.next = otherSlot k ∧
      ((s.bay e.bay).xu.enabled = false →
        (t.bay e.bay).phase = .offline ∧ (t.bay e.bay).supply.latched = 0) ∧
      (t.bay e.bay).xu.refused = none ∧
      ((s.bay e.bay).xu.enabled = true → (s.bay e.bay).supply.latched ≠ 0 →
        (s.bay e.bay).xu.refused = none ∨ (s.bay e.bay).xu.refused = some .record ∨ (s.bay e.bay).run.lost = true →
        (t.bay e.bay).phase = .halted ∧ (t.bay e.bay).supply.latched = (s.bay e.bay).supply.latched ∧
        t.xu.events.getLsbD (4 + bayNum e.bay) = true) ∧
      ((s.bay e.bay).xu.enabled = true → (s.bay e.bay).supply.latched = 0 →
        (s.bay e.bay).xu.refused = none ∨ (s.bay e.bay).xu.refused = some .record ∨ (s.bay e.bay).run.lost = true →
        (t.bay e.bay).phase = .idle ∧
        (t.bay e.bay).xu.backToBack =
          if s.xu.run then some (otherSlot k, areaRead s (slotOffset e.bay (otherSlot k)))
          else (s.bay e.bay).xu.backToBack) ∧
      ((s.bay e.bay).run.lost = true →
        (t.bay e.bay).status.finished = (s.bay e.bay).status.finished ∧
        (t.bay e.bay).status.passed = (s.bay e.bay).status.passed ∧
        (t.bay e.bay).status.failed = (s.bay e.bay).status.failed ∧
        ∀ i ∈ issued s t, ∀ a d, i ≠ .write (.header e.bay) a d ∧ i ≠ .write (.finished e.bay) a d) ∧
      (∀ w, (s.bay e.bay).run.lost = false → (s.bay e.bay).xu.refused = some w → w ≠ .record →
        ErrorRecorded .writeError (some e.bay) s t ∧
        (t.bay e.bay).run.lost = true ∧ (t.bay e.bay).status.runLost = true ∧
        (∀ h, (s.bay e.bay).run.copy.header = some h → (t.bay e.bay).status.lostLabel = h.label) ∧
        (t.bay e.bay).status.finished = (s.bay e.bay).status.finished ∧
        (t.bay e.bay).status.passed = (s.bay e.bay).status.passed ∧
        (t.bay e.bay).status.failed = (s.bay e.bay).status.failed ∧
        ((s.bay e.bay).xu.enabled = true → (t.bay e.bay).phase = .halted ∧
          (t.bay e.bay).supply.latched = (s.bay e.bay).supply.latched ||| 16#8 ∧
          t.xu.events.getLsbD (4 + bayNum e.bay) = true) ∧
        (w = .header → t.xu.events.getLsbD (bayNum e.bay) = s.xu.events.getLsbD (bayNum e.bay) ∧
          ∀ i ∈ issued s t, ∀ a d, i ≠ .write (.finished e.bay) a d) ∧
        (w = .finished → ∀ h, (s.bay e.bay).run.copy.header = some h → h.eventOnFinish = true →
          t.xu.events.getLsbD (bayNum e.bay) = true)) ∧
      ((s.bay e.bay).run.lost = false → (s.bay e.bay).xu.refused = none ∨ (s.bay e.bay).xu.refused = some .record →
        (t.bay e.bay).status.finished = (s.bay e.bay).status.finished + 1 ∧
        (t.bay e.bay).status.passed = (s.bay e.bay).status.passed + (if v = .pass then 1 else 0) ∧
        (t.bay e.bay).status.failed = (s.bay e.bay).status.failed + (if v = .fail then 1 else 0) ∧
        ∀ h, (s.bay e.bay).run.copy.header = some h → h.eventOnFinish = true →
          t.xu.events.getLsbD (bayNum e.bay) = true) ∧
      ((s.bay e.bay).run.lost = false →
        ∀ h, (s.bay e.bay).run.copy.header = some h → 1 ≤ h.stepCount → h.stepCount ≤ 96 →
          (∀ i, i < h.stepCount → (s.bay e.bay).run.copy.records[i]? ≠ none) →
          (issued s t).take (if (s.bay e.bay).xu.refused = some .header then 1 else 2) = ([
            areaItem s (.header e.bay) (slotOffset e.bay k + 0x80)
              ([BitVec.ofNat 8 (verdictCode v), BitVec.ofNat 8 (endCauseCode (s.bay e.bay).run.cause),
                  BitVec.ofNat 8 (s.bay e.bay).run.offending, 0,
                  BitVec.ofNat 8 (countedSteps (s.bay e.bay).run h).length,
                  BitVec.ofNat 8 (stepsCounted (s.bay e.bay).run h fun x =>
                    x.outcome = .done || x.outcome = .pass || (x.outcome = .marginal && !h.marginalIsFail)),
                  BitVec.ofNat 8 (stepsCounted (s.bay e.bay).run h fun x => decide (FailingOutcome h x.outcome)), 0] ++
                wordBytes (s.bay e.bay).run.takeTime ++
                wordBytes (if (s.bay e.bay).run.ran then (s.bay e.bay).run.startTime else 0) ++
                wordBytes (s.bay e.bay).run.endTime ++
                wordBytes (match (s.bay e.bay).run.ident with | some x => x.serial | none => 0) ++
                wordBytes (match (s.bay e.bay).run.ident with | some _ => (s.bay e.bay).run.cycleAfter | none => 0)),
            areaItem s (.finished e.bay) (slotOffset e.bay k) [3, 0, 0, 0]].take
              (if (s.bay e.bay).xu.refused = some .header then 1 else 2)))

/-- STRETCH_TIMEOUT during a transaction records STRETCH_TIMEOUT, takes the head from the queue and waits for SCL; when
it rises the bus is IDLE; SCL held for 25 ms more, and not before, makes it FAILED with cause SCL_HELD, BUSFAIL set and
every entry and held request ended. Of the bytes of the transaction none follows those sent by then, whatever their number.
Without the wait SCL_RISE_AFTER_TIMEOUT and SCL_HELD change nothing, as STRETCH_TIMEOUT does without a
transaction (R165, R169, R171, R177). Choices of the model it rests on: notes/assumptions/2.md, 9.md and 47.md. -/
def Obligations.HeldClockTimesOut : Prop :=
  ∀ s : State, Up s →
    (s.bus.state ≠ .active ∨ s.bus.onBus = false ∨ s.bus.waitScl ≠ none → exec .stretchTimeout s = .next s) ∧
    (∀ e rest, s.bus.queue = e :: rest → s.bus.state = .active → s.bus.onBus = true → s.bus.waitScl = none →
      ∃ t k, exec .stretchTimeout s = .next t ∧ t.bus.state = .active ∧ t.bus.onBus = false ∧ t.bus.waitScl = some s.rackTime ∧
        t.bus.cause = .stretchTimeout ∧ t.bus.scl = false ∧ t.bus.wire = s.bus.wire.take k ∧ ∀ c, c ≠ e.bay → t.bay c = s.bay c) ∧
    (∀ e rest, s.bus.queue = e :: rest → s.bus.state = .active → s.bus.onBus = true → s.bus.waitScl = none →
      e.owner = .lamp → (s.bay e.bay).panel.lampWaiting = none → s.bus.held = [] → (s.bay e.bay).phase ≠ .closing →
      ∃ t, exec .stretchTimeout s = .next t ∧ t.bus.queue = rest ∧ t.bus.state = .active ∧ t.bus.onBus = false ∧
        t.bus.waitScl = some s.rackTime ∧ t.bus.cause = .stretchTimeout ∧ t.bus.scl = false ∧
        (t.bay e.bay).status.lampFailed = true) ∧
    (s.bus.waitScl = none →
      exec .sclHeld s = .next s ∧ ∀ sda, exec (.sclRiseAfterTimeout sda) s = .next s) ∧
    (∀ r, s.bus.waitScl = some r →
      (∀ sda, s.bus.state = .active → ∃ t, exec (.sclRiseAfterTimeout sda) s = .next t ∧
        RackBecomes s.xu { s.bus with
          state := .idle, waitScl := none, scl := true, sda := sda, countsFrom := s.rackTime } s t) ∧
      ((s.rackTime - r).toNat < 25 → exec .sclHeld s = .next s) ∧
      (25 ≤ (s.rackTime - r).toNat → ∃ t, exec .sclHeld s = .next t ∧ t.bus.state = .failed ∧ t.bus.cause = .sclHeld ∧ t.bus.queue = [] ∧
        t.bus.held = [] ∧ t.bus.waitScl = none ∧ t.xu.events.getLsbD 8 = true))

/-- ARBITRATION_LOST makes the bus BUSY_OTHER, sends nothing after the bytes sent by then, whatever their number, and counts
one loss of the head, which stays queued before its third and leaves LOST at it; OTHER_MASTER_START in IDLE makes it BUSY_OTHER, counting a loss only where it meets the part's own
START; OTHER_MASTER_STOP, or 35 ms with SCL high since the lines last changed, makes it IDLE again, a request that joins the
queue meanwhile leaving the count as it is; in the other states they change nothing (R171 to R174). Choices of the model it
rests on: notes/assumptions/2.md, 9.md, 33.md and 47.md. -/
def Obligations.OtherMastersHoldTheBus : Prop :=
  ∀ s : State, Up s →
    (∀ e rest, s.bus.queue = e :: rest → s.bus.state = .active → s.bus.onBus = true → s.bus.waitScl = none →
      e.losses < 2 → ∃ t k, exec .arbitrationLost s = .next t ∧
        RackBecomes s.xu { s.bus with
          state := .busyOther
          queue := { e with losses := e.losses + 1 } :: rest
          onBus := false
          scl := true
          sda := false
          wire := s.bus.wire.take k
          countsFrom := s.rackTime } { s with freeIndex := s.freeIndex + 1 } t) ∧
    (∀ e rest, s.bus.queue = e :: rest → s.bus.state = .active → s.bus.onBus = true → s.bus.waitScl = none →
      2 ≤ e.losses → e.owner = .lamp → (s.bay e.bay).panel.lampWaiting = none → s.bus.held = [] →
      (s.bay e.bay).phase ≠ .closing →
      ∃ t k, exec .arbitrationLost s = .next t ∧ t.bus.state = .busyOther ∧ t.bus.queue = rest ∧ t.bus.onBus = false ∧
        t.bus.wire = s.bus.wire.take k ∧
        (t.bay e.bay).status.lampFailed = true) ∧
    (s.bus.state ≠ .active → exec .arbitrationLost s = .next s) ∧
    (s.bus.state = .idle →
      (∃ t, exec (.otherMasterStart true false) s = .next t ∧
        RackBecomes s.xu { s.bus with state := .busyOther, scl := false, countsFrom := s.rackTime } s t) ∧
      (∃ t, exec (.otherMasterStart false false) s = .next t ∧
        RackBecomes s.xu { s.bus with state := .busyOther, sda := false, countsFrom := s.rackTime } s t) ∧
      ∀ e rest, s.bus.queue = e :: rest → s.bus.onBus = false → s.bus.scl = true → s.bus.sda = true → e.losses < 2 →
        ∃ t, exec (.otherMasterStart false true) s = .next t ∧
          RackBecomes s.xu { s.bus with
            state := .busyOther
            queue := { e with losses := e.losses + 1 } :: rest
            sda := false
            countsFrom := s.rackTime } s t) ∧
    (s.bus.state ≠ .idle → ∀ fell meets, exec (.otherMasterStart fell meets) s = .next s) ∧
    (s.bus.state = .busyOther →
      (∃ t, exec .otherMasterStop s = .next t ∧
        RackBecomes s.xu { s.bus with state := .idle, scl := true, sda := true, countsFrom := s.rackTime } s t) ∧
      ((s.rackTime - s.bus.countsFrom).toNat < 35 → exec .busyOtherTimeout s = .next s) ∧
      (35 ≤ (s.rackTime - s.bus.countsFrom).toNat → s.bus.scl = true →
        ∃ t, exec .busyOtherTimeout s = .next t ∧
          RackBecomes s.xu { s.bus with state := .idle, countsFrom := s.rackTime } s t) ∧
      (35 ≤ (s.rackTime - s.bus.countsFrom).toNat → s.bus.scl = false →
        ∃ t, exec .busyOtherTimeout s = .next t ∧ t.bus.state = .failed ∧ t.bus.cause = .sclHeld ∧
          t.xu.events.getLsbD 8 = true)) ∧
    (s.bus.state = .busyOther → ∀ e t, busRequest e s = some t → t.bus.countsFrom = s.bus.countsFrom) ∧
    (s.bus.state ≠ .busyOther → exec .otherMasterStop s = .next s ∧ exec .busyOtherTimeout s = .next s)

/-- SDA_HELD_TIMEOUT in IDLE, with an entry waiting, SCL high and SDA held low for 35 ms, starts a recovery at the
speed selected. RECOVERY_END brings the bus to IDLE with RECOVERED when the reading at the start of the recovery or one
after at most 9 pulses shows SDA free and SDA is high after the STOP, and to FAILED with SDA_STUCK otherwise: a recovery
makes no more pulses, and a reading beyond those ten counts for nothing; RECOVERY_SCL_TIMEOUT to FAILED with SCL_HELD. At
FAILED every entry and held request has ended BUS_FAILED, also where an older one's end has moved their bay into CLOSING
(R160, R175 to R179, R200, R201).
Choices of the model it rests on: notes/assumptions/2.md, 9.md, 23.md and 61.md; that a recovery's end triggers one write of the rack
status block is the model's choice, by entry 23. -/
def Obligations.RecoveryFreesOrFailsTheBus : Prop :=
  ∀ s : State, Up s →
    (s.bus.state = .idle → s.bus.queue ≠ [] → s.bus.scl = true → s.bus.sda = false →
      (35 ≤ (s.rackTime - s.bus.countsFrom).toNat → ∃ t, exec .sdaHeldTimeout s = .next t ∧
        RackBecomes s.xu { s.bus with state := .recovering, fastInUse := s.bus.fast } s t) ∧
      ((s.rackTime - s.bus.countsFrom).toNat < 35 → exec .sdaHeldTimeout s = .next s)) ∧
    (s.bus.state ≠ .idle ∨ s.bus.queue = [] ∨ s.bus.scl = false ∨ s.bus.sda = true →
      exec .sdaHeldTimeout s = .next s) ∧
    (s.bus.state = .recovering →
      (∀ readings, (∃ x ∈ readings.take 10, x = true) → ∃ t, exec (.recoveryEnd readings true) s = .next t ∧
        RackBecomes s.xu { s.bus with
          state := .idle, recovery := .recovered, scl := true, sda := true, countsFrom := s.rackTime } s t) ∧
      (∀ readings afterStop, exec (.recoveryEnd readings afterStop) s = exec (.recoveryEnd (readings.take 10) afterStop) s) ∧
      (∀ readings afterStop, afterStop = false ∨ (∀ x ∈ readings.take 10, x = false) →
        ∃ t, exec (.recoveryEnd readings afterStop) s = .next t ∧ AllFailed s t ∧ t.bus.cause = .sdaStuck ∧
          t.bus.recovery = .stillFailed) ∧
      ∃ t, exec .recoverySclTimeout s = .next t ∧ AllFailed s t ∧ t.bus.cause = .sclHeld ∧
        t.bus.recovery = .stillFailed) ∧
    (s.bus.state ≠ .recovering → exec .recoverySclTimeout s = .next s ∧
      ∀ readings afterStop, exec (.recoveryEnd readings afterStop) s = .next s)

/-- FIXTURE_BUS_LINE_CHANGE with a level that differs from the one held sets the lines and starts the counts again: in IDLE a
fall of SCL, or of SDA with SCL high, makes the bus BUSY_OTHER; in BUSY_OTHER a rise of SDA with SCL high makes it IDLE; in
ACTIVE a rise of SCL after a TIMEOUT is that event; every other change of a line in these states, and every one in RECOVERING
and FAILED, changes nothing else. With the levels held nothing changes. During a part reset only the lines change (R4, R165,
R171, R172, R176, R177). Choices of the model it rests on: notes/assumptions/2.md and 27.md. -/
def Obligations.LineChangesMoveTheBus : Prop :=
  ∀ (s : State) (scl sda : Bool),
    (s.xu.resetting = true →
      exec (.fixtureBusLineChange scl sda) s = .next { s with bus := { s.bus with scl := scl, sda := sda } }) ∧
    (Up s → scl = s.bus.scl → sda = s.bus.sda → exec (.fixtureBusLineChange scl sda) s = .next s) ∧
    (Up s → scl ≠ s.bus.scl ∨ sda ≠ s.bus.sda →
      (s.bus.state = .recovering ∨ s.bus.state = .failed ∨
          (s.bus.state = .active ∧ (s.bus.waitScl = none ∨ scl = false)) ∨
          (s.bus.state = .idle ∧ (s.bus.scl = false ∨ (scl = true ∧ (sda = true ∨ s.bus.sda = false)))) ∨
          (s.bus.state = .busyOther ∧ (s.bus.scl = false ∨ scl = false ∨ s.bus.sda = true ∨ sda = false)) →
        exec (.fixtureBusLineChange scl sda) s = .next { s with
          bus := { s.bus with scl := scl, sda := sda, countsFrom := s.rackTime } }) ∧
      (s.bus.state = .active → s.bus.waitScl ≠ none → scl = true →
        exec (.fixtureBusLineChange scl sda) s = exec (.sclRiseAfterTimeout sda) s) ∧
      (s.bus.state = .idle → s.bus.scl = true → scl = false ∨ (s.bus.sda = true ∧ sda = false) →
        ∃ t, exec (.fixtureBusLineChange scl sda) s = .next t ∧
          RackBecomes s.xu { s.bus with state := .busyOther, scl := scl, sda := sda, countsFrom := s.rackTime } s t) ∧
      (s.bus.state = .busyOther → s.bus.scl = true → s.bus.sda = false → scl = true → sda = true →
        ∃ t, exec (.fixtureBusLineChange scl sda) s = .next t ∧
          RackBecomes s.xu { s.bus with state := .idle, scl := true, sda := true, countsFrom := s.rackTime } s t))

/-! ### The panel -/

/-- ATTENTION_ASSERTED requests a read of one key, outside CLOSING and with none outstanding; with the bus FAILED the
read waits for the next boundary; in CLOSING only the line changes. YES ends an ARMED ASK prompt PASS and an ARMED ACK
prompt DONE, NO an ARMED ASK prompt FAIL, and an answer timeout run out ends it NO_ANSWER; with no prompt ARMED, or
outside RUNNING, YES and NO are discarded (R162, R196, R201, R203, R206, R207). Choices of the model it rests on:
notes/assumptions/2.md, 29.md and 36.md. -/
def Obligations.AttentionAndAnswerKeys : Prop :=
  (∀ (s : State) (b : Bay),
      (s.xu.resetting = true ∨ (s.bay b).phase = .closing ∨ (s.bay b).panel.keyRead ≠ .none →
        exec (.attentionAsserted b) s = .next { s with bays := baySet s.bays b { s.bay b with
          panel := { (s.bay b).panel with attention := true } } }) ∧
      (Up s → (s.bay b).phase ≠ .closing → (s.bay b).panel.keyRead = .none →
        (s.bus.state = .failed → exec (.attentionAsserted b) s = .next { s with bays := baySet s.bays b { s.bay b with
          panel := { (s.bay b).panel with attention := true, keyRead := .waitBoundary } } }) ∧
        (s.bus.state ≠ .failed → ∃ t, exec (.attentionAsserted b) s = .next t ∧ t.xu = s.xu ∧
          t.bays = baySet s.bays b { s.bay b with
            panel := { (s.bay b).panel with attention := true, keyRead := .outstanding } } ∧
          ⟨b, .key, 1, .read 1, 0x50, 0, false⟩ ∈ t.bus.queue ++ t.bus.held))) ∧
  ∀ (s : State) (b : Bay), Up s → NoCheckDue b s →
    ((s.bay b).phase ≠ .running ∨ (∀ q ∈ (s.bay b).panel.prompts, q.state ≠ .armed) →
      exec (.keyYes b) s = .next s ∧ exec (.keyNo b) s = .next s) ∧
    ((∀ q ∈ (s.bay b).panel.prompts, q.state = .armed → q.remaining ≠ some 0) → exec (.noAnswer b) s = .next s) ∧
    ∀ q rest e, (s.bay b).panel.prompts = q :: rest → q.state = .armed → findInFlight (s.bay b).run q.step = some e →
      q.step < (s.bay b).run.next →
      ((s.bay b).phase = .running → q.form = .ask →
        (∃ t, exec (.keyYes b) s = .next t ∧ Ended b ⟨q.step, e.tag, .pass, .none, e.clamped, e.reported, e.start,
          s.rackTime, workProbes e.work⟩ s t) ∧
        ∃ t, exec (.keyNo b) s = .next t ∧ Ended b ⟨q.step, e.tag, .fail, .none, e.clamped, e.reported, e.start,
          s.rackTime, workProbes e.work⟩ s t) ∧
      ((s.bay b).phase = .running → q.form = .ack →
        exec (.keyNo b) s = .next s ∧
        ∃ t, exec (.keyYes b) s = .next t ∧ Ended b ⟨q.step, e.tag, .done, .none, e.clamped, e.reported, e.start,
          s.rackTime, workProbes e.work⟩ s t) ∧
      (q.remaining = some 0 → ∃ t, exec (.noAnswer b) s = .next t ∧
        Ended b ⟨q.step, e.tag, .noAnswer, .none, e.clamped, e.reported, e.start, s.rackTime, workProbes e.work⟩ s t)

/-- KEY_START in ARMING with the lid closed enters RUNNING, or has left it already when the run ends at once, with the
start time recorded; with the lid open it asks for CLOSE LID, requested at once or, while a display write is outstanding, to
follow it, and the bay stays in ARMING; elsewhere it is discarded.
KEY_ABORT aborts a run with cause OPERATOR, in LOADING once the read in progress has ended, and is discarded where
there is none; the watches of the conditions armed at the abort are kept for a boundary of that event (R35, R42 to R44, R148,
R157, R196, R198, R199, R203, R204). Choices of the model it rests on: notes/assumptions/19.md, 29.md and 58.md. -/
def Obligations.StartAndAbortKeys : Prop :=
  ∀ (s : State) (b : Bay), Up s →
    ((s.bay b).phase ≠ .arming → exec (.keyStart b) s = .next s) ∧
    ((s.bay b).phase = .arming → (s.bay b).supply.lidOpen = true →
      ∃ t, exec (.keyStart b) s = .next t ∧ (t.bay b).phase = .arming ∧ (t.bay b).panel.closeLid = true ∧
        (t.bay b).run = (s.bay b).run ∧ (t.bay b).supply = (s.bay b).supply ∧
        ((s.bay b).panel.display = none → s.bus.state ≠ .failed →
          (t.bay b).panel.display = some (.fixed .closeLid) ∧
          ⟨b, .display (.fixed .closeLid), 1, .write (fixedTextBytes .closeLid), 0, 0, false⟩
            ∈ t.bus.queue ++ t.bus.held) ∧
        ((s.bay b).panel.display ≠ none → (t.bay b).panel.waitingText = some .closeLid)) ∧
    ((s.bay b).phase = .arming → (s.bay b).supply.lidOpen = false →
      ∃ t, exec (.keyStart b) s = .next t ∧ (t.bay b).phase ≠ .arming ∧ (t.bay b).run.ran = true ∧
        (t.bay b).run.startTime = s.rackTime ∧ (t.bay b).panel.closeLid = false) ∧
    (NoCheckDue b s →
      ((s.bay b).phase = .offline ∨ (s.bay b).phase = .idle ∨ (s.bay b).phase = .closing ∨ (s.bay b).phase = .halted →
        exec (.keyAbort b) s = .next s) ∧
      (∀ l, (s.bay b).phase = .loading → (s.bay b).run.load = some l →
        exec (.keyAbort b) s = .next { s with bays := baySet s.bays b { s.bay b with
          run := { (s.bay b).run with load := some { l with abort := some (l.abort.getD .operator) } } } }) ∧
      ((s.bay b).run.load = none →
        (s.bay b).phase = .checking ∨ (s.bay b).phase = .arming ∨ (s.bay b).phase = .running ∨ (s.bay b).phase = .paused →
        ∃ t, exec (.keyAbort b) s = .next t ∧ Closed b .aborted (.abort .operator) 0 t ∧
          (∀ c, condGet (t.bay b).supply.atClosing c =
            if conditionArmed (s.bay b).supply (s.bay b).phase c then some (condGet (s.bay b).supply.watches c) else none) ∧
          ∀ e ∈ (s.bay b).run.inFlight, Ended b (resultOf e .aborted (.abort .operator) s.rackTime) s t))

/-! ### Laws of the device, kept by every step -/

/-- Every step keeps the law of the register window, and the bus quiet while a part reset is in progress (R2, R3, R4, R7,
R20, R21, R180, R214). -/
def Obligations.RegisterLawKept : Prop :=
  ∀ s t : State, Lawful s → step s = .next t → RegisterLaw t.xu ∧ ResetLaw t

/-- Every step keeps the caps of the fixture bus queue and the rule of at most one transaction on the bus (R162, R165,
R166, R173, R177). -/
def Obligations.BusLawKept : Prop := ∀ s t : State, Lawful s → step s = .next t → BusLaw t.bus

/-- Every step keeps the safe state of every bay whose supply output is off, the retry count within the retry maximum, a
retry fault exactly while a retry is in progress, and a settle judgement only of a POWER step in flight (R52, R89, R93,
R142, R144, R145, R152, R153). Choice of the model it rests on: notes/assumptions/48.md. -/
def Obligations.SupplyLawsKept : Prop :=
  ∀ s t : State, Lawful s → step s = .next t → ∀ b, SafeLaw (t.bay b) ∧ RetryLaw (t.bay b)

/-- Every step keeps the law of the run held: at most 4 steps in flight, in order, and one result of a step (R32, R39, R49,
R58, R62). -/
def Obligations.RunLawKept : Prop := ∀ s t : State, Lawful s → step s = .next t → ∀ b, RunLaw (t.bay b)

/-- Every step keeps at most one prompt WRITING or ARMED, and prompts only of PROMPT steps in flight (R198, R205, R209). -/
def Obligations.PromptLawKept : Prop := ∀ s t : State, Lawful s → step s = .next t → ∀ b, PromptLaw (t.bay b)

/-- Every step keeps the bounds of every transmit queue; and every channel's value, with every value that a cut or stopped
action leaves for a boundary, within its minimum and maximum, every ramp between its start value and its target, and every
pulse frequency stopped or between 0.100 Hz and 20,000 Hz (R67, R68,
R72, R73, R76, R77, R79 to R82, R96, R102, R103, R105). -/
def Obligations.StimulusAndQueueLawsKept : Prop :=
  ∀ s t : State, Lawful s → step s = .next t →
    ∀ b, QueueLaw (t.bay b).net ∧ ValueLaw (t.bay b) ∧ PulseLaw (t.bay b).stim

/-! ### Rules of the whole device, over all commands -/

/-- A command that concerns one bay leaves every other bay as it is, and the queue of commands, rack time, the base,
RUN, IRQEN, SCANP, the state of the fixture bus and its lines (R1 to R3, R38, R44, R45, R58, R171). -/
def Obligations.BaysAreIsolated : Prop :=
  ∀ (c : Instr) (b : Bay) (s t : State), bayOf c = some b → exec c s = .next t →
    (∀ o, o ≠ b → t.bay o = s.bay o) ∧ t.pending = s.pending ∧ t.rackTime = s.rackTime ∧ t.tick = s.tick ∧
      t.xu.xbaseLo = s.xu.xbaseLo ∧ t.xu.xbaseHi = s.xu.xbaseHi ∧ t.xu.run = s.xu.run ∧ t.xu.irqen = s.xu.irqen ∧
      t.xu.scanp = s.xu.scanp ∧ t.xu.scanTimer = s.xu.scanTimer ∧ t.xu.rackSeq = s.xu.rackSeq ∧
      t.xu.rackWrite = s.xu.rackWrite ∧ t.bus.state = s.bus.state ∧ t.bus.onBus = s.bus.onBus ∧
      t.bus.cause = s.bus.cause ∧ t.bus.scl = s.bus.scl ∧ t.bus.sda = s.bus.sda ∧ t.bus.fast = s.bus.fast

/-- No result of a run is changed once it stands: every command but a part reset keeps the results of every bay and may
add to them, or takes a new run in IDLE and so empties them (R39, R58, R62). -/
def Obligations.ResultsNeverChange : Prop :=
  ∀ (c : Instr) (s t : State) (b : Bay), resets c = false → exec c s = .next t →
    (s.bay b).run.results <+: (t.bay b).run.results ∨
      ((s.bay b).phase = .idle ∧ (t.bay b).phase = .loading ∧ (t.bay b).run.results = [])

/-- What has been issued stays issued: every command but a part reset only adds to the stream; and an event bit goes back
to 0 only by a write of EVENTS or a part reset (R24, R25). -/
def Obligations.StreamAndEventsOnlyGrow : Prop :=
  ∀ (c : Instr) (s t : State), resets c = false → exec c s = .next t →
    s.xu.stream <+: t.xu.stream ∧
      ((∀ mask, c ≠ .eventsClear mask) → (∀ mask, c ≠ .registerWriteOther 0x010 15 mask) →
        ∀ n, s.xu.events.getLsbD n = true → t.xu.events.getLsbD n = true)

/-- Each EVENTS bit that goes from 0 to 1 while IRQEN = 1 sends one interrupt message, a bit already 1 sends none, with
IRQEN = 0 none is sent, and setting IRQEN sends none (R26). A part reset is not spoken of. In a write of CTRL that changes
IRQEN and a BAYEN bit at once the IRQEN after it counts. Choice of the model it rests on: notes/assumptions/13.md. -/
def Obligations.InterruptPerNewEvent : Prop :=
  ∀ (c : Instr) (s t : State), resets c = false → exec c s = .next t →
    ((issued s t).count .interrupt =
      if t.xu.irqen then
        ((List.range 32).filter fun n => !s.xu.events.getLsbD n && t.xu.events.getLsbD n).length
      else 0) ∧
    ∀ on, c = .irqenWrite on → issued s t = []

/-- Rack time, the tick and the interlock levels change by a boundary only, the base, RUN, IRQEN, SCANP and a BAYEN bit by
their own writes, a bay's four setup parts only at the end of LOADING, and a tap's value only by a receipt or that load; a
part reset apart (00_scope.md, Conventions; R2, R3, R30, R95, R113 to R115, R143, R147). -/
def Obligations.StateChangesOnlyByItsCommands : Prop :=
  (∀ (c : Instr) (s t : State), resets c = false → (∀ v, c ≠ .registerWriteOther 0x008 15 v) → exec c s = .next t →
      ((∀ inputs, c ≠ .millisecondBoundary inputs) →
        t.rackTime = s.rackTime ∧ t.tick = s.tick ∧ ∀ b, (t.bay b).supply.lidOpen = (s.bay b).supply.lidOpen) ∧
      ((∀ half v, c ≠ .xbaseWrite half v) → (∀ v, c ≠ .registerWriteOther 0x000 15 v) →
        (∀ v, c ≠ .registerWriteOther 0x004 15 v) → xbase t.xu = xbase s.xu) ∧
      (c ≠ .runSet → c ≠ .runClear → t.xu.run = s.xu.run) ∧
      ((∀ on, c ≠ .irqenWrite on) → t.xu.irqen = s.xu.irqen) ∧
      ((∀ v, c ≠ .scanpWrite v) → t.xu.scanp = s.xu.scanp) ∧
      ∀ b, c ≠ .bayenSet b → c ≠ .bayDisable b → (t.bay b).xu.enabled = (s.bay b).xu.enabled) ∧
  ∀ (c : Instr) (s t : State) (b : Bay), resets c = false → (∀ d, c ≠ .loadingReadComplete b d) → exec c s = .next t →
    (t.bay b).stim.setup = (s.bay b).stim.setup ∧ (t.bay b).net.setup = (s.bay b).net.setup ∧
      (t.bay b).supply.setup = (s.bay b).supply.setup ∧
      ∀ i : Fin 8, (t.bay b).net.taps[i].setup = (s.bay b).net.taps[i].setup ∧
        ((∀ f, c ≠ .receipt b f) → (t.bay b).net.taps[i].value = (s.bay b).net.taps[i].value)
end

