-- ==== Sys2Proof/Laws/State.lean ====
section
/-! SUPPORT. Laws/State.lean: what each update of one block leaves of the state, one small lemma per field. -/

namespace Sys2Proof.Machine

open Sys2Proof

/-! ### One bay -/

@[simp] theorem bayGet_baySet {α : Type} (t : PerBay α) (b : Bay) (x : α) : bayGet (baySet t b x) b = x := by
  cases b <;> rfl

theorem bayGet_baySet_of_ne {α : Type} (t : PerBay α) {b c : Bay} (h : c ≠ b) (x : α) :
    bayGet (baySet t b x) c = bayGet t c := by
  cases b <;> cases c <;> first | rfl | exact absurd rfl h

@[simp] theorem baySet_baySet {α : Type} (t : PerBay α) (b : Bay) (x y : α) :
    baySet (baySet t b x) b y = baySet t b y := by
  cases b <;> rfl

@[simp] theorem baySet_bayGet {α : Type} (t : PerBay α) (b : Bay) : baySet t b (bayGet t b) = t := by
  cases b <;> rfl

@[simp] theorem bay_modBay (s : State) (b : Bay) (f : BayState → BayState) : (s.modBay b f).bay b = f (s.bay b) := by
  simp [State.modBay, State.bay]

@[simp] theorem bay_modBay_of_ne (s : State) {b c : Bay} (h : c ≠ b) (f : BayState → BayState) :
    (s.modBay b f).bay c = s.bay c := by
  simp [State.modBay, State.bay, bayGet_baySet_of_ne _ h]

/-- Two changes of one bay are one change. -/
theorem modBay_modBay (s : State) (b : Bay) (f g : BayState → BayState) :
    (s.modBay b f).modBay b g = s.modBay b fun y => g (f y) := by
  simp [State.modBay, State.bay]

@[simp] theorem bay_modXu (s : State) (f : Exchange → Exchange) (b : Bay) : (s.modXu f).bay b = s.bay b := rfl
@[simp] theorem bay_modBus (s : State) (f : Bus → Bus) (b : Bay) : (s.modBus f).bay b = s.bay b := rfl

/-! ### modXu -/

@[simp] theorem modXu_pending (s : State) (f : Exchange → Exchange) : (s.modXu f).pending = s.pending := rfl
@[simp] theorem modXu_rackTime (s : State) (f : Exchange → Exchange) : (s.modXu f).rackTime = s.rackTime := rfl
@[simp] theorem modXu_tick (s : State) (f : Exchange → Exchange) : (s.modXu f).tick = s.tick := rfl
@[simp] theorem modXu_freeIndex (s : State) (f : Exchange → Exchange) : (s.modXu f).freeIndex = s.freeIndex := rfl
@[simp] theorem modXu_xu (s : State) (f : Exchange → Exchange) : (s.modXu f).xu = f s.xu := rfl
@[simp] theorem modXu_bus (s : State) (f : Exchange → Exchange) : (s.modXu f).bus = s.bus := rfl
@[simp] theorem modXu_bays (s : State) (f : Exchange → Exchange) : (s.modXu f).bays = s.bays := rfl

/-! ### modBus -/

@[simp] theorem modBus_pending (s : State) (f : Bus → Bus) : (s.modBus f).pending = s.pending := rfl
@[simp] theorem modBus_rackTime (s : State) (f : Bus → Bus) : (s.modBus f).rackTime = s.rackTime := rfl
@[simp] theorem modBus_tick (s : State) (f : Bus → Bus) : (s.modBus f).tick = s.tick := rfl
@[simp] theorem modBus_freeIndex (s : State) (f : Bus → Bus) : (s.modBus f).freeIndex = s.freeIndex := rfl
@[simp] theorem modBus_xu (s : State) (f : Bus → Bus) : (s.modBus f).xu = s.xu := rfl
@[simp] theorem modBus_bus (s : State) (f : Bus → Bus) : (s.modBus f).bus = f s.bus := rfl
@[simp] theorem modBus_bays (s : State) (f : Bus → Bus) : (s.modBus f).bays = s.bays := rfl

/-! ### modBay and the changes of one block of a bay -/

@[simp] theorem modBay_pending (s : State) (b : Bay) (f : BayState → BayState) : (s.modBay b f).pending = s.pending := rfl
@[simp] theorem modBay_rackTime (s : State) (b : Bay) (f : BayState → BayState) : (s.modBay b f).rackTime = s.rackTime := rfl
@[simp] theorem modBay_tick (s : State) (b : Bay) (f : BayState → BayState) : (s.modBay b f).tick = s.tick := rfl
@[simp] theorem modBay_freeIndex (s : State) (b : Bay) (f : BayState → BayState) : (s.modBay b f).freeIndex = s.freeIndex := rfl
@[simp] theorem modBay_xu (s : State) (b : Bay) (f : BayState → BayState) : (s.modBay b f).xu = s.xu := rfl
@[simp] theorem modBay_bus (s : State) (b : Bay) (f : BayState → BayState) : (s.modBay b f).bus = s.bus := rfl

@[simp] theorem bay_modRun (s : State) (b : Bay) (f : RunEngine → RunEngine) :
    (s.modRun b f).bay b = { s.bay b with run := f (s.bay b).run } :=
  bay_modBay s b _

@[simp] theorem bay_modRun_of_ne (s : State) {b c : Bay} (h : c ≠ b) (f : RunEngine → RunEngine) :
    (s.modRun b f).bay c = s.bay c :=
  bay_modBay_of_ne s h _

@[simp] theorem modRun_pending (s : State) (b : Bay) (f : RunEngine → RunEngine) : (s.modRun b f).pending = s.pending := rfl
@[simp] theorem modRun_rackTime (s : State) (b : Bay) (f : RunEngine → RunEngine) : (s.modRun b f).rackTime = s.rackTime := rfl
@[simp] theorem modRun_tick (s : State) (b : Bay) (f : RunEngine → RunEngine) : (s.modRun b f).tick = s.tick := rfl
@[simp] theorem modRun_freeIndex (s : State) (b : Bay) (f : RunEngine → RunEngine) : (s.modRun b f).freeIndex = s.freeIndex := rfl
@[simp] theorem modRun_xu (s : State) (b : Bay) (f : RunEngine → RunEngine) : (s.modRun b f).xu = s.xu := rfl
@[simp] theorem modRun_bus (s : State) (b : Bay) (f : RunEngine → RunEngine) : (s.modRun b f).bus = s.bus := rfl

@[simp] theorem bay_modStim (s : State) (b : Bay) (f : Stimulus → Stimulus) :
    (s.modStim b f).bay b = { s.bay b with stim := f (s.bay b).stim } :=
  bay_modBay s b _

@[simp] theorem bay_modStim_of_ne (s : State) {b c : Bay} (h : c ≠ b) (f : Stimulus → Stimulus) :
    (s.modStim b f).bay c = s.bay c :=
  bay_modBay_of_ne s h _

@[simp] theorem modStim_pending (s : State) (b : Bay) (f : Stimulus → Stimulus) : (s.modStim b f).pending = s.pending := rfl
@[simp] theorem modStim_rackTime (s : State) (b : Bay) (f : Stimulus → Stimulus) : (s.modStim b f).rackTime = s.rackTime := rfl
@[simp] theorem modStim_tick (s : State) (b : Bay) (f : Stimulus → Stimulus) : (s.modStim b f).tick = s.tick := rfl
@[simp] theorem modStim_freeIndex (s : State) (b : Bay) (f : Stimulus → Stimulus) : (s.modStim b f).freeIndex = s.freeIndex := rfl
@[simp] theorem modStim_xu (s : State) (b : Bay) (f : Stimulus → Stimulus) : (s.modStim b f).xu = s.xu := rfl
@[simp] theorem modStim_bus (s : State) (b : Bay) (f : Stimulus → Stimulus) : (s.modStim b f).bus = s.bus := rfl

@[simp] theorem bay_modNet (s : State) (b : Bay) (f : Network → Network) :
    (s.modNet b f).bay b = { s.bay b with net := f (s.bay b).net } :=
  bay_modBay s b _

@[simp] theorem bay_modNet_of_ne (s : State) {b c : Bay} (h : c ≠ b) (f : Network → Network) :
    (s.modNet b f).bay c = s.bay c :=
  bay_modBay_of_ne s h _

@[simp] theorem modNet_pending (s : State) (b : Bay) (f : Network → Network) : (s.modNet b f).pending = s.pending := rfl
@[simp] theorem modNet_rackTime (s : State) (b : Bay) (f : Network → Network) : (s.modNet b f).rackTime = s.rackTime := rfl
@[simp] theorem modNet_tick (s : State) (b : Bay) (f : Network → Network) : (s.modNet b f).tick = s.tick := rfl
@[simp] theorem modNet_freeIndex (s : State) (b : Bay) (f : Network → Network) : (s.modNet b f).freeIndex = s.freeIndex := rfl
@[simp] theorem modNet_xu (s : State) (b : Bay) (f : Network → Network) : (s.modNet b f).xu = s.xu := rfl
@[simp] theorem modNet_bus (s : State) (b : Bay) (f : Network → Network) : (s.modNet b f).bus = s.bus := rfl

@[simp] theorem bay_modSupply (s : State) (b : Bay) (f : Supply → Supply) :
    (s.modSupply b f).bay b = { s.bay b with supply := f (s.bay b).supply } :=
  bay_modBay s b _

@[simp] theorem bay_modSupply_of_ne (s : State) {b c : Bay} (h : c ≠ b) (f : Supply → Supply) :
    (s.modSupply b f).bay c = s.bay c :=
  bay_modBay_of_ne s h _

@[simp] theorem modSupply_pending (s : State) (b : Bay) (f : Supply → Supply) : (s.modSupply b f).pending = s.pending := rfl
@[simp] theorem modSupply_rackTime (s : State) (b : Bay) (f : Supply → Supply) : (s.modSupply b f).rackTime = s.rackTime := rfl
@[simp] theorem modSupply_tick (s : State) (b : Bay) (f : Supply → Supply) : (s.modSupply b f).tick = s.tick := rfl
@[simp] theorem modSupply_freeIndex (s : State) (b : Bay) (f : Supply → Supply) : (s.modSupply b f).freeIndex = s.freeIndex := rfl
@[simp] theorem modSupply_xu (s : State) (b : Bay) (f : Supply → Supply) : (s.modSupply b f).xu = s.xu := rfl
@[simp] theorem modSupply_bus (s : State) (b : Bay) (f : Supply → Supply) : (s.modSupply b f).bus = s.bus := rfl

@[simp] theorem bay_modPanel (s : State) (b : Bay) (f : Panel → Panel) :
    (s.modPanel b f).bay b = { s.bay b with panel := f (s.bay b).panel } :=
  bay_modBay s b _

@[simp] theorem bay_modPanel_of_ne (s : State) {b c : Bay} (h : c ≠ b) (f : Panel → Panel) :
    (s.modPanel b f).bay c = s.bay c :=
  bay_modBay_of_ne s h _

@[simp] theorem modPanel_pending (s : State) (b : Bay) (f : Panel → Panel) : (s.modPanel b f).pending = s.pending := rfl
@[simp] theorem modPanel_rackTime (s : State) (b : Bay) (f : Panel → Panel) : (s.modPanel b f).rackTime = s.rackTime := rfl
@[simp] theorem modPanel_tick (s : State) (b : Bay) (f : Panel → Panel) : (s.modPanel b f).tick = s.tick := rfl
@[simp] theorem modPanel_freeIndex (s : State) (b : Bay) (f : Panel → Panel) : (s.modPanel b f).freeIndex = s.freeIndex := rfl
@[simp] theorem modPanel_xu (s : State) (b : Bay) (f : Panel → Panel) : (s.modPanel b f).xu = s.xu := rfl
@[simp] theorem modPanel_bus (s : State) (b : Bay) (f : Panel → Panel) : (s.modPanel b f).bus = s.bus := rfl

@[simp] theorem bay_modBayXu (s : State) (b : Bay) (f : BayExchange → BayExchange) :
    (s.modBayXu b f).bay b = { s.bay b with xu := f (s.bay b).xu } :=
  bay_modBay s b _

@[simp] theorem bay_modBayXu_of_ne (s : State) {b c : Bay} (h : c ≠ b) (f : BayExchange → BayExchange) :
    (s.modBayXu b f).bay c = s.bay c :=
  bay_modBay_of_ne s h _

@[simp] theorem modBayXu_pending (s : State) (b : Bay) (f : BayExchange → BayExchange) : (s.modBayXu b f).pending = s.pending := rfl
@[simp] theorem modBayXu_rackTime (s : State) (b : Bay) (f : BayExchange → BayExchange) : (s.modBayXu b f).rackTime = s.rackTime := rfl
@[simp] theorem modBayXu_tick (s : State) (b : Bay) (f : BayExchange → BayExchange) : (s.modBayXu b f).tick = s.tick := rfl
@[simp] theorem modBayXu_freeIndex (s : State) (b : Bay) (f : BayExchange → BayExchange) : (s.modBayXu b f).freeIndex = s.freeIndex := rfl
@[simp] theorem modBayXu_xu (s : State) (b : Bay) (f : BayExchange → BayExchange) : (s.modBayXu b f).xu = s.xu := rfl
@[simp] theorem modBayXu_bus (s : State) (b : Bay) (f : BayExchange → BayExchange) : (s.modBayXu b f).bus = s.bus := rfl

@[simp] theorem bay_modStatus (s : State) (b : Bay) (f : BayStatus → BayStatus) :
    (s.modStatus b f).bay b = { s.bay b with status := f (s.bay b).status } :=
  bay_modBay s b _

@[simp] theorem bay_modStatus_of_ne (s : State) {b c : Bay} (h : c ≠ b) (f : BayStatus → BayStatus) :
    (s.modStatus b f).bay c = s.bay c :=
  bay_modBay_of_ne s h _

@[simp] theorem modStatus_pending (s : State) (b : Bay) (f : BayStatus → BayStatus) : (s.modStatus b f).pending = s.pending := rfl
@[simp] theorem modStatus_rackTime (s : State) (b : Bay) (f : BayStatus → BayStatus) : (s.modStatus b f).rackTime = s.rackTime := rfl
@[simp] theorem modStatus_tick (s : State) (b : Bay) (f : BayStatus → BayStatus) : (s.modStatus b f).tick = s.tick := rfl
@[simp] theorem modStatus_freeIndex (s : State) (b : Bay) (f : BayStatus → BayStatus) : (s.modStatus b f).freeIndex = s.freeIndex := rfl
@[simp] theorem modStatus_xu (s : State) (b : Bay) (f : BayStatus → BayStatus) : (s.modStatus b f).xu = s.xu := rfl
@[simp] theorem modStatus_bus (s : State) (b : Bay) (f : BayStatus → BayStatus) : (s.modStatus b f).bus = s.bus := rfl

end Sys2Proof.Machine
end

