-- ==== Sys2Proof/Laws/Ops.lean ====
section
/-! SUPPORT. Laws/Ops.lean: one lemma for each shared operation, saying what it can do. -/

namespace Sys2Proof.Machine

open Sys2Proof

/-! ### Gates and iteration -/

@[simp] theorem whenUp_up {s : State} (h : s.xu.resetting = false) (f : State → State) : whenUp f s = f s := by
  simp [whenUp, h]

@[simp] theorem whenUp_resetting {s : State} (h : s.xu.resetting = true) (f : State → State) : whenUp f s = s := by
  simp [whenUp, h]

@[simp] theorem whenever_true (f : State → State) (s : State) : whenever true f s = f s := rfl
@[simp] theorem whenever_false (f : State → State) (s : State) : whenever false f s = s := rfl

/-- An operation made for each member of a list keeps what each one keeps. -/
theorem forAll_keeps {α : Type} {P : State → Prop} (xs : List α) (f : α → State → State) (s : State) (h : P s)
    (hf : ∀ x ∈ xs, ∀ t, P t → P (f x t)) : P (forAll xs f s) := by
  induction xs generalizing s with
  | nil => exact h
  | cons x rest ih =>
    exact ih (f x s) (hf x (by simp) s h) fun y hy => hf y (by simp [hy])

/-! ### The stream and events -/

@[simp] theorem emit_stream (i : StreamItem) (s : State) : (emit i s).xu.stream = s.xu.stream ++ [i] := rfl
@[simp] theorem emit_bay (i : StreamItem) (s : State) (b : Bay) : (emit i s).bay b = s.bay b := rfl
@[simp] theorem emit_bus (i : StreamItem) (s : State) : (emit i s).bus = s.bus := rfl
@[simp] theorem writeArea_bay (k : WriteKind) (o : Nat) (d : List Byte) (s : State) (b : Bay) :
    (writeArea k o d s).bay b = s.bay b := rfl
@[simp] theorem writeArea_bus (k : WriteKind) (o : Nat) (d : List Byte) (s : State) :
    (writeArea k o d s).bus = s.bus := rfl

@[simp] theorem setEvent_bay (n : Nat) (s : State) (b : Bay) : (setEvent n s).bay b = s.bay b := by
  simp only [setEvent]; split <;> rfl

@[simp] theorem setEvent_bus (n : Nat) (s : State) : (setEvent n s).bus = s.bus := by
  simp only [setEvent]; split <;> rfl

@[simp] theorem setEvent_events (n : Nat) (s : State) :
    (setEvent n s).xu.events = s.xu.events ||| BitVec.ofNat 32 (2 ^ n) := by
  simp only [setEvent]; split <;> rfl

@[simp] theorem recordError_bay (k : ErrorKind) (o : Option Bay) (s : State) (b : Bay) :
    (recordError k o s).bay b = s.bay b := by
  simp [recordError]

@[simp] theorem recordError_bus (k : ErrorKind) (o : Option Bay) (s : State) : (recordError k o s).bus = s.bus := by
  simp [recordError]

/-! ### Status block writes -/

/-- A trigger changes nothing of a bay but its write in progress. -/
theorem triggerBay_bay (b : Bay) (s : State) :
    ∃ w, (triggerBay b s).bay b = { s.bay b with xu := { (s.bay b).xu with write := w } } := by
  unfold triggerBay
  split
  · exact ⟨.busy, by simp [issueBayStatus]⟩
  · exact ⟨.busyMarked, by simp⟩
  · exact ⟨(s.bay b).xu.write, rfl⟩

/-- A trigger of one bay's block leaves the other bays as they are. -/
theorem triggerBay_other (b : Bay) {c : Bay} (h : c ≠ b) (s : State) : (triggerBay b s).bay c = s.bay c := by
  unfold triggerBay
  split <;> simp [issueBayStatus, h]

/-- A trigger of a bay's block leaves the bus as it is. -/
@[simp] theorem triggerBay_bus (b : Bay) (s : State) : (triggerBay b s).bus = s.bus := by
  unfold triggerBay
  split <;> simp [issueBayStatus]

@[simp] theorem triggerRack_bay (s : State) (b : Bay) : (triggerRack s).bay b = s.bay b := by
  unfold triggerRack
  split <;> simp [issueRackStatus]

@[simp] theorem triggerRack_bus (s : State) : (triggerRack s).bus = s.bus := by
  unfold triggerRack
  split <;> simp [issueRackStatus]

@[simp] theorem setPhase_bus (b : Bay) (p : Phase) (s : State) : (setPhase b p s).bus = s.bus := by
  simp [setPhase]

/-- The state of a bay after a change of its bay state. -/
theorem setPhase_bay (b : Bay) (p : Phase) (s : State) :
    ∃ w, (setPhase b p s).bay b = { s.bay b with phase := p, xu := { (s.bay b).xu with write := w } } := by
  obtain ⟨w, hw⟩ := triggerBay_bay b (s.modBay b fun y => { y with phase := p })
  exact ⟨w, by simp [setPhase, hw]⟩

/-! ### The scan pass -/

/-- A read of the pass issued changes only the pass: where it reads, from which address, and that it waits for it. -/
theorem passRead_pass {s : State} {p : Pass} (h : s.xu.pass = some p) (r : PassRead) :
    passRead r s = { s with xu := { s.xu with
      pass := some { p with read := r, issue := readAt (passOffset r) s, waits := false } } } := by
  simp [passRead, modPass, State.modXu, h]

/-- With a withdrawal waiting for its read, the pass only waits; with none, it goes on (R15). -/
theorem passOn_cases (r : PassRead) (s : State) :
    (withdrawing s = true ∧ passOn r s = modPass (fun p => { p with waits := true }) s) ∨
      (withdrawing s = false ∧ passOn r s = passAfter r s) := by
  cases h : withdrawing s <;> simp [passOn, h]

/-- No bay withdraws exactly when no withdrawal waits for its read. -/
theorem withdrawing_eq_false {s : State} : withdrawing s = false ↔ ∀ b, (s.bay b).xu.withdrawal = none := by
  simp only [withdrawing, allBays, List.any_cons, List.any_nil, Bool.or_false, Bool.or_eq_false_iff,
    Option.isSome_eq_false_iff, Option.isNone_iff_eq_none]
  exact ⟨fun ⟨_, _, _, _⟩ b => (by cases b <;> assumption), fun h => ⟨h _, h _, h _, h _⟩⟩

/-- A read of a pass that waits is taken only while the pass waits for no withdrawal. -/
theorem passWaits_eq_some {s : State} {p : Pass} : passWaits s = some p ↔ s.xu.pass = some p ∧ p.waits = false := by
  unfold passWaits
  split
  · simp [*]
  · rename_i q hq
    cases hw : q.waits
    · simp only [hq, Bool.false_eq_true, if_false, Option.some.injEq]
      exact ⟨fun h => ⟨h, h ▸ hw⟩, fun h => h.1⟩
    · simp only [hq, if_true, Option.some.injEq]
      exact ⟨fun h => (by cases h), fun ⟨h, hp⟩ => (by subst h; simp [hw] at hp)⟩

/-! ### The fixture bus queue -/

/-- A request that does not end at once joins the queue when there is room, and the held list otherwise (R166). -/
theorem busRequest_cases {e : BusEntry} {s t : State} (h : busRequest e s = some t) :
    s.bus.state ≠ .failed ∧ t.bays = s.bays ∧ t.xu = s.xu ∧
      ((s.bus.queue.length < 16 ∧ busCount e.bay s.bus.queue < 6 ∧ t.bus.queue = s.bus.queue ++ [e] ∧
          t.bus.held = s.bus.held) ∨
        (t.bus.queue = s.bus.queue ∧ t.bus.held = s.bus.held ++ [e])) := by
  unfold busRequest at h
  split at h
  · cases h
  · rename_i hf
    refine ⟨hf, ?_⟩
    split at h
    · rename_i hc
      cases h
      simp only [Bool.and_eq_true, decide_eq_true_eq] at hc
      exact ⟨rfl, rfl, .inl ⟨hc.1.1, hc.1.2, rfl, rfl⟩⟩
    · cases h
      exact ⟨rfl, rfl, .inr ⟨rfl, rfl⟩⟩

/-- One more entry of a bay counts once for that bay. -/
theorem busCount_append (b : Bay) (q : List BusEntry) (e : BusEntry) :
    busCount b (q ++ [e]) = busCount b q + if e.bay = b then 1 else 0 := by
  unfold busCount
  rw [List.filter_append, List.length_append]
  by_cases h : e.bay = b <;> simp [h]

/-- The admissions keep the queue within its caps (R166). -/
theorem admitLoop_caps (fuel : Nat) (q h : List BusEntry) (hq : q.length ≤ 16) (hb : ∀ b, busCount b q ≤ 6) :
    (admitLoop fuel q h).1.length ≤ 16 ∧ ∀ b, busCount b (admitLoop fuel q h).1 ≤ 6 := by
  induction fuel generalizing q h with
  | zero => exact ⟨hq, hb⟩
  | succ n ih =>
    unfold admitLoop
    split
    · exact ⟨hq, hb⟩
    · rename_i hlt
      split
      · exact ⟨hq, hb⟩
      · rename_i e he
        have hc : busCount e.bay q < 6 := by simpa using List.find?_some he
        refine ih _ _ (by simp; omega) fun b => ?_
        rw [busCount_append]
        have := hb b
        by_cases hbe : e.bay = b
        · subst hbe; simp; omega
        · simp [hbe]; omega

/-- Joining the queue restarts the 35 ms counts in IDLE alone, when the queue was empty (R171, R172). -/
theorem countsAtRequest_cases (now : RackTime) (u : Bus) :
    (u.queue = [] ∧ u.state = .idle ∧ countsAtRequest now u = now) ∨
      (¬(u.queue = [] ∧ u.state = .idle) ∧ countsAtRequest now u = u.countsFrom) := by
  by_cases h : u.queue = [] ∧ u.state = .idle
  · exact .inl ⟨h.1, h.2, by simp [countsAtRequest, h]⟩
  · exact .inr ⟨h, by simp only [countsAtRequest]; simp only [Bool.and_eq_true, decide_eq_true_eq, h, if_false]⟩

/-- At an entry to FAILED nothing is removed: all that is queued or held ends BUS_FAILED (R177). -/
@[simp] theorem removeEntries_failed {s : State} (h : s.bus.state = .failed) (b : Bay) (test : BusEntry → Bool) :
    removeEntries b test s = s := by
  simp [removeEntries, h]

/-- Out of FAILED a CLOSING waits for the bay's transaction on the bus alone (R46). -/
theorem busHolds_of_ne_failed {u : Bus} (h : u.state ≠ .failed) (b : Bay) : busHolds u b = bayOnBus u b := by
  simp [busHolds, busEnding, h]

/-- In FAILED, with nothing on the bus, a CLOSING waits for the entries and held requests of its bay that are left (R177). -/
theorem busHolds_failed {u : Bus} (h : u.state = .failed) (hb : u.onBus = false) (b : Bay) :
    busHolds u b = true ↔ ∃ e ∈ u.queue ++ u.held, e.bay = b := by
  simp only [busHolds, busEnding, bayOnBus, onBusEntry, h, hb, Bool.false_eq_true, if_false, decide_true, Bool.true_and,
    Bool.false_or, List.any_eq_true, decide_eq_true_eq]

/-- A transaction cut short is off the bus, and the bytes sent in it are its first ones (R165, R173). -/
theorem cutShort_bus (s : State) :
    ∃ k, (cutShort s).bus = { s.bus with onBus := false, wire := s.bus.wire.take k } :=
  ⟨_, rfl⟩

@[simp] theorem cutShort_bays (s : State) : (cutShort s).bays = s.bays := rfl
@[simp] theorem cutShort_xu (s : State) : (cutShort s).xu = s.xu := rfl
@[simp] theorem cutShort_rackTime (s : State) : (cutShort s).rackTime = s.rackTime := rfl
@[simp] theorem cutShort_freeIndex (s : State) : (cutShort s).freeIndex = s.freeIndex + 1 := rfl

/-! ### Channel values at a boundary -/

/-- A channel takes nothing from the actions taken from it exactly when all of them started at that boundary (R76). -/
theorem handedValue_eq_none {here : Handed → Bool} {l : List Handed} :
    handedValue here l = none ↔ ∀ h ∈ l, here h = true := by
  simp [handedValue]

/-- What a channel takes is the value left by the latest action whose own start does not coincide with the boundary (R76). -/
theorem handedValue_eq_some {here : Handed → Bool} {l : List Handed} {v : Int} :
    handedValue here l = some v ↔ ∃ before h after,
      l = before ++ h :: after ∧ here h = false ∧ (∀ g ∈ before, here g = true) ∧ h.value = v := by
  simp only [handedValue, Option.map_eq_some_iff, List.find?_eq_some_iff_append, Bool.not_eq_eq_eq_not, Bool.not_true]
  constructor
  · rintro ⟨h, ⟨hh, before, after, hl, hb⟩, hv⟩
    exact ⟨before, h, after, hl, hh, fun g hg => by simpa using hb g hg, hv⟩
  · rintro ⟨before, h, after, hl, hh, hb, hv⟩
    exact ⟨h, ⟨hh, before, after, hl, fun g hg => by simpa using hb g hg⟩, hv⟩

/-- A channel at a boundary that coincides with its action's claim: left as it is, or given the value handed over, which the
action starts from (R76). -/
theorem handChannel_cases (here : Handed → Bool) (u : Stimulus) (c : Fin 14) :
    handChannel here u c = u ∨ ∃ a v, u.actions[c] = some a ∧ handedValue here a.older = some v ∧
      handChannel here u c =
        { u with values := tabSet u.values c v, actions := tabSet u.actions c (some (takeValue v a)) } := by
  unfold handChannel
  split
  · exact .inl rfl
  · rename_i a ha
    split
    · exact .inl rfl
    · rename_i v hv
      exact .inr ⟨a, v, ha, hv, rfl⟩

/-- The actions in force leave nothing for a boundary when the bay is not RUNNING (R75). -/
theorem stoppedAtClosing_of_ne_running {y : BayState} (h : y.phase ≠ .running) :
    stoppedAtClosing y = Vector.replicate 14 [] := by
  simp [stoppedAtClosing, h]

/-- Of a bay the stops placed at a boundary change the channel values and what the stopped actions left, nothing else. -/
theorem stopsAtBoundary_frame (inp : BayInputs) (now : RackTime) (y : BayState) :
    ∃ u, stopsAtBoundary inp now y = { y with stim := u } ∧ u.stopped = Vector.replicate 14 [] :=
  ⟨_, rfl, rfl⟩

/-- A boundary whose inputs place no stop at it leaves the channel values to the counts. -/
theorem stopsAtBoundary_quiet {inp : BayInputs} (h : inp.stopsHere = false) (now : RackTime) (y : BayState) :
    (stopsAtBoundary inp now y).stim = { y.stim with stopped := Vector.replicate 14 [] } := by
  simp [stopsAtBoundary, h]

/-- A condition is recognized at a boundary of the event of an entry to CLOSING when the watch left there is one boundary
short of its deglitch, with its mark clear, and the boundary shows it (R149, R157). -/
theorem recognizedLate_iff {p : Supply} {supv supi : Int} {c : Condition} :
    recognizedLate p supv supi c = true ↔ ∃ w, condGet p.atClosing c = some w ∧ w.recognized = false ∧
      condGet p.setup.deglitch c ≤ w.count + 1 ∧ conditionShown p supv supi c = true := by
  unfold recognizedLate
  split
  · rename_i h
    simp [h]
  · rename_i w h
    simp only [h, watchStep, if_true, Option.some.injEq, exists_eq_left']
    cases hs : conditionShown p supv supi c <;> cases hr : w.recognized <;>
      by_cases hd : condGet p.setup.deglitch c ≤ w.count + 1 <;> simp [hd]

/-- A boundary whose inputs place no entry to CLOSING at it recognizes nothing by the watches left there. -/
theorem lateConditions_quiet {inp : BayInputs} (h : inp.stopsHere = false) (y : BayState) : lateConditions inp y = [] := by
  simp [lateConditions, h]

/-- With nothing recognized so, the watches left at an entry to CLOSING are gone and nothing else changes. -/
theorem lateFaults_of_nil {b : Bay} {inp : BayInputs} {s : State} (h : lateConditions inp (s.bay b) = []) :
    lateFaults b inp s = s.modSupply b fun p => { p with atClosing := ⟨none, none, none, none⟩ } := by
  simp [lateFaults, h, forAll]

/-- A RUNNING bay has had no entry to CLOSING since the boundary before, and nothing is so recognized in it. -/
theorem lateFault_running {b : Bay} {s : State} (h : (s.bay b).phase = .running) (c : Condition) : lateFault b c s = s := by
  simp [lateFault, h]

/-- A start coincides with a boundary when its inputs name the step, it came since the boundary before, and no action that
ended there places it earlier (R76, R133, R145). -/
theorem startedHere_iff {inp : BayInputs} {now : RackTime} {step : Nat} {start : RackTime} {early : Bool} :
    startedHere inp now step start early = true ↔ step ∈ inp.startsHere ∧ start + 1 = now ∧ early = false := by
  simp [startedHere, and_assoc]

/-! ### The hand-back of a run -/

@[simp] theorem markRefused_phase (b : Bay) (w : HandBackWrite) (s : State) :
    ((markRefused b w s).bay b).phase = (s.bay b).phase := by
  simp [markRefused]

@[simp] theorem markRefused_run (b : Bay) (w : HandBackWrite) (s : State) :
    ((markRefused b w s).bay b).run = (s.bay b).run := by
  simp [markRefused]

@[simp] theorem markRefused_refused (b : Bay) (w : HandBackWrite) (s : State) :
    ((markRefused b w s).bay b).xu.refused = some w := by
  simp [markRefused]

/-- With the result records accepted, their writes in CLOSING do nothing further. -/
theorem recordsRefused_of_accepted {b : Bay} {s : State} (h : (s.bay b).xu.refused ≠ some .record)
    (results : List StepResult) : recordsRefused b results s = s := by
  simp [recordsRefused, h]

/-! ### Exact arithmetic -/

/-- A clamped number lies in its range. -/
theorem clampTo_range {lo hi : Int} (h : lo ≤ hi) (v : Int) : lo ≤ clampTo lo hi v ∧ clampTo lo hi v ≤ hi := by
  unfold clampTo
  split
  · omega
  · split <;> omega

/-- A number in a range is its own clamp. -/
theorem clampTo_of_mem {lo hi v : Int} (h₁ : lo ≤ v) (h₂ : v ≤ hi) : clampTo lo hi v = v := by
  unfold clampTo
  split
  · omega
  · split <;> omega

/-- A count that holds at 65,535 stays there or below. -/
theorem lateUp_le (n : Nat) : lateUp n ≤ 65535 := by
  unfold lateUp
  split <;> omega

/-! ### Steps -/

/-- The end that a DWELL step's block has to report: DONE with nothing left to count (R33). -/
theorem dueEnd_dwell {e : InFlight} {n : Nat} (h : e.work = .dwell n) (y : BayState) :
    dueEnd y e = if n = 0 then some (.done, .none) else none := by
  simp [dueEnd, h]

/-- The end that a JOIN step's block has to report: DONE once its condition holds (R34). -/
theorem dueEnd_join {e : InFlight} {tag : Option Nat} (h : e.work = .join tag) (y : BayState) :
    dueEnd y e = if joinHolds y.run e.index tag then some (.done, .none) else none := by
  simp [dueEnd, h]

/-- The end that a CHECK step's block has to report: that of its probes, once it is due (R135, R136). -/
theorem dueEnd_check {e : InFlight} {c : CheckWork} (h : e.work = .check c) (y : BayState) :
    dueEnd y e = if checkDue e then some (dueOutcome e, checkDetail c) else none := by
  simp [dueEnd, h]

/-- A report of an end that is not due is discarded. -/
theorem blockReport_not_due {b : Bay} {i : Nat} {o : StepOutcome} {d : Detail} {s : State} {e : InFlight}
    (hf : findInFlight (s.bay b).run i = some e) (h : dueEnd (s.bay b) e ≠ some (o, d)) : blockReport b i o d s = s := by
  simp [blockReport, hf, h]

/-- An end of a step that is not in flight changes nothing (R58). -/
theorem endStep_not_in_flight {b : Bay} {i : Nat} {s : State} (h : findInFlight (s.bay b).run i = none)
    (o : StepOutcome) (d : Detail) : endStep b i o d s = s := by
  simp [endStep, h]

/-- With no due CHECK step but the one named, there is none to take. -/
theorem dueBut_idle {b : Bay} {s : State} {x : Option Nat}
    (h : ∀ e ∈ (s.bay b).run.inFlight, x ≠ some e.index → checkDue e = false) : dueBut x (s.bay b).run = [] := by
  simp only [dueBut, List.filter_eq_nil_iff]
  intro e he
  by_cases hx : x = some e.index
  · simp [hx]
  · simp [h e he hx]

/-- With no due CHECK step but the one named, none has to be decided. -/
theorem decideDue_idle {b : Bay} {s : State} {x : Option Nat} (h : dueBut x (s.bay b).run = []) :
    decideDue b x s = s := by
  simp [decideDue, h, forAll]

/-- With no due CHECK step but the one named, there is none to take, passing or stopping. -/
theorem dueChecks_idle {r : RunEngine} {x : Option Nat} (h : dueBut x r = []) (stops : Bool) :
    dueChecks x stops r = [] := by
  simp [dueChecks, h]

@[simp] theorem takeChecks_nil (b : Bay) (s : State) : takeChecks b [] s = s := rfl

@[simp] theorem takeChecks_cons (b : Bay) (i : Nat) (rest : List Nat) (s : State) :
    takeChecks b (i :: rest) s = takeChecks b rest (nextCheck b i s) := rfl

/-- Due CHECK ends taken in two groups are taken one group after the other. -/
theorem takeChecks_append (b : Bay) (xs ys : List Nat) (s : State) :
    takeChecks b (xs ++ ys) s = takeChecks b ys (takeChecks b xs s) := by
  simp [takeChecks, forAll, List.foldl_append]

/-- With no due CHECK step but the one named, nothing comes before an end that stops the run. -/
theorem settleOthers_idle {b : Bay} {s : State} {x : Option Nat} (h : dueBut x (s.bay b).run = []) :
    settleOthers b x s = s := by
  simp [settleOthers, decideDue_idle h, dueChecks_idle h]

/-- A bay none of whose CHECK steps has a decided end is left as it is. -/
theorem settleChecks_idle {b : Bay} {s : State} (h : ∀ e ∈ (s.bay b).run.inFlight, checkDue e = false) :
    settleChecks b s = s :=
  settleOthers_idle (dueBut_idle fun e he _ => h e he)

/-- With no due CHECK step but the one named, an end is taken with what follows it alone. -/
theorem withChecks_idle {b : Bay} {s : State} {x : Option Nat} (f : State → State) (stops : Bool)
    (h : dueBut x (s.bay b).run = []) : withChecks b x stops f s = afterEnds b (f s) := by
  cases stops <;> simp [withChecks, decideDue_idle h, dueChecks_idle h]

/-- The end of a step in flight with no other CHECK step due is the end with what follows it. -/
theorem endWithChecks_idle {b : Bay} {i : Nat} {s : State} {e : InFlight} (o : StepOutcome) (d : Detail)
    (block : State → State) (h : dueBut (some i) (s.bay b).run = []) (hf : findInFlight (s.bay b).run i = some e) :
    endWithChecks b i o d block s = takeEnd b i o d (block s) := by
  simp [endWithChecks, settleOthers_idle h, withChecks_idle _ _ h, endInFlight, hf, takeEnd]

/-- With no other CHECK step due, the failing end of a step at its start does not wait (R137). -/
theorem endWaits_idle {r : RunEngine} {i : Nat} (h : ∀ e ∈ r.inFlight, checkDue e = false) : endWaits r i = false := by
  simp only [endWaits, List.any_eq_false]
  exact fun e he => by simp [h e he]

/-- With the bus not FAILED no prompt ends at its request. -/
theorem failingPrompt_idle {b : Bay} {s : State} (h : s.bus.state ≠ .failed) : failingPrompt b s = none := by
  simp [failingPrompt, h]

/-- With the bus not FAILED no FIXTURE step has failed at its start. -/
theorem failHeld_idle {b : Bay} {s : State} (h : s.bus.state ≠ .failed) : failHeld b s = s := by
  simp [failHeld, heldFixture, h]

/-- With the bus not FAILED the display and the walker follow the JOIN's test, and nothing else. -/
theorem afterPrompts_idle {b : Bay} {s : State} (h : s.bus.state ≠ .failed) (n : Nat) :
    afterPrompts b n s = walk b (pumpDisplay b s) := by
  cases n <;> simp [afterPrompts, failingPrompt_idle h]

end Sys2Proof.Machine
end

