-- ==== Sys2Proof/WellFormed.lean ====
section
/-! DEFINITION. WellFormed.lean: the commands whose operands the rack computer, the modules and the pins can
present; each check names the rule that bounds its operand. -/

namespace Sys2Proof

/-- A step index of a run (section 2.3: at most 96 steps). -/
def wfStep (i : Nat) : Bool := i < 96

/-- The sizes of the parts of a slot that LOADING reads (sections 1.2, 11.5 to 11.7). -/
def wfLoadingData (d : List Byte) : Bool :=
  [256, 1344, 528, 192, 32, 64, 4096].contains d.length

/-- A received frame: an 11-bit or 29-bit identifier, at most 8 bytes, none on a request for data (R91, R92). -/
def wfFrame (f : RxFrame) : Bool :=
  f.id < (if f.extended then 536870912 else 2048) && f.data.length ≤ 8 && (!f.remote || f.data.isEmpty)

/-- An outcome that a carrying block reports; TIMED_OUT, ABORTED and SKIPPED are given by the run engine (section
2.9). -/
def wfReported (o : StepOutcome) : Bool := o ≠ .timedOut && o ≠ .aborted && o ≠ .skipped

/-- The readings of a recovery: at the start and after each of at most 9 pulses, ending with the first high one
(R176). -/
def wfReadings : List Bool → Bool
  | r => 1 ≤ r.length && r.length ≤ 10 && (r.dropLast.all fun x => !x) && (r.length = 10 || r.getLastD false)

/-- The inputs of a boundary: what they say to start there are steps of a run (section 2.3, R133, R145). -/
def wfInputs (x : BayInputs) : Bool := x.startsHere.all wfStep

/-- Whether a command's operands are well formed. -/
def Instr.wf : Instr → Bool
  | .merrRead lanes => lanes ≠ 0
  | .registerWriteOther _ lanes _ => lanes ≠ 0
  | .commandBlockReadComplete d => d.length = 16
  | .abortRun _ seq => seq ≠ 0
  | .withdraw _ seq argument => seq ≠ 0 && (argument = 0 || argument = 1)
  | .clearFaults _ seq => seq ≠ 0
  | .recoverBus seq => seq ≠ 0
  | .unknownRequest _ seq => seq ≠ 0
  | .loadingReadComplete _ d => wfLoadingData d
  | .dwellEnd _ i => wfStep i
  | .stepEnd _ i o _ => wfStep i && wfReported o
  | .stepTimeout _ i => wfStep i
  | .receipt _ f => wfFrame f
  | .checkEarlyDecision _ i => wfStep i
  | .periodEnd _ i => wfStep i
  | .transactionEnd refused d _ => d.length ≤ 48 && (match refused with | none => true | some i => i < 50)
  | .recoveryEnd readings _ => wfReadings readings
  | .millisecondBoundary inputs => [inputs.bay0, inputs.bay1, inputs.bay2, inputs.bay3].all wfInputs
  | .partReset | .resetComplete | .xbaseWrite _ _ | .runSet | .runClear | .bayenSet _ | .bayDisable _
  | .irqenWrite _ | .scanpWrite _ | .reset | .eventsClear _ | .merrWrite _ | .nudge _
  | .scanTimerExpiry | .withdrawReadComplete _ _ _ | .ownershipWordReadComplete _ | .backToBackReadComplete _ _
  | .statusBlockWriteComplete _ | .readTimeout _ | .readError _ | .writeError _ | .actionReachesTarget _ _
  | .pulsePeriodEnd _ _ | .release _ _ | .attemptStart _ | .attemptEnd _ _ | .probeTimerExpiry _ | .tapStale _ _
  | .fiRisingEdge _ _ _ | .fiEdgeTimeout _ _ | .notSettled _ | .conditionRecognized _ _ | .retryOffTimeEnd _
  | .retrySettleFailed _ | .transactionBegin | .stretchTimeout | .sclRiseAfterTimeout _ | .sclHeld
  | .arbitrationLost | .otherMasterStart _ _ | .otherMasterStop | .busyOtherTimeout | .sdaHeldTimeout
  | .recoverySclTimeout | .attentionAsserted _ | .keyYes _ | .keyNo _ | .keyStart _ | .keyAbort _ | .noAnswer _
  | .fixtureBusLineChange _ _ => true

end Sys2Proof
end

