-- ==== Sys2Proof/Tests/Slice0.lean ====
section
/-! SUPPORT. Tests/Slice0.lean: the WellFormed smoke test, one witness for the hypotheses of every statement that has
some, and small tests of single commands against figures of the manual. -/

namespace Sys2Proof.Tests

open Sys2Proof Sys2Proof.Machine

-- One theorem at a time: run side by side, the kernel evaluations of the witnesses need a thread each.
set_option Elab.async false

/-! ### WellFormed: one ill-formed command for each check -/

theorem test_wf_merrRead : (Instr.merrRead 0).wf = false ∧ (Instr.merrRead 1).wf = true := by decide
theorem test_wf_registerWriteOther :
    (Instr.registerWriteOther 0x00C 0 0).wf = false ∧ (Instr.registerWriteOther 0x00C 1 0).wf = true := by decide
theorem test_wf_commandBlock :
    (Instr.commandBlockReadComplete (List.replicate 15 0)).wf = false ∧
      (Instr.commandBlockReadComplete (List.replicate 16 0)).wf = true := by decide
theorem test_wf_abortRun : (Instr.abortRun .bay0 0).wf = false ∧ (Instr.abortRun .bay0 1).wf = true := by decide
theorem test_wf_withdraw_seq : (Instr.withdraw .bay0 0 0).wf = false ∧ (Instr.withdraw .bay0 1 1).wf = true := by decide
theorem test_wf_withdraw_argument : (Instr.withdraw .bay0 1 2).wf = false := by decide
theorem test_wf_clearFaults : (Instr.clearFaults .bay0 0).wf = false := by decide
theorem test_wf_recoverBus : (Instr.recoverBus 0).wf = false := by decide
theorem test_wf_unknownRequest : (Instr.unknownRequest none 0).wf = false := by decide
theorem test_wf_loading :
    (Instr.loadingReadComplete .bay0 (List.replicate 65 0)).wf = false ∧
      (Instr.loadingReadComplete .bay0 (List.replicate 64 0)).wf = true := by decide
theorem test_wf_dwellEnd : (Instr.dwellEnd .bay0 96).wf = false ∧ (Instr.dwellEnd .bay0 95).wf = true := by decide
theorem test_wf_stepEnd_step : (Instr.stepEnd .bay0 96 .done .none).wf = false := by decide
theorem test_wf_stepEnd_outcome :
    (Instr.stepEnd .bay0 0 .timedOut .none).wf = false ∧ (Instr.stepEnd .bay0 0 .aborted .none).wf = false ∧
      (Instr.stepEnd .bay0 0 .skipped .none).wf = false ∧ (Instr.stepEnd .bay0 0 .done .none).wf = true := by decide
theorem test_wf_stepTimeout : (Instr.stepTimeout .bay0 96).wf = false := by decide
theorem test_wf_receipt_id :
    (Instr.receipt .bay0 ⟨false, false, 2048, []⟩).wf = false ∧
      (Instr.receipt .bay0 ⟨true, false, 2048, []⟩).wf = true ∧
      (Instr.receipt .bay0 ⟨true, false, 536870912, []⟩).wf = false := by decide
theorem test_wf_receipt_length : (Instr.receipt .bay0 ⟨false, false, 1, List.replicate 9 0⟩).wf = false := by decide
theorem test_wf_receipt_remote : (Instr.receipt .bay0 ⟨false, true, 1, [0]⟩).wf = false := by decide
theorem test_wf_checkEarlyDecision : (Instr.checkEarlyDecision .bay0 96).wf = false := by decide
theorem test_wf_periodEnd : (Instr.periodEnd .bay0 96).wf = false := by decide
theorem test_wf_transactionEnd_data :
    (Instr.transactionEnd none (List.replicate 49 0) false).wf = false ∧
      (Instr.transactionEnd none (List.replicate 48 0) false).wf = true := by decide
theorem test_wf_transactionEnd_refused :
    (Instr.transactionEnd (some 50) [] false).wf = false ∧ (Instr.transactionEnd (some 49) [] false).wf = true := by decide
theorem test_wf_recoveryEnd :
    (Instr.recoveryEnd [] true).wf = false ∧ (Instr.recoveryEnd [true, true] true).wf = false ∧
      (Instr.recoveryEnd [false, true] true).wf = true ∧ (Instr.recoveryEnd [false] true).wf = false := by decide

theorem test_wf_boundary :
    let x : Nat → BayInputs := fun i => ⟨Vector.replicate 8 0, Vector.replicate 8 0, 0, 0, 0, false, false, false, [0, i], false, false⟩
    (Instr.millisecondBoundary ⟨x 1, x 95, x 96, x 2⟩).wf = false ∧
      (Instr.millisecondBoundary ⟨x 1, x 95, x 95, x 2⟩).wf = true := by decide

/-! ### States for the witnesses and the tests -/

/-- Bay 0 changed after a reset. -/
def withBay (f : BayState → BayState) : State := State.reset.modBay .bay0 f

/-- Bay 0 enabled and in a phase. -/
def inPhase (p : Phase) : State := withBay fun y => { y with phase := p, xu := { y.xu with enabled := true } }

/-- Bay 0 with a run in a phase. -/
def withRun (p : Phase) (f : RunEngine → RunEngine) : State :=
  (inPhase p).modRun .bay0 fun r => f { r with slot := some .a, lastTaken := some .a }

/-- A read issued with the base at 0 and an interval of 16 × 64 µs. -/
def someRead : ReadIssue := ⟨0x1000, 1024⟩

/-- Bay 0 in LOADING on a read, with or without an abort that waits. -/
def loadingState (x : LoadRead) (abort : Option AbortCause) : State :=
  withRun .loading fun r => { r with load := some ⟨x, someRead, abort, none⟩ }

/-- The exchange unit changed after a reset. -/
def withXu (f : Exchange → Exchange) : State := State.reset.modXu f

/-- A pass in progress, bay 0 enabled and in a phase. -/
def passState (p : Phase) (r : PassRead) : State :=
  (inPhase p).modXu fun x => { x with run := true, pass := some ⟨r, someRead, false, [], [], false, false⟩ }

/-- The fixture bus changed after a reset. -/
def withBus (f : Bus → Bus) : State := State.reset.modBus f

/-- A step in flight. -/
def flight (i : Nat) (timeout : Option Nat) (w : Work) : InFlight := ⟨i, 0, true, 0, false, timeout, 0, 0, w⟩

/-- Bay 0 RUNNING with steps in flight. -/
def running (l : List InFlight) (next : Nat) : State := withRun .running fun r => { r with next := next, inFlight := l }

/-- A header of a run of so many steps. -/
def headerOf (n : Nat) : Header := ⟨7, 0, true, false, true, false, true, n, false, false, false, false, 0, 0⟩

/-- A lamp write of bay 0. -/
def lampWrite : BusEntry := newEntry .bay0 .lamp 1 (.write [0]) 0x40

/-- A transaction of the head on the bus. -/
def onBus (e : BusEntry) (s : State) : State := s.modBus fun u => { u with state := .active, onBus := true, queue := [e] }

/-- The state a command leads to. -/
def after (c : Instr) (s : State) : State :=
  match exec c s with
  | .next t => t
  | .fault _ => s
  | .refused _ => s

/-! ### Witnesses: for each statement with hypotheses, states and operands that meet them, clause by clause -/

theorem witness_StepTakesFrontCommand :
    (State.reset.pending = []) := by
  decide +kernel

theorem witness_PartResetLeavesResetValues :
    (Up State.reset) := by
  unfold Up; decide +kernel

theorem witness_PartResetHoldsOffThenCompletes_held :
    (withXu fun x => { x with resetting := true }).xu.resetting = true ∧ Instr.runSet ≠ .partReset ∧
      Instr.runSet ≠ .resetComplete ∧ (∀ lanes, Instr.runSet ≠ .merrRead lanes) ∧
      (∀ b, Instr.runSet ≠ .attentionAsserted b) ∧ ∀ scl sda, Instr.runSet ≠ .fixtureBusLineChange scl sda :=
  ⟨rfl, nofun, nofun, nofun, nofun, nofun⟩

theorem witness_PartResetHoldsOffThenCompletes :
    (Up State.reset) ∧
    ((withXu fun x => { x with resetting := true }).xu.resetting = true ∧ (withXu fun x => { x with resetting := true }).bus.scl = true ∧ ∀ b ∈ allBays, ((withXu fun x => { x with resetting := true }).bay b).panel.attention = false) ∧
    (let s := (withXu fun x => { x with resetting := true }).modBus fun u => { u with scl := false }
    s.xu.resetting = true ∧ s.bus.scl = false ∧ s.bus.state = .idle ∧ ∀ b ∈ allBays, (s.bay b).panel.attention = false) ∧
    (let s := (withXu fun x => { x with resetting := true }).modPanel .bay3 fun p => { p with attention := true }
    s.xu.resetting = true ∧ s.bus.state ≠ .failed ∧ (s.bay .bay3).panel.attention = true ∧
      (s.bay .bay3).panel.keyRead = .none ∧ (s.bay .bay3).phase ≠ .closing) := by
  unfold Up; decide +kernel

theorem witness_RegisterAccessesSetTheirFields :
    (Up State.reset ∧ State.reset.xu.run = false ∧ State.reset.xu.scanTimer = none) ∧
    (let x := { State.reset.xu with xbaseHi := 0xFFFFFFFF, xbaseLo := 0xFFFFF000 }
    x.xbaseHi.toNat * 4294967296 + x.xbaseLo.toNat + 0xFFF < 18446744073709551616) ∧
    (let s := withXu fun x => { x with run := true, scanp := 1, scanTimer := some 50 }
    Up s ∧ s.xu.run = true ∧ s.xu.scanTimer ≠ none ∧ s.xu.pass = none ∧ (255 : Byte) ≠ 0 ∧ s.xu.scanp ≠ 255 ∧ (1 : Byte) ≠ 0 ∧
      s.xu.scanp = 1) ∧
    ((1 : Byte) ≠ 0 ∧ State.reset.xu.scanp ≠ 1) ∧
    (let s := (passState .idle .rackBlock).modXu fun x => { x with scanTimer := some 50 }
    Up s ∧ s.xu.run = true ∧ s.xu.scanTimer ≠ none ∧ s.xu.pass ≠ none) ∧
    (7 : BitVec 4) ≠ 15 ∧
    ((0x00C : BitVec 12) ≠ 0x000 ∧ (0x00C : BitVec 12) ≠ 0x004 ∧ (0x00C : BitVec 12) ≠ 0x008 ∧ (0x00C : BitVec 12) ≠ 0x010 ∧
      (0x00C : BitVec 12) ≠ 0x014 ∧ (0x00C : BitVec 12) ≠ 0x018) ∧
    ((0x80000000#32).getLsbD 31 = true ∧ (0x7FFFFFFF#32).getLsbD 31 = false) := by
  unfold Up; decide +kernel

theorem witness_BayEnableAndDisable :
    (Up (inPhase .idle) ∧ ((inPhase .idle).bay .bay0).xu.enabled = true ∧ (inPhase .idle).xu.pass = none ∧
      ((inPhase .idle).bay .bay0).phase = .idle ∧ ((inPhase .idle).bay .bay0).supply.latched = 0) ∧
    (Up State.reset ∧ (State.reset.bay .bay0).xu.enabled = false ∧ (State.reset.bay .bay0).phase = .offline) ∧
    (let s := withBay fun y => { y with phase := .closing }
    Up s ∧ (s.bay .bay0).xu.enabled = false ∧ (s.bay .bay0).phase ≠ .offline) ∧
    (let s := (inPhase .halted).modSupply .bay0 fun p => { p with latched := 8 }
    Up s ∧ (s.bay .bay0).xu.enabled = true ∧ s.xu.pass = none ∧ (s.bay .bay0).phase = .halted ∧
      (s.bay .bay0).supply.latched ≠ 0) ∧
    (let s := inPhase .closing
    Up s ∧ (s.bay .bay0).xu.enabled = true ∧ s.xu.pass = none ∧ (s.bay .bay0).phase = .closing) ∧
    (let s := loadingState (.record 95) (some .request)
    Up s ∧ (s.bay .bay0).xu.enabled = true ∧ s.xu.pass = none ∧ (s.bay .bay0).phase = .loading ∧
      (s.bay .bay0).run.load = some ⟨.record 95, someRead, some .request, none⟩ ∧ NoCheckDue .bay0 s) ∧
    (let s := running [flight 0 none (.dwell 5)] 1
    Up s ∧ (s.bay .bay0).xu.enabled = true ∧ NoCheckDue .bay0 s ∧ (s.bay .bay0).run.load = none ∧
      (s.bay .bay0).phase = .running) ∧
    (let s := inPhase .arming
    Up s ∧ (s.bay .bay0).xu.enabled = true ∧ NoCheckDue .bay0 s ∧ (s.bay .bay0).run.load = none ∧
      (s.bay .bay0).phase = .arming) := by
  unfold Up NoCheckDue; decide +kernel

theorem witness_CtrlAndMerrReadTheirFields :
    (let o := 0x018
    o ≠ 0x000 ∧ o ≠ 0x004 ∧ o ≠ 0x008 ∧ o ≠ 0x00C ∧ o ≠ 0x010 ∧ o ≠ 0x014) := by
  decide +kernel

theorem witness_BoundaryCountsTimeAndSamplesLines :
    Up State.reset ∧ ∀ b ∈ allBays, (State.reset.bay b).xu.refused = none := by
  unfold Up; decide +kernel

/-- A boundary's inputs that change nothing. -/
def quietInputs : BayInputs :=
  ⟨Vector.replicate 8 0, Vector.replicate 8 0, 0, 0, 0, false, false, false, [], false, false⟩

theorem witness_BoundaryCountsTimeAndSamplesLines_counts :
    quietInputs.monitorFirst = false ∧
    (let s := running [flight 0 (some 5) (.dwell 5), flight 1 none (.check ⟨3, 10, false, [freshProbe ⟨0, .hold, 0, 100, 10, 1, 1, 0, 0⟩]⟩)] 2
    let y := (nextBoundary (forAll allBays settleBay s)).bay .bay0
    Up s ∧ y.phase = .running ∧ y.supply.settle = none ∧
      y.run.inFlight = [flight 0 (some 5) (.dwell 5), flight 1 none (.check ⟨3, 10, false, [freshProbe ⟨0, .hold, 0, 100, 10, 1, 1, 0, 0⟩]⟩)]) ∧
    (let s := (running [flight 0 none .power] 1).modSupply .bay0 fun p => { p with on := true, settle := some ⟨0, 198⟩ }
    let y := (nextBoundary (forAll allBays settleBay s)).bay .bay0
    Up s ∧ y.phase = .running ∧ inSettleWindow y.supply.setting 11399 = false ∧ y.supply.settle = some ⟨0, 198⟩) ∧
    (let y := (nextBoundary (forAll allBays settleBay (inPhase .arming))).bay .bay0
    Up (inPhase .arming) ∧ y.phase ≠ .running ∧ y.phase ≠ .paused) ∧
    (let s := (inPhase .paused).modSupply .bay0 fun p => { p with retry := .offTime 3 }
    let y := (nextBoundary (forAll allBays settleBay s)).bay .bay0
    Up s ∧ y.phase = .paused ∧ (monitorBoundary y.phase 0 0 false y.supply).retry = .offTime 4) := by
  unfold Up; decide +kernel

/-- Inputs that say that step 1 started, and the prompt was armed, at their boundary and before it. -/
def startingInputs : BayInputs := { quietInputs with startsHere := [1], armedHere := true }

theorem witness_BoundaryCountsTimeAndSamplesLines_starts :
    startingInputs.monitorFirst = false ∧
    (let s := ((running [flight 0 none (.dwell 5), flight 1 (some 5) .power] 2).modSupply .bay0 fun p =>
      { p with on := true, settle := some ⟨1, 0⟩ })
    let y := (nextBoundary (forAll allBays settleBay s)).bay .bay0
    Up s ∧ y.phase = .running ∧ inSettleWindow y.supply.setting 12000 = true ∧ y.supply.settle = some ⟨1, 0⟩ ∧
      findInFlight y.run 1 = some (flight 1 (some 5) .power) ∧ (flight 1 (some 5) .power).index ∈ startingInputs.startsHere ∧
      StartsHere startingInputs (s.rackTime + 1) 1 (flight 1 (some 5) .power).start (flight 1 (some 5) .power).early ∧
      (flight 0 none (.dwell 5)).index ∉ startingInputs.startsHere) ∧
    (let h : Handed := ⟨0, 0, false, 7⟩
    let a : Action := ⟨1, 0, .value, .rate 1, 0, 5, 0, false, false, [h]⟩
    let s := (running [flight 1 none (.drive [0] false)] 2).modStim .bay0 fun u =>
      { u with actions := tabSet u.actions 13 (some a) }
    let y := (nextBoundary (forAll allBays settleBay s)).bay .bay0
    Up s ∧ y.phase = .running ∧ y.supply.settle = none ∧ y.stim.actions[(13 : Fin 14)] = some a ∧
      findInFlight y.run a.step = some (flight 1 none (.drive [0] false)) ∧
      StartsHere startingInputs (s.rackTime + 1) 1 (flight 1 none (.drive [0] false)).start false ∧
      [h] = [] ++ h :: [] ∧ ¬StartsHere startingInputs (s.rackTime + 1) h.step h.start h.early ∧
      y.stim.actions[(0 : Fin 14)] = none) ∧
    (let x := { quietInputs with stopsHere := true }
    let h : Handed := ⟨0, 0, false, 7⟩
    let s := (inPhase .closing).modStim .bay0 fun u => { u with stopped := tabSet u.stopped 13 [h] }
    let y := (nextBoundary (forAll allBays settleBay s)).bay .bay0
    x.monitorFirst = false ∧ Up s ∧ y.phase ≠ .running ∧ y.phase ≠ .paused ∧ x.stopsHere = true ∧
      y.stim.actions[(13 : Fin 14)] = none ∧ y.stim.stopped[(13 : Fin 14)] = [] ++ h :: [] ∧
      y.stim.stopped[(0 : Fin 14)] = [] ∧ ¬StartsHere x (s.rackTime + 1) h.step h.start h.early) ∧
    (let x := { quietInputs with stopsHere := true, lidOpen := true }
    let w : Watch := ⟨249, false, false⟩
    ∀ ph ∈ [Phase.closing, .idle, .halted, .offline], ∀ m ∈ [FaultMode.latch, .retry, .report],
      let s := (inPhase ph).modSupply .bay0 fun p =>
        { p with
          atClosing := condSet p.atClosing .lidOpen (some w)
          setup := { p.setup with
            deglitch := condSet p.setup.deglitch .lidOpen 250, modes := condSet p.setup.modes .lidOpen m } }
      let y := (nextBoundary (forAll allBays settleBay s)).bay .bay0
      x.monitorFirst = false ∧ Up s ∧ y.phase = ph ∧ x.stopsHere = true ∧ condGet y.supply.atClosing .lidOpen = some w ∧
        w.recognized = false ∧ condGet y.supply.setup.deglitch .lidOpen ≤ w.count + 1 ∧
        condGet y.supply.setup.modes .lidOpen = m ∧
        conditionShown (monitorBoundary y.phase 0 0 true y.supply) 0 0 .lidOpen = true) := by
  unfold Up; decide +kernel

/-- A boundary that coincides with the start of a CHECK step is not counted for it, also when it is taken after it (R133). -/
theorem test_check_start_at_boundary :
    let s := running [flight 0 none (.check ⟨0, 10, false, [freshProbe ⟨0, .hold, 0, 100, 10, 1, 1, 0, 0⟩]⟩),
      flight 1 none (.check ⟨0, 10, false, [freshProbe ⟨0, .hold, 0, 100, 10, 1, 1, 0, 0⟩]⟩)] 2
    (((after (.millisecondBoundary ⟨startingInputs, quietInputs, quietInputs, quietInputs⟩) s).bay .bay0).run.inFlight.map
      fun e => match e.work with | .check c => (c.k, c.probes.map fun p => p.fresh) | _ => (9, [])) =
        [(1, [1]), (0, [0])] := by decide +kernel

/-- A boundary that coincides with the arming of a prompt is not counted, whichever of the two is taken first; the next one is
(R206). -/
theorem test_arming_at_boundary :
    let armed := after (.transactionEnd none [] false) (onBus (displayEntry .bay0 (.prompt 0) [])
      ((running [flight 0 none .prompt] 1).modPanel .bay0 fun p =>
        { p with prompts := [⟨0, .ask, [], 5, none, .writing, none⟩], display := some (.prompt 0) }))
    let boundary := fun x => Instr.millisecondBoundary ⟨x, quietInputs, quietInputs, quietInputs⟩
    let left := fun (s : State) => (s.bay .bay0).panel.prompts.map fun q => q.remaining
    left armed = [some 5] ∧ left (after (boundary quietInputs) armed) = [some 4] ∧
      left (after (boundary startingInputs) armed) = [some 5] ∧
      left (after (boundary startingInputs) (after (boundary startingInputs) armed)) = [some 4] := by decide +kernel

theorem witness_ActionsAdvanceByTheirShape :
    (let u := fun x => { Stimulus.reset with actions := tabSet Stimulus.reset.actions 0 (some x) }
    let a : Action := ⟨0, 0, .value, .step, 0, 5, 0, false, false, []⟩
    (u a).actions[(0 : Fin 14)] = some a ∧ a.kind = .value ∧ a.reached = false ∧ a.shape = .step) ∧
    (let u := fun x => { Stimulus.reset with actions := tabSet Stimulus.reset.actions 0 (some x) }
    let a : Action := ⟨0, 0, .value, .timed 2, 0, 5, 0, false, false, []⟩
    (u a).actions[(0 : Fin 14)] = some a ∧ a.kind = .value ∧ a.reached = false ∧ a.shape = .timed 2 ∧ a.count = 0 ∧ 1 ≤ 2) ∧
    (let u := fun x => { Stimulus.reset with actions := tabSet Stimulus.reset.actions 0 (some x) }
    let a : Action := ⟨0, 0, .value, .rate 1, 0, 1, 0, false, false, []⟩
    (u a).actions[(0 : Fin 14)] = some a ∧ a.kind = .value ∧ a.reached = false ∧ a.shape = .rate 1 ∧ 1 ≤ 1) ∧
    (let u := fun x => { Stimulus.reset with actions := tabSet Stimulus.reset.actions 2 (some x) }
    let a : Action := ⟨0, 0, .opened, .step, 7, 7, 0, false, false, []⟩
    let x : Action := ⟨0, 0, .shorted, .timed 600000, 7, 7, 0, false, false, []⟩
    (u a).actions[(2 : Fin 14)] = some a ∧ a.kind ≠ .value ∧ a.reached = false ∧
      (u x).actions[(2 : Fin 14)] = some x ∧ x.kind ≠ .value ∧ x.reached = false) := by
  decide +kernel

theorem witness_OnlyRunningBaysCountStepClocks :
    (((inPhase .paused).bay .bay0).phase ≠ .running) ∧
    (let s := running [flight 0 (some 1) (.dwell 1), flight 1 none (.check ⟨0, 1, false, []⟩)] 2
    (s.bay .bay0).phase = .running ∧ flight 0 (some 1) (.dwell 1) ∈ (s.bay .bay0).run.inFlight ∧
      flight 1 none (.check ⟨0, 1, false, []⟩) ∈ (s.bay .bay0).run.inFlight) ∧
    (let h : Handed := ⟨0, 0, false, 5⟩
    let a : Action := ⟨1, 0, .value, .rate 1, 0, 5, 0, false, false, [⟨1, 0, false, 9⟩, h]⟩
    let s := ((nextBoundary (running [flight 0 none (.dwell 1), flight 1 none (.drive [0] false)] 2)).modStim .bay0 fun u =>
      { u with actions := tabSet u.actions 13 (some a) })
    (s.bay .bay0).phase = .running ∧ (s.bay .bay0).stim.actions[(13 : Fin 14)] = some a ∧
      findInFlight (s.bay .bay0).run 1 = some (flight 1 none (.drive [0] false)) ∧
      StartsHere startingInputs s.rackTime 1 (flight 1 none (.drive [0] false)).start false ∧
      a.older = [⟨1, 0, false, 9⟩] ++ h :: [] ∧ ¬StartsHere startingInputs s.rackTime h.step h.start h.early ∧
      0 ∉ startingInputs.startsHere) := by
  decide +kernel

theorem witness_ConditionsAreDeglitched :
    (let p := { Supply.reset with watches := condSet Supply.reset.watches .lidOpen ⟨8, false, false⟩ }
    false = (decide (p.setup.modes.lidOpen ≠ .off) && (p.on || decide (Phase.running = .arming)))) ∧
    (let p := { Supply.reset with on := true, watches := condSet Supply.reset.watches .lidOpen ⟨8, false, false⟩ }
    true = (decide (p.setup.modes.lidOpen ≠ .off) && (p.on || decide (Phase.running = .arming))) ∧
      (condGet p.watches .lidOpen).recognized = false ∧
      (condGet p.watches .lidOpen).count + 1 < condGet p.setup.deglitch .lidOpen) ∧
    (let p := { Supply.reset with on := true, watches := condSet Supply.reset.watches .overcurrent ⟨9, false, false⟩ }
    true = (decide (p.setup.modes.overcurrent ≠ .off) && p.on) ∧ true = decide ((p.setup.currentLimit : Int) < 1001) ∧
      false = decide ((p.setup.currentLimit : Int) < 1000) ∧ (condGet p.watches .overcurrent).recognized = false ∧
      condGet p.setup.deglitch .overcurrent ≤ (condGet p.watches .overcurrent).count + 1) ∧
    (let p := { Supply.reset with
      on := true, armed := true, watches := condSet Supply.reset.watches .undervoltage ⟨10, true, false⟩ }
    true = (decide (p.setup.modes.undervoltage ≠ .off) && p.on && p.armed) ∧
      true = decide (10799 < roundDiv ((p.setting : Int) * (100 - p.setup.uvBand)) 100) ∧
      false = decide (10800 < roundDiv ((p.setting : Int) * (100 - p.setup.uvBand)) 100) ∧
      (condGet p.watches .undervoltage).recognized = true) ∧
    (let p := { Supply.reset with on := true, armed := true }
    true = (decide (p.setup.modes.overvoltage ≠ .off) && p.on && p.armed) ∧
      true = decide (roundDiv ((p.setting : Int) * (100 + p.setup.ovBand)) 100 < 13201) ∧
      false = decide (roundDiv ((p.setting : Int) * (100 + p.setup.ovBand)) 100 < 13200)) ∧
    ({ Supply.reset with retry := .offTime 999 }.retry = .offTime 999) ∧
    ({ Supply.reset with retry := .settling 199 }.retry = .settling 199) := by
  decide +kernel

theorem witness_SettledAtTheBoundary :
    (let s := (running [flight 3 none .power] 4).modSupply .bay0 fun p => { p with on := true, settle := some ⟨3, 5⟩ }
    11399 < roundDiv (((s.bay .bay0).supply.setting : Int) * 95) 100 ∧
      roundDiv (((s.bay .bay0).supply.setting : Int) * 105) 100 < 12601 ∧
      (s.bay .bay0).supply.settle = some ⟨3, 5⟩ ∧ 1 ≤ 5 ∧ (s.bay .bay0).phase = .running ∧
      roundDiv (((s.bay .bay0).supply.setting : Int) * 95) 100 ≤ 11400 ∧
      12600 ≤ roundDiv (((s.bay .bay0).supply.setting : Int) * 105) 100 ∧
      findInFlight (s.bay .bay0).run 3 = some (flight 3 none .power) ∧ 3 < (s.bay .bay0).run.next ∧
      ((s.bay .bay0).run.inFlight.map fun e => e.index).Nodup ∧ (∀ e ∈ (s.bay .bay0).run.inFlight, checkDue e = false)) ∧
    (let s := (running [flight 3 none .power] 4).modSupply .bay0 fun p => { p with on := true, settle := some ⟨3, 0⟩ }
    (s.bay .bay0).supply.settle = some ⟨3, 0⟩ ∧ (s.bay .bay0).phase = .running) ∧
    (((inPhase .arming).bay .bay0).phase ≠ .running ∧ ((inPhase .arming).bay .bay0).phase ≠ .paused) ∧
    (((inPhase .running).bay .bay0).phase = .running ∧ ((inPhase .running).bay .bay0).supply.settle = none) ∧
    (((inPhase .paused).bay .bay0).phase = .paused ∧ ((inPhase .paused).bay .bay0).supply.retry = .none) ∧
    (let e : InFlight := { flight 0 none (.check ⟨3, 5, false, [freshProbe ⟨0, .hold, 0, 100, 10, 1, 1, 0, 0⟩]⟩) with overlap := false }
    let s := ((withRun .paused fun r => { r with next := 1, inFlight := [e] }).modSupply .bay0 fun p =>
      { p with on := true, retry := .settling 5, retryFault := some .overcurrent }).modNet .bay0 fun n =>
      { n with work := tabSet n.work 15 { EntryWork.reset with on := true } }
    (s.bay .bay0).phase = .paused ∧ (s.bay .bay0).supply.retry = .settling 5 ∧ e ∈ (s.bay .bay0).run.inFlight ∧
      e.overlap = false ∧ roundDiv (((s.bay .bay0).supply.setting : Int) * 95) 100 ≤ 11400 ∧
      11400 ≤ roundDiv (((s.bay .bay0).supply.setting : Int) * 105) 100 ∧ (s.bay .bay0).net.work[(15 : Fin 16)].on = true) := by
  decide +kernel

/-- The last boundary of the period of a CHECK step whose one probe has passed. -/
def passedCheck : CheckWork :=
  ⟨10, 10, false, [{ freshProbe ⟨0, .hold, 0, 100, 10, 1, 1, 0, 0⟩ with fresh := 1 }]⟩

theorem witness_SettledAtTheBoundary_check :
    let s := (withRun .running fun r => { r with
      next := 2, inFlight := [flight 0 none .power, flight 1 none (.check passedCheck)]
      copy := { r.copy with header := some (headerOf 3) } }).modSupply .bay0 fun p => { p with on := true, settle := some ⟨0, 5⟩ }
    (s.bay .bay0).supply.settle = some ⟨0, 5⟩ ∧ (s.bay .bay0).phase = .running ∧ 1 < (s.bay .bay0).run.next ∧
      ((s.bay .bay0).run.inFlight.map fun e => e.index).Nodup ∧
      findInFlight (s.bay .bay0).run 0 = some (flight 0 none .power) ∧
      findInFlight (s.bay .bay0).run 1 = some (flight 1 none (.check passedCheck)) ∧ passedCheck.period ≤ passedCheck.k ∧
      (s.bay .bay0).run.copy.header = some (headerOf 3) ∧
      ¬ FailingOutcome (headerOf 3) (checkOutcome (passedCheck.probes.map decideProbe)) := by
  decide +kernel

theorem witness_SettledAtTheBoundary_walker :
    let p := fun (y : BayState) => { y with supply := { y.supply with on := true, retry := .settling 5, retryFault := some .overcurrent } }
    let step : Step := ⟨true, false, false, 0, 0, .dwell 5⟩
    let copy := fun (r : RunEngine) => { r with copy := { r.copy with header := some (headerOf 2), steps := [step, step] } }
    (let s := (withRun .paused fun r => copy { r with next := 1, inFlight := [flight 0 none (.dwell 5)] }).modBay .bay0 p
    (s.bay .bay0).phase = .paused ∧ (s.bay .bay0).supply.retry = .settling 5 ∧
      (∀ e ∈ (s.bay .bay0).run.inFlight, e.overlap = true ∧ e.work = .dwell 5) ∧
      (s.bay .bay0).run.inFlight.length < 4 ∧
      (s.bay .bay0).run.next < stepCount (s.bay .bay0).run) ∧
    (let s := (withRun .paused fun r => copy { r with next := 2, inFlight := [flight 0 none (.dwell 5)] }).modBay .bay0 p
    (s.bay .bay0).phase = .paused ∧ (s.bay .bay0).run.inFlight ≠ [] ∧ stepCount (s.bay .bay0).run ≤ (s.bay .bay0).run.next) ∧
    (let s := (withRun .paused fun r => copy { r with next := 2 }).modBay .bay0 p
    (s.bay .bay0).phase = .paused ∧ (s.bay .bay0).run.inFlight = [] ∧ stepCount (s.bay .bay0).run ≤ (s.bay .bay0).run.next) := by
  decide +kernel

theorem witness_CommandBlocksReadInOrder :
    (Up State.reset ∧ State.reset.xu.pass = none) ∧
    (let p : Pass := ⟨.word .bay0 .a false, someRead, true, [], [], false, false⟩
    let s := (inPhase .idle).modXu fun x => { x with run := true, pass := some p }
    Up s ∧ s.xu.pass = some p ∧ p.waits = true ∧ p.read ≠ .rackBlock ∧ ∀ b ∈ allBays, p.read ≠ .bayBlock b) ∧
    (let p : Pass := ⟨.rackBlock, someRead, false, [], [], false, false⟩
    let s := (inPhase .idle).modXu fun x => { x with run := true, pass := some p }
    Up s ∧ s.xu.pass = some p ∧ p.waits = false ∧ p.read = .rackBlock ∧ (BitVec.ofNat 16 (u16At [] 2) : Word16) = 0 ∧
      (BitVec.ofNat 16 (u16At [1, 0, 255, 255] 2) : Word16) ≠ 0 ∧
      (BitVec.ofNat 16 (u16At [1, 0, 255, 255] 2) : Word16) ≠ s.xu.rackSeq ∧ u16At [1, 0, 255, 255] 0 = 1 ∧
      (BitVec.ofNat 16 (u16At [2, 0, 1, 0] 2) : Word16) ≠ 0 ∧ u16At [2, 0, 1, 0] 0 ≠ 1) ∧
    (let p : Pass := ⟨.bayBlock .bay0, someRead, false, [], [], true, false⟩
    let s := (inPhase .idle).modXu fun x => { x with run := true, pass := some p }
    Up s ∧ s.xu.pass = some p ∧ p.waits = false ∧ p.read = .bayBlock .bay0 ∧ p.discard = true) ∧
    (let p : Pass := ⟨.bayBlock .bay0, someRead, false, [], [], false, false⟩
    let s := (inPhase .idle).modXu fun x => { x with run := true, pass := some p }
    Up s ∧ s.xu.pass = some p ∧ p.waits = false ∧ p.read = .bayBlock .bay0 ∧ p.discard = false ∧
      (s.bay .bay0).xu.enabled = true ∧ (BitVec.ofNat 16 (u16At [1, 0, 255, 255] 2) : Word16) ≠ 0 ∧
      (BitVec.ofNat 16 (u16At [1, 0, 255, 255] 2) : Word16) ≠ (s.bay .bay0).xu.lastSeq) ∧
    (u16At [1, 0, 1, 0] 0 = 1 ∧ u16At [2, 0, 1, 0] 0 = 2 ∧ u16At [3, 0, 1, 0] 0 = 3 ∧ u16At [4, 0, 1, 0] 0 ≠ 1 ∧
      u16At [4, 0, 1, 0] 0 ≠ 2 ∧ u16At [4, 0, 1, 0] 0 ≠ 3) := by
  unfold Up; decide +kernel

theorem witness_CommandBlocksReadInOrder_next :
    (let s := (withBay fun y => { y with phase := .idle, xu := { y.xu with enabled := true, withdrawal := some ⟨.b, 1, someRead⟩ } }).modXu
      fun x => { x with run := true, pass := some ⟨.bayBlock .bay0, someRead, false, [], [], false, false⟩ }
    (s.bay .bay0).xu.withdrawal ≠ none ∧ s.xu.pass ≠ none) ∧
    (let p : Pass := ⟨.word .bay0 .b true, someRead, false, [], [], false, true⟩
    let s := (inPhase .idle).modXu fun x => { x with run := true, pass := some p }
    NoWithdrawal s ∧ s.xu.pass = some p ∧ p.ending = true) ∧
    (let p : Pass := ⟨.rackBlock, someRead, false, [], [], false, false⟩
    let s := (inPhase .idle).modXu fun x => { x with run := true, pass := some p }
    NoWithdrawal s ∧ s.xu.pass = some p ∧ p.ending = false ∧
      allBays.find? (fun b => (s.bay b).xu.enabled) = some .bay0 ∧
      (baysAfter .bay0).find? (fun b => (s.bay b).xu.enabled) = none) := by
  have h {s : State} (h0 : ∀ b ∈ allBays, (s.bay b).xu.withdrawal = none) : NoWithdrawal s := fun b =>
    h0 b (by cases b <;> decide)
  exact ⟨by decide, ⟨h (by decide), by decide⟩, h (by decide), by decide⟩

theorem witness_RequestsActOncePerSequence :
    (Up State.reset ∧ (State.reset.bay .bay0).xu.enabled = false) ∧
    ((0 : Word16) = State.reset.xu.rackSeq) ∧
    ((65535 : Word16) ≠ 0 ∧ (65535 : Word16) ≠ ((inPhase .idle).bay .bay0).xu.lastSeq ∧ ((inPhase .idle).bay .bay0).xu.enabled = true ∧ Up (inPhase .idle)) ∧
    ((65535 : Word16) ≠ 0 ∧ (65535 : Word16) ≠ State.reset.xu.rackSeq) := by
  unfold Up; decide +kernel

theorem witness_AbortRequestEndsTheRun :
    (let s := inPhase .closing
    Up s ∧ (1 : Word16) ≠ 0 ∧ (1 : Word16) ≠ (s.bay .bay0).xu.lastSeq ∧ (s.bay .bay0).xu.enabled = true ∧
      NoCheckDue .bay0 s ∧ (s.bay .bay0).phase = .closing) ∧
    (let s := loadingState .header none
    Up s ∧ (1 : Word16) ≠ 0 ∧ (1 : Word16) ≠ (s.bay .bay0).xu.lastSeq ∧ (s.bay .bay0).xu.enabled = true ∧
      NoCheckDue .bay0 s ∧ (s.bay .bay0).phase = .loading ∧
      (s.bay .bay0).run.load = some ⟨.header, someRead, none, none⟩) ∧
    (let s := running [flight 0 none (.dwell 5)] 1
    Up s ∧ (1 : Word16) ≠ 0 ∧ (1 : Word16) ≠ (s.bay .bay0).xu.lastSeq ∧ (s.bay .bay0).xu.enabled = true ∧
      NoCheckDue .bay0 s ∧ (s.bay .bay0).run.load = none ∧ (s.bay .bay0).phase = .running) := by
  unfold Up NoCheckDue; decide +kernel

theorem witness_WithdrawalReadsAndHandsBack :
    (let s := inPhase .halted
    Up s ∧ (1 : Word16) ≠ 0 ∧ (1 : Word16) ≠ (s.bay .bay0).xu.lastSeq ∧ (s.bay .bay0).xu.enabled = true ∧
      (1 : Word32) = (match Slot.b with | .a => 0 | .b => 1) ∧ (s.bay .bay0).phase = .halted) ∧
    (let s := inPhase .running
    Up s ∧ (1 : Word16) ≠ 0 ∧ (1 : Word16) ≠ (s.bay .bay0).xu.lastSeq ∧ (s.bay .bay0).xu.enabled = true ∧
      (s.bay .bay0).phase ≠ .idle ∧ (s.bay .bay0).phase ≠ .halted) ∧
    ((2 : Word32) ≠ 0 ∧ (2 : Word32) ≠ 1) ∧
    (let s := withBay fun y => { y with phase := .running, xu := { y.xu with enabled := true, withdrawal := some ⟨.b, 1, someRead⟩ } }
    Up s ∧ (s.bay .bay0).xu.withdrawal = some ⟨.b, 1, someRead⟩ ∧ s.xu.pass = none ∧ (s.bay .bay0).phase ≠ .idle ∧
      (s.bay .bay0).phase ≠ .halted) ∧
    (let s := withBay fun y => { y with phase := .idle, xu := { y.xu with enabled := true, withdrawal := some ⟨.b, 1, someRead⟩ } }
    Up s ∧ (s.bay .bay0).xu.withdrawal = some ⟨.b, 1, someRead⟩ ∧ s.xu.pass = none ∧ (2 : Word32) ≠ 1 ∧ (1 : Word32) = 1 ∧
      (s.bay .bay0).phase = .idle) ∧
    (let p : Pass := ⟨.bayBlock .bay0, someRead, true, [], [], false, false⟩
    let s := (withBay fun y => { y with phase := .halted, xu := { y.xu with enabled := true, withdrawal := some ⟨.b, 1, someRead⟩ } }).modXu fun x =>
      { x with run := true, pass := some p }
    Up s ∧ (s.bay .bay0).xu.withdrawal = some ⟨.b, 1, someRead⟩ ∧ s.xu.pass = some p ∧ p.waits = true ∧
      (s.bay .bay0).phase = .halted ∧ (3 : Word32) ≠ 1 ∧ ∀ o ∈ allBays, o ≠ .bay0 → (s.bay o).xu.withdrawal = none) ∧
    (let p : Pass := ⟨.bayBlock .bay1, someRead, false, [], [(.bay0, .a)], false, false⟩
    let s := (withBay fun y => { y with phase := .halted, xu := { y.xu with enabled := true, withdrawal := some ⟨.b, 1, someRead⟩ } }).modXu fun x =>
      { x with run := true, pass := some p }
    Up s ∧ (s.bay .bay0).xu.withdrawal = some ⟨.b, 1, someRead⟩ ∧ s.xu.pass = some p ∧ p.waits = false) := by
  unfold Up; decide +kernel

theorem witness_ClearRecoverAndUnknownRequests :
    (let s := inPhase .halted
    Up s ∧ (1 : Word16) ≠ 0 ∧ (1 : Word16) ≠ (s.bay .bay0).xu.lastSeq ∧ (s.bay .bay0).xu.enabled = true ∧
      (s.bay .bay0).phase = .halted) ∧
    (let s := inPhase .idle
    Up s ∧ (1 : Word16) ≠ 0 ∧ (1 : Word16) ≠ (s.bay .bay0).xu.lastSeq ∧ (s.bay .bay0).xu.enabled = true ∧
      (s.bay .bay0).phase ≠ .halted) ∧
    (Up (withBus fun u => { u with state := .failed }) ∧ (1 : Word16) ≠ 0 ∧ (1 : Word16) ≠ (withBus fun u => { u with state := .failed }).xu.rackSeq ∧ (withBus fun u => { u with state := .failed }).bus.state = .failed) ∧
    (Up State.reset ∧ (1 : Word16) ≠ State.reset.xu.rackSeq ∧ State.reset.bus.state ≠ .failed) := by
  unfold Up; decide +kernel

theorem witness_OwnershipFindings :
    (Up State.reset ∧ State.reset.xu.pass = none) ∧
    (let p : Pass := ⟨.word .bay0 .a false, someRead, true, [], [], false, false⟩
    let s := (inPhase .idle).modXu fun x => { x with run := true, pass := some p }
    Up s ∧ s.xu.pass = some p ∧ p.waits = true) ∧
    (let p : Pass := ⟨.word .bay0 .a false, someRead, false, [], [], true, false⟩
    let s := (inPhase .idle).modXu fun x => { x with run := true, pass := some p }
    Up s ∧ s.xu.pass = some p ∧ p.waits = false ∧ p.discard = true ∧ p.read = .word .bay0 .a false) ∧
    (let p : Pass := ⟨.word .bay0 .b true, someRead, false, [], [], false, false⟩
    let s := (inPhase .idle).modXu fun x => { x with run := true, pass := some p }
    Up s ∧ s.xu.pass = some p ∧ p.waits = false ∧ p.discard = false ∧ p.read = .word .bay0 .b true ∧ (2 : Word32) ≠ 1 ∧
      (1 : Word32) = 1 ∧ (s.bay .bay0).phase = .idle ∧ (s.bay .bay0).run.slot ≠ some .b ∧ (Bay.bay0, Slot.b) ∉ p.withdrawn) ∧
    (let p : Pass := ⟨.word .bay0 .a true, someRead, false, [.b], [(.bay0, .a)], false, false⟩
    let s := (inPhase .halted).modXu fun x => { x with run := true, pass := some p }
    Up s ∧ s.xu.pass = some p ∧ p.waits = false ∧ p.discard = false ∧ (Bay.bay0, Slot.a) ∈ p.withdrawn ∧
      some Slot.b = p.posted.find? (fun z => (s.bay .bay0).run.slot ≠ some z) ∧ (s.bay .bay0).xu.waiting ≠ some .b) ∧
    (let p : Pass := ⟨.word .bay0 .b true, someRead, false, [], [], false, false⟩
    let s := (withRun .running id).modXu fun x => { x with run := true, pass := some p }
    Up s ∧ s.xu.pass = some p ∧ p.waits = false ∧ p.discard = false ∧ (s.bay .bay0).phase ≠ .idle ∧
      (s.bay .bay0).run.slot ≠ some .b ∧ (Bay.bay0, Slot.b) ∉ p.withdrawn) := by
  unfold Up; decide +kernel

theorem witness_OwnershipFindings_backToBack :
    (Up State.reset ∧ (State.reset.bay .bay0).xu.backToBack = none) ∧
    (let s := (inPhase .idle).modBayXu .bay0 fun x => { x with backToBack := some (.b, someRead) }
    Up s ∧ (s.bay .bay0).xu.backToBack = some (.b, someRead) ∧ (2 : Word32) ≠ 1 ∧ (s.bay .bay0).phase = .idle) ∧
    (let s := (withRun .loading id).modBayXu .bay0 fun x => { x with backToBack := some (.b, someRead) }
    Up s ∧ (s.bay .bay0).xu.backToBack = some (.b, someRead) ∧ (s.bay .bay0).phase ≠ .idle ∧
      (s.bay .bay0).run.slot = some (otherSlot .b) ∧ (s.bay .bay0).xu.waiting ≠ some .b) ∧
    (let s := (inPhase .halted).modBayXu .bay0 fun x => { x with backToBack := some (.a, someRead) }
    Up s ∧ (s.bay .bay0).xu.backToBack = some (.a, someRead) ∧ (s.bay .bay0).phase ≠ .idle ∧
      (s.bay .bay0).run.slot ≠ some (otherSlot .a)) := by
  unfold Up; decide +kernel

theorem witness_StatusWritesCoalesce :
    (Up State.reset ∧ (State.reset.bay .bay0).xu.write = .idle ∧ State.reset.xu.rackWrite = .idle) ∧
    (let s := ((inPhase .idle).modBayXu .bay0 fun x => { x with write := .busy }).modXu fun x => { x with rackWrite := .busy }
    Up s ∧ (s.bay .bay0).xu.write = .busy ∧ s.xu.rackWrite = .busy) ∧
    (let s := ((inPhase .idle).modBayXu .bay0 fun x => { x with write := .busyMarked }).modXu fun x =>
      { x with rackWrite := .busyMarked }
    Up s ∧ (s.bay .bay0).xu.write = .busyMarked ∧ s.xu.rackWrite = .busyMarked) := by
  unfold Up; decide +kernel

theorem witness_ReadErrorsByAccess :
    (Instr.readTimeout = Instr.readTimeout) ∧
    ((ErrorKind.timeout = .timeout) ∧ (ErrorKind.readError = .readError)) ∧
    (let p : Pass := ⟨.rackBlock, someRead, false, [], [], false, false⟩
    let s := (inPhase .idle).modXu fun x => { x with run := true, pass := some p }
    Up s ∧ s.xu.pass = some p ∧ p.waits = false ∧ p.read = .rackBlock) ∧
    (let p : Pass := ⟨.word .bay0 .a true, someRead, false, [], [], false, false⟩
    let s := (inPhase .idle).modXu fun x => { x with run := true, pass := some p }
    Up s ∧ s.xu.pass = some p ∧ p.waits = false ∧ p.read = .word .bay0 .a true) ∧
    (let s := (inPhase .idle).modBayXu .bay0 fun x => { x with backToBack := some (.b, someRead) }
    Up s ∧ (s.bay .bay0).xu.backToBack = some (.b, someRead)) ∧
    (let p : Pass := ⟨.bayBlock .bay0, someRead, true, [], [], false, false⟩
    let s := (withBay fun y => { y with phase := .idle, xu := { y.xu with enabled := true, withdrawal := some ⟨.b, 1, someRead⟩ } }).modXu
      fun x => { x with run := true, pass := some p }
    Up s ∧ (s.bay .bay0).xu.withdrawal = some ⟨.b, 1, someRead⟩ ∧ s.xu.pass = some p ∧ p.waits = true ∧
      ∀ o ∈ allBays, o ≠ .bay0 → (s.bay o).xu.withdrawal = none) ∧
    (let s := withBay fun y => { y with phase := .idle, xu := { y.xu with enabled := true, withdrawal := some ⟨.b, 1, someRead⟩ } }
    Up s ∧ (s.bay .bay0).xu.withdrawal = some ⟨.b, 1, someRead⟩ ∧ s.xu.pass = none) ∧
    (let s := loadingState .text none
    Up s ∧ (s.bay .bay0).phase = .loading ∧ (s.bay .bay0).run.load = some ⟨.text, someRead, none, none⟩ ∧ NoCheckDue .bay0 s ∧
      (s.bay .bay0).xu.refused = none) := by
  unfold Up NoCheckDue; exact ⟨rfl, by decide +kernel⟩

theorem witness_WriteErrorsByAccess :
    (Up State.reset ∧ (State.reset.bay .bay0).run.slot = none ∧ State.reset.xu.stream = []) ∧
    (let s := withXu fun x => { x with stream := [.write (.finished .bay0) 0x1000 [3, 0, 0, 0]] }
    Up s ∧ (s.bay .bay0).run.slot = none ∧ StreamItem.write (.finished .bay0) 0x1000 [3, 0, 0, 0] ∈ s.xu.stream) ∧
    (let s := withRun .closing fun r => { r with copy := { r.copy with header := some (headerOf 1) } }
    Up s ∧ NoCheckDue .bay0 s ∧ (s.bay .bay0).run.slot ≠ none ∧ (s.bay .bay0).run.lost = false ∧
      (s.bay .bay0).run.copy.header = some (headerOf 1) ∧ (s.bay .bay0).phase = .closing) ∧
    (let s := loadingState (.record 95) (some .operator)
    Up s ∧ NoCheckDue .bay0 s ∧ (s.bay .bay0).run.slot ≠ none ∧ (s.bay .bay0).run.lost = false ∧
      (s.bay .bay0).phase = .loading ∧ (s.bay .bay0).run.load = some ⟨.record 95, someRead, some .operator, none⟩) ∧
    (let s := running [flight 0 none .prompt] 1
    Up s ∧ NoCheckDue .bay0 s ∧ (s.bay .bay0).run.slot ≠ none ∧ (s.bay .bay0).run.lost = false ∧
      (s.bay .bay0).run.load = none ∧ (s.bay .bay0).phase = .running) ∧
    (let s := withRun .closing fun r => { r with lost := true }
    Up s ∧ NoCheckDue .bay0 s ∧ (s.bay .bay0).run.slot ≠ none ∧ (s.bay .bay0).run.lost = true ∧ (s.bay .bay0).phase = .closing) := by
  unfold Up NoCheckDue; decide +kernel

theorem witness_WriteErrorsByAccess_status :
    (let s := (inPhase .halted).modBayXu .bay0 fun x => { x with write := .busyMarked }
    Up s ∧ (s.bay .bay0).xu.write = .busyMarked ∧ (s.bay .bay0).phase = .halted ∧ NoCheckDue .bay0 s) ∧
    (let s := (withRun .closing id).modBayXu .bay0 fun x => { x with write := .busyMarked }
    Up s ∧ (s.bay .bay0).xu.write = .busyMarked ∧ (s.bay .bay0).phase = .closing ∧ NoCheckDue .bay0 s) ∧
    (let s := (loadingState .header none).modBayXu .bay0 fun x => { x with write := .busyMarked }
    Up s ∧ (s.bay .bay0).xu.write = .busyMarked ∧ (s.bay .bay0).phase = .loading ∧ NoCheckDue .bay0 s ∧
      (s.bay .bay0).xu.refused = none ∧ (s.bay .bay0).run.load = some ⟨.header, someRead, none, none⟩) ∧
    (let s := (running [] 0).modBayXu .bay0 fun x => { x with write := .busyMarked }
    Up s ∧ (s.bay .bay0).xu.write = .busyMarked ∧ (s.bay .bay0).phase = .running ∧ (s.bay .bay0).run.load = none ∧
      (s.bay .bay0).xu.refused = none ∧ NoCheckDue .bay0 s) ∧
    (Up State.reset ∧ (State.reset.bay .bay0).xu.write = .idle ∧ State.reset.xu.rackWrite = .idle) ∧
    (let s := withXu fun x => { x with rackWrite := .busyMarked }
    Up s ∧ s.xu.rackWrite = .busyMarked) := by
  unfold Up NoCheckDue; decide +kernel

theorem witness_LoadingReadsInOrder :
    (let s := loadingState .header none
    Up s ∧ (s.bay .bay0).phase = .loading ∧ (s.bay .bay0).run.slot = some .a ∧
      (s.bay .bay0).run.load = some ⟨.header, someRead, none, none⟩ ∧ 1 ≤ u16At (List.replicate 12 0 ++ [1, 0, 15, 0]) 0x0C ∧
      u16At (List.replicate 12 0 ++ [96, 0, 0, 0]) 0x0C ≤ 96) ∧
    (let s := loadingState .header none
    Up s ∧ (s.bay .bay0).phase = .loading ∧ (s.bay .bay0).run.load = some ⟨.header, someRead, none, none⟩ ∧ u16At (List.replicate 12 0 ++ [0, 0, 0, 0]) 0x0C = 0 ∧
      96 < u16At (List.replicate 12 0 ++ [97, 0, 0, 0]) 0x0C) ∧
    (let s := loadingState .header (some .operator)
    Up s ∧ (s.bay .bay0).phase = .loading ∧ (s.bay .bay0).run.load = some ⟨.header, someRead, some .operator, none⟩) ∧
    (let s := withRun .loading fun r => { r with load := some ⟨.text, someRead, some .request, some 9⟩ }
    Up s ∧ (s.bay .bay0).phase = .loading ∧ (s.bay .bay0).run.load = some ⟨.text, someRead, some .request, some 9⟩) ∧
    (let s := withRun .loading fun r => { r with load := some ⟨(.record 95), someRead, none, none⟩, copy := { r.copy with header := some (headerOf 96) } }
    Up s ∧ (s.bay .bay0).phase = .loading ∧ (s.bay .bay0).run.load = some ⟨(.record 95), someRead, none, none⟩ ∧
      (s.bay .bay0).run.copy.header = some (headerOf 96) ∧ 95 < (headerOf 96).stepCount ∧ (headerOf 96).stepCount ≤ 96) ∧
    (let s := withRun .loading fun r => { r with load := some ⟨(.record 0), someRead, none, none⟩, copy := { r.copy with header := some (headerOf 1) } }
    Up s ∧ (s.bay .bay0).phase = .loading ∧ (s.bay .bay0).run.load = some ⟨(.record 0), someRead, none, none⟩ ∧
      (s.bay .bay0).run.copy.header = some (headerOf 1) ∧ 0 < (headerOf 1).stepCount ∧ 1 ≤ (headerOf 1).stepCount) ∧
    (let s := withRun .loading fun r => { r with load := some ⟨.stimulus, someRead, none, none⟩, copy := { r.copy with header := some { headerOf 1 with hasStimulus := true } } }
    Up s ∧ (s.bay .bay0).phase = .loading ∧ (s.bay .bay0).run.load = some ⟨.stimulus, someRead, none, none⟩ ∧
      (s.bay .bay0).run.copy.header = some { headerOf 1 with hasStimulus := true } ∧ 1 ≤ (headerOf 1).stepCount) ∧
    (let s := withRun .loading fun r => { r with load := some ⟨.schedule, someRead, none, none⟩, copy := { r.copy with header := some { headerOf 1 with hasSchedule := true } } }
    Up s ∧ (s.bay .bay0).phase = .loading ∧ (s.bay .bay0).run.load = some ⟨.schedule, someRead, none, none⟩ ∧
      (s.bay .bay0).run.copy.header = some { headerOf 1 with hasSchedule := true } ∧ 1 ≤ (headerOf 1).stepCount) ∧
    (let s := withRun .loading fun r => { r with load := some ⟨.taps, someRead, none, none⟩, copy := { r.copy with header := some { headerOf 1 with hasTaps := true } } }
    Up s ∧ (s.bay .bay0).phase = .loading ∧ (s.bay .bay0).run.load = some ⟨.taps, someRead, none, none⟩ ∧
      (s.bay .bay0).run.copy.header = some { headerOf 1 with hasTaps := true } ∧ 1 ≤ (headerOf 1).stepCount) ∧
    (let s := withRun .loading fun r => { r with load := some ⟨.supervision, someRead, none, none⟩, copy := { r.copy with header := some { headerOf 1 with hasSupervision := true } } }
    Up s ∧ (s.bay .bay0).phase = .loading ∧ (s.bay .bay0).run.load = some ⟨.supervision, someRead, none, none⟩ ∧
      (s.bay .bay0).run.copy.header = some { headerOf 1 with hasSupervision := true } ∧ 1 ≤ (headerOf 1).stepCount) := by
  unfold Up; decide +kernel

theorem witness_ValidationDecidesTheRun :
    (let s := withRun .loading fun r => { r with load := some ⟨.text, someRead, none, none⟩, copy := { r.copy with header := some { headerOf 1 with passText := 4049 }, records := [] } }
    Up s ∧ (s.bay .bay0).phase = .loading ∧ (s.bay .bay0).run.load = some ⟨.text, someRead, none, none⟩ ∧
      (s.bay .bay0).run.copy.header = some { headerOf 1 with passText := 4049 } ∧ 1 ≤ ({ headerOf 1 with passText := 4049 } : Header).stepCount ∧ ({ headerOf 1 with passText := 4049 } : Header).stepCount ≤ 96 ∧
      textOffsetValid 4049 = false ∧ textOffsetValid 4048 = true) ∧
    (let s := withRun .loading fun r => { r with load := some ⟨.text, someRead, none, none⟩, copy := { r.copy with header := some { headerOf 1 with hasStimulus := true }, records := [], stimulus := List.replicate 1344 255 } }
    Up s ∧ (s.bay .bay0).phase = .loading ∧ (s.bay .bay0).run.load = some ⟨.text, someRead, none, none⟩ ∧
      (s.bay .bay0).run.copy.header = some { headerOf 1 with hasStimulus := true } ∧ 1 ≤ ({ headerOf 1 with hasStimulus := true } : Header).stepCount ∧ ({ headerOf 1 with hasStimulus := true } : Header).stepCount ≤ 96 ∧
      textOffsetValid 0 = true ∧ (setupAfter { headerOf 1 with hasStimulus := true } (s.bay .bay0)).isNone = true) ∧
    (let s := withRun .loading fun r => { r with load := some ⟨.text, someRead, none, none⟩, copy := { r.copy with header := some (headerOf 1), records := [[9]] } }
    Up s ∧ (s.bay .bay0).phase = .loading ∧ (s.bay .bay0).run.load = some ⟨.text, someRead, none, none⟩ ∧
      (s.bay .bay0).run.copy.header = some (headerOf 1) ∧ 1 ≤ ((headerOf 1) : Header).stepCount ∧ ((headerOf 1) : Header).stepCount ≤ 96 ∧
      textOffsetValid 0 = true ∧ (setupAfter (headerOf 1) (s.bay .bay0)).isSome = true ∧
      (s.bay .bay0).run.copy.records = [[9]]) ∧
    (let s := withRun .loading fun r => { r with load := some ⟨.text, someRead, none, none⟩, copy := { r.copy with header := some (headerOf 1), records := [[2, 0, 1, 0]] } }
    Up s ∧ (s.bay .bay0).phase = .loading ∧ (s.bay .bay0).run.load = some ⟨.text, someRead, none, none⟩ ∧
      (s.bay .bay0).run.copy.header = some (headerOf 1) ∧ 1 ≤ ((headerOf 1) : Header).stepCount ∧ ((headerOf 1) : Header).stepCount ≤ 96 ∧
      textOffsetValid 0 = true ∧ (setupAfter (headerOf 1) (s.bay .bay0)).isSome = true ∧
      (s.bay .bay0).run.copy.records = [[2, 0, 1, 0]] ∧ s.bus.state ≠ .failed ∧
      (s.modBus fun u => { u with state := .failed }).bus.state = .failed) := by
  unfold Up; decide +kernel

theorem witness_ValidationDecidesTheRun_refused : parseSteps [] 0 [[9]] = .error (0, .badCode) := by rfl

theorem witness_ValidationDecidesTheRun_valid : ∃ l, parseSteps [] 0 [[2, 0, 1, 0]] = .ok l := ⟨_, rfl⟩

theorem witness_StepsEndOnceWithTheirResult :
    (Up (running [] 0) ∧ NoCheckDue .bay0 (running [] 0) ∧ findInFlight ((running [] 0).bay .bay0).run 0 = none) ∧
    (let e := flight 95 (some 0) (.dwell 0)
    let s := running [e] 96
    Up s ∧ NoCheckDue .bay0 s ∧ findInFlight (s.bay .bay0).run 95 = some e ∧ 95 < (s.bay .bay0).run.next ∧
      e.work = .dwell 0 ∧ e.timeout = some 0 ∧ dueEnd (s.bay .bay0) e = some (.done, .none)) ∧
    (let e := flight 0 (some 1) (.dwell 1)
    let s := running [e] 1
    Up s ∧ NoCheckDue .bay0 s ∧ findInFlight (s.bay .bay0).run 0 = some e ∧ e.work = .dwell (0 + 1) ∧ e.timeout ≠ some 0 ∧
      dueEnd (s.bay .bay0) e ≠ some (.done, .none)) ∧
    (let s := running [flight 0 none .prompt] 1
    Up s ∧ NoCheckDue .bay0 s ∧ findInFlight (s.bay .bay0).run 0 = some (flight 0 none .prompt)) := by
  unfold Up NoCheckDue; decide +kernel

theorem witness_StepsEndOnceWithTheirResult_due :
    (let e := flight 0 none (.drive [1, 3] false)
    let a : Nat → Bool → Action := fun p reached => ⟨0, p, .value, .step, 0, 5, 1, false, reached, []⟩
    let u := { Stimulus.reset with actions := tabSet (tabSet Stimulus.reset.actions 0 (some (a 1 true))) 13 (some (a 3 true)) }
    let w := { Stimulus.reset with actions := tabSet Stimulus.reset.actions 0 (some (a 1 false)) }
    e.work = .drive [1, 3] false ∧ u.actions[(0 : Fin 14)] = some (a 1 true) ∧ u.actions[(13 : Fin 14)] = some (a 3 true) ∧
      ∀ c ∈ indices 14, (w.actions[c]).all fun x => decide (x.step ≠ e.index ∨ x.position ≠ 1 ∨ x.reached = false)) ∧
    (let q : Prompt := ⟨0, .ask, [], 5, some 0, .armed, none⟩
    let y := { BayState.reset with panel := { Panel.reset with prompts := [q, { q with step := 1, state := .waiting }] } }
    y.panel.prompts = q :: [{ q with step := 1, state := .waiting }] ∧ q.state = .armed) ∧
    (({ Supply.reset with settle := some ⟨0, 200⟩ } : Supply).settle = some ⟨0, 200⟩ ∧ Supply.reset.settle = none) ∧
    ((flight 0 none (.join none)).work = .join none ∧ (flight 0 none (.join (some 255))).work = .join (some 255) ∧
      (flight 0 none .power).work = .power ∧ (flight 0 none .frame).work = .frame ∧ (flight 0 none .prompt).work = .prompt ∧
      (flight 0 none (.fixture true [] [])).work = .fixture true [] []) := by
  decide +kernel

/-- Bay 0 RUNNING a run of 3 counted steps, each with STOP_ON_FAIL, the first in flight with a work and the second DWELL. -/
def stopping (timeout : Option Nat) (w : Work) : State :=
  withRun .running fun r => { r with
    next := 2, inFlight := [flight 0 timeout w, flight 1 none (.dwell 5)]
    copy := { r.copy with
      header := some (headerOf 3)
      steps := List.replicate 3 ⟨false, true, false, 0, 0, .dwell 5⟩
      records := List.replicate 3 [2, 0] } }

/-- The run of `stopping` is one that a failing end of its first step stops. -/
theorem stopping_stops (timeout : Option Nat) (w : Work) : StopOnFail ((stopping timeout w).bay .bay0).run 0 (headerOf 3) :=
  ⟨rfl, by decide, by decide, ⟨_, rfl, rfl⟩, ⟨_, rfl, .inl rfl⟩⟩

theorem witness_FailingStepStopsTheRun :
    (StopOnFail ((stopping (some 0) (.dwell 5)).bay .bay0).run 0 (headerOf 3) ∧
      findInFlight ((stopping (some 0) (.dwell 5)).bay .bay0).run 0 = some (flight 0 (some 0) (.dwell 5)) ∧
      FailingOutcome (headerOf 3) .timedOut ∧ FailingOutcome { headerOf 3 with marginalIsFail := true } .marginal ∧
      ¬ FailingOutcome (headerOf 3) .cut ∧ ¬ FailingOutcome { headerOf 3 with marginalIsFail := false } .marginal ∧
      recordNotCounted [2, 4] = true) ∧
    (Up (stopping (some 0) (.dwell 5)) ∧ NoCheckDue .bay0 (stopping (some 0) (.dwell 5)) ∧
      (((stopping (some 0) (.dwell 5)).bay .bay0).run.inFlight.map fun e => e.index).Nodup) ∧
    (let s := (stopping none .power).modSupply .bay0 fun p => { p with on := true, settle := some ⟨0, 200⟩ }
    Up s ∧ NoCheckDue .bay0 s ∧ StopOnFail (s.bay .bay0).run 0 (headerOf 3) ∧ (s.bay .bay0).supply.settle = some ⟨0, 200⟩) ∧
    (let q : Prompt := ⟨0, .ask, [], 5, some 0, .armed, none⟩
    let s := (stopping none .prompt).modPanel .bay0 fun p => { p with prompts := [q] }
    Up s ∧ NoCheckDue .bay0 s ∧ StopOnFail (s.bay .bay0).run 0 (headerOf 3) ∧ (s.bay .bay0).panel.prompts = q :: [] ∧
      q.state = .armed ∧ q.step = 0 ∧ (s.bay .bay0).phase = .running ∧ q.form = .ask ∧ q.remaining = some 0) ∧
    (let c : CheckWork := ⟨10, 10, false, [freshProbe ⟨0, .hold, 0, 100, 10, 1, 1, 0, 0⟩]⟩
    let s := stopping none (.check c)
    Up s ∧ OnlyCheckDue .bay0 0 s ∧ ((s.bay .bay0).run.inFlight.map fun e => e.index).Nodup ∧
      findInFlight (s.bay .bay0).run 0 = some (flight 0 none (.check c)) ∧ c.period ≤ c.k ∧
      StopOnFail (s.bay .bay0).run 0 (headerOf 3) ∧
      FailingOutcome (headerOf 3) (checkOutcome (c.probes.map decideProbe))) := by
  unfold Up NoCheckDue OnlyCheckDue
  exact ⟨⟨stopping_stops _ _, by decide⟩, by decide, ⟨by decide, by decide, stopping_stops none .power, by decide⟩,
    ⟨by decide, by decide, stopping_stops none .prompt, by decide⟩,
    ⟨by decide, by decide, by decide, by decide, by decide, stopping_stops _ _, by decide⟩⟩

theorem witness_CheckStepEnds :
    (Up (running [] 0) ∧ findInFlight ((running [] 0).bay .bay0).run 0 = none) ∧
    (let s := running [flight 0 none (.dwell 1)] 1
    Up s ∧ findInFlight (s.bay .bay0).run 0 = some (flight 0 none (.dwell 1))) ∧
    (let c : CheckWork := ⟨9, 10, false, [freshProbe ⟨0, .hold, 0, 100, 10, 1, 1, 0, 0⟩]⟩
    let s := running [flight 0 none (.check c)] 1
    Up s ∧ findInFlight (s.bay .bay0).run 0 = some (flight 0 none (.check c)) ∧ 0 < (s.bay .bay0).run.next ∧
      (∃ p ∈ c.probes, p.state = .pending) ∧ c.k < c.period) ∧
    (let c : CheckWork := ⟨10, 10, true, [{ freshProbe ⟨0, .hold, 0, 100, 10, 1, 1, 0, 0⟩ with state := .pass }]⟩
    let s := running [flight 0 (some 0) (.check c)] 1
    Up s ∧ findInFlight (s.bay .bay0).run 0 = some (flight 0 (some 0) (.check c)) ∧ 0 < (s.bay .bay0).run.next ∧
      ((s.bay .bay0).run.inFlight.map fun e => e.index).Nodup ∧ (∀ p ∈ c.probes, p.state ≠ .pending) ∧ c.period ≤ c.k ∧
      StepOutcome.pass = checkOutcome (c.probes.map decideProbe) ∧ Detail.restarted = checkDetail c ∧
      StepOutcome.fail ≠ checkOutcome (c.probes.map decideProbe)) ∧
    (let c : CheckWork := ⟨10, 10, false, [freshProbe ⟨0, .hold, 0, 100, 10, 1, 1, 0, 0⟩]⟩
    let x : CheckWork := ⟨3, 10, false, [{ freshProbe ⟨0, .reach, 0, 100, 10, 1, 1, 0, 0⟩ with state := .pass }]⟩
    let s := (stopping none (.check c)).modRun .bay0 fun r =>
      { r with inFlight := [flight 0 none (.check c), flight 1 none (.check x)] }
    Up s ∧ (1 : Nat) < (s.bay .bay0).run.next ∧
      ((s.bay .bay0).run.inFlight.map fun e => e.index).Nodup ∧ (s.bay .bay0).run.copy.header = some (headerOf 3) ∧
      findInFlight (s.bay .bay0).run 0 = some (flight 0 none (.check c)) ∧ c.period ≤ c.k ∧
      findInFlight (s.bay .bay0).run 1 = some (flight 1 none (.check x)) ∧ (∀ p ∈ x.probes, p.state ≠ .pending) ∧
      FailingOutcome (headerOf 3) (checkOutcome (c.probes.map decideProbe)) ∧
      ¬ FailingOutcome (headerOf 3) (checkOutcome (x.probes.map decideProbe)) ∧ StopOnFail (s.bay .bay0).run 0 (headerOf 3)) := by
  unfold Up
  exact ⟨by decide, by decide, by decide, by decide, by decide, by decide, by decide, by decide, by decide, by decide,
    by decide, by decide, by decide, by decide, stopping_stops none (.dwell 0)⟩

/-- A failing CHECK that stops the run, a passing one and a JOIN that waits on the passing one. -/
def joinAtStop : State :=
  (stopping none (.check passedCheck)).modRun .bay0 fun r => { r with
    next := 3
    inFlight := [flight 0 none (.check ⟨10, 10, false, [freshProbe ⟨0, .hold, 0, 100, 10, 1, 1, 0, 0⟩]⟩),
      { flight 1 none (.check passedCheck) with tag := 7 }, flight 2 none (.join (some 7))] }

theorem witness_CheckStepEnds_join :
    Up joinAtStop ∧ (2 : Nat) < (joinAtStop.bay .bay0).run.next ∧ (1 : Nat) < (joinAtStop.bay .bay0).run.next ∧
      findInFlight (joinAtStop.bay .bay0).run 0 =
        some (flight 0 none (.check ⟨10, 10, false, [freshProbe ⟨0, .hold, 0, 100, 10, 1, 1, 0, 0⟩]⟩)) ∧
      passedCheck.period ≤ passedCheck.k ∧ (joinAtStop.bay .bay0).run.copy.header = some (headerOf 3) ∧
      ¬ FailingOutcome (headerOf 3) (checkOutcome (passedCheck.probes.map decideProbe)) ∧
      ((joinAtStop.bay .bay0).run.inFlight.map fun e => e.index).Nodup ∧
      findInFlight (joinAtStop.bay .bay0).run 1 = some { flight 1 none (.check passedCheck) with tag := 7 } ∧
      findInFlight (joinAtStop.bay .bay0).run 2 = some (flight 2 none (.join (some 7))) ∧
      (joinAtStop.bay .bay0).panel.prompts = [] ∧
      ∀ y ∈ (joinAtStop.bay .bay0).run.inFlight, y.index ≠ 1 → y.index ≠ 2 →
        y.tag ≠ 7 ∧ isCheck y.work = true := by
  unfold Up; decide +kernel

/-- A failing CHECK that stops the run is due while a DWELL step at its end alone holds the walker. -/
def dwellAtStop : State :=
  (stopping none (.check passedCheck)).modRun .bay0 fun r => { r with
    inFlight := [flight 0 none (.check ⟨10, 10, false, [freshProbe ⟨0, .hold, 0, 100, 10, 1, 1, 0, 0⟩]⟩),
      { flight 1 none (.dwell 0) with overlap := false }] }

theorem witness_CheckStepEnds_walker :
    Up dwellAtStop ∧ (dwellAtStop.bay .bay0).run.next = 2 ∧ (dwellAtStop.bay .bay0).phase = .running ∧
      (dwellAtStop.bay .bay0).run.inFlight.length ≤ 4 ∧
      (∀ g ∈ (dwellAtStop.bay .bay0).run.inFlight, g.index < 2 ∧ (g.index ≠ 1 → g.overlap = true ∧ isCheck g.work = true)) ∧
      ((dwellAtStop.bay .bay0).run.inFlight.map fun e => e.index).Nodup ∧
      findInFlight (dwellAtStop.bay .bay0).run 1 = some { flight 1 none (.dwell 0) with overlap := false } ∧
      findInFlight (dwellAtStop.bay .bay0).run 0 =
        some (flight 0 none (.check ⟨10, 10, false, [freshProbe ⟨0, .hold, 0, 100, 10, 1, 1, 0, 0⟩]⟩)) ∧
      (∀ e ∈ (dwellAtStop.bay .bay0).run.inFlight, e.index ≠ 0 → checkDue e = false) ∧
      FailingOutcome (headerOf 3) (checkOutcome ([freshProbe ⟨0, .hold, 0, 100, 10, 1, 1, 0, 0⟩].map decideProbe)) ∧
      2 < (headerOf 3).stepCount ∧ (dwellAtStop.bay .bay0).run.copy.steps[2]? ≠ none ∧
      (dwellAtStop.bay .bay0).run.results = [] ∧ StopOnFail (dwellAtStop.bay .bay0).run 0 (headerOf 3) := by
  unfold Up
  exact ⟨by decide, by decide, by decide, by decide, by decide, by decide, by decide, by decide, by decide, by decide,
    by decide, by decide, by decide, stopping_stops none (.dwell 0)⟩

/-- The walker tests its condition after the end of the DWELL step and before the end that stops the run: step 2 is started,
and so CUT and not SKIPPED (R49, R50 part 5, R56). -/
theorem test_walker_before_stop :
    (match execDwellEnd .bay0 1 dwellAtStop with
    | .next t => (t.bay .bay0).run.results.map fun x => (x.index, x.outcome)
    | _ => []) = [(1, .done), (0, .noData), (2, .cut)] := by
  decide +kernel

/-- A FIXTURE step that the walker starts with the bus FAILED ends after the CHECK step whose end was due at that boundary
(R50, R137, R191). -/
theorem test_failed_start_waits :
    let s := (stopping none (.dwell 0)).modRun .bay0 fun r => { r with
      inFlight := [{ flight 0 none (.dwell 0) with overlap := false }, flight 1 none (.check passedCheck)]
      copy := { r.copy with steps := List.replicate 3 ⟨true, true, false, 0, 0, .fixture 1 true 0 [1] [] []⟩ } }
    (match execDwellEnd .bay0 0 { s with bus := { s.bus with state := .failed } } with
    | .next t => (t.bay .bay0).run.results.map fun x => (x.index, x.outcome)
    | _ => []) = [(0, .done), (1, .pass), (2, .error)] := by
  decide +kernel

/-- A bus in recovery with the entry of a FIXTURE step whose failure stops the run, a lamp write and a key read of its bay. -/
def failingBus : State :=
  { (stopping none (.fixture true [] [])).modPanel .bay0 fun p => { p with lampWrite := some 0, keyRead := .outstanding } with
    bus := { State.reset.bus with
      state := .recovering
      queue := [newEntry .bay0 (.step 0) 1 (.write [0]) 0, lampWrite]
      held := [newEntry .bay0 .key 1 (.read 1) 0x50] } }

/-- At an entry to FAILED the later entries of a bay end BUS_FAILED too when the first one's end has stopped its run (R56,
R177, R200, R201). -/
theorem test_failed_bus_ends_all :
    let t := after .recoverySclTimeout failingBus
    (t.bus.state, t.bus.queue, t.bus.held) = (.failed, [], []) ∧ (t.bay .bay0).run.verdict = some .fail ∧
      (t.bay .bay0).status.lampFailed = true ∧ (t.bay .bay0).panel.keyRead = .waitBoundary ∧
      (t.bay .bay0).run.slot = none := by
  decide +kernel

/-- The JOIN tests its condition after the passing end and before the one that stops the run (R34, R50 part 5). -/
theorem test_join_before_stop :
    (match execPeriodEnd .bay0 0 joinAtStop with
    | .next t => ((t.bay .bay0).run.results.map fun x => (x.index, x.outcome)).take 3
    | _ => []) = [(1, .pass), (2, .done), (0, .noData)] := by
  decide +kernel

/-- A slot write error with a CHECK end due that ends the run: the lost run goes to HALTED (R22, R23). -/
theorem test_lost_run_halts :
    (match execWriteError (.slot .bay0 true)
        { (running [flight 0 none (.check passedCheck)] 1).modRun .bay0 fun r =>
            { r with slot := some .a, copy := { r.copy with header := some (headerOf 1) } } with
          bus := { State.reset.bus with state := .failed } } with
    | .next t => ((t.bay .bay0).phase, (t.bay .bay0).status.runLost, (t.bay .bay0).run.verdict)
    | _ => (.offline, false, none)) = (.halted, true, some .pass) := by
  decide +kernel

theorem witness_ProbesDecidedAtPeriodEnd :
    ({ freshProbe ⟨0, .reach, 0, 100, 10, 1, 1, 0, 0⟩ with state := .pass }.state ≠ .pending) ∧
    (let p := { freshProbe ⟨0, .hold, 0, 100, 10, 4, 1, 0, 0⟩ with history := [1, 2, 3, 4] }
    p.state = .pending ∧ [2, 3, 4, 391] = (p.history ++ [391]).drop (p.history.length + 1 - p.setup.filter) ∧
      100 = roundDiv [2, 3, 4, 391].sum 4 ∧ false = decide ((100 : Int) < p.setup.low ∨ p.setup.high < 100) ∧
      true = (!false && decide ((100 : Int) < p.setup.low + p.setup.guard ∨ p.setup.high - p.setup.guard < 100))) ∧
    (let p := freshProbe ⟨0, .hold, 0, 100, 10, 1, 1, 0, 0⟩
    true = decide ((101 : Int) < p.setup.low ∨ p.setup.high < 101)) ∧
    ((freshProbe ⟨0, .hold, 0, 100, 10, 1, 1, 0, 0⟩).state = .pending ∧ (freshProbe ⟨0, .hold, 0, 100, 10, 1, 1, 0, 0⟩).fresh = 0) ∧
    (let p := { freshProbe ⟨0, .hold, 0, 100, 10, 1, 1, 0, 0⟩ with fresh := 1, filtered := some 100 }
    p.state = .pending ∧ p.fresh ≠ 0 ∧ p.lastStale = false ∧ p.setup.mode = .hold ∧ p.filtered = some 100) ∧
    (let p := { freshProbe ⟨0, .reach, 0, 100, 10, 1, 1, 0, 0⟩ with fresh := 1, filtered := some 100 }
    p.state = .pending ∧ p.fresh ≠ 0 ∧ p.lastStale = false ∧ p.setup.mode = .reach ∧ p.filtered = some 100) ∧
    (let p := { freshProbe ⟨0, .final, 0, 100, 10, 1, 1, 0, 0⟩ with fresh := 1, filtered := some 100 }
    p.state = .pending ∧ p.fresh ≠ 0 ∧ p.lastStale = false ∧ p.setup.mode = .final ∧ p.filtered = some 100) ∧
    (let p := { freshProbe ⟨0, .count, 0, 100, 10, 1, 1, 0, 0⟩ with fresh := 1, filtered := some 100 }
    p.state = .pending ∧ p.fresh ≠ 0 ∧ p.lastStale = false ∧ p.setup.mode = .count ∧ p.filtered = some 100) ∧
    (let ps := List.replicate 3 (freshProbe ⟨0, .hold, 0, 100, 10, 1, 1, 0, 0⟩)
    ps.length ≤ 4 ∧ ps[2]? = some (freshProbe ⟨0, .hold, 0, 100, 10, 1, 1, 0, 0⟩) ∧ ps.length ≤ 3 ∧ 3 < 4) := by
  decide +kernel

theorem witness_ActionReachesItsTarget :
    (Up State.reset ∧ (State.reset.bay .bay0).stim.actions[(13 : Fin 14)] = none) ∧
    (let a : Action := ⟨0, 0, .value, .step, 0, 5, 1, false, true, []⟩
    let e := flight 0 none (.drive [0, 3] false)
    let s := (running [e] 1).modStim .bay0 fun u => { u with actions := tabSet u.actions 13 (some a) }
    Up s ∧ (s.bay .bay0).stim.actions[(13 : Fin 14)] = some a ∧ a.reached = true ∧ findInFlight (s.bay .bay0).run a.step = some e ∧
      a.step < (s.bay .bay0).run.next ∧ NoCheckDue .bay0 s) ∧
    (let a : Action := ⟨0, 0, .value, .step, 0, 5, 1, false, true, []⟩
    let e := flight 0 none (.drive [0] false)
    let s := (running [e] 1).modStim .bay0 fun u => { u with actions := tabSet u.actions 13 (some a) }
    Up s ∧ (s.bay .bay0).stim.actions[(13 : Fin 14)] = some a ∧ a.reached = true ∧ findInFlight (s.bay .bay0).run a.step = some e ∧
      a.step < (s.bay .bay0).run.next ∧ NoCheckDue .bay0 s) := by
  unfold Up NoCheckDue; decide +kernel

theorem witness_DriveActionClaimsItsChannel :
    (let a : DriveAction := ⟨3, 13, .value, .rate 2000000000, 1000001⟩
    let old : Action := ⟨0, 0, .value, .step, 0, 5, 0, false, false, []⟩
    let e := flight 0 none (.drive [0, 1] false)
    let s := (running [e, flight 1 none (.drive [3] false)] 2).modStim .bay0 fun u => { u with actions := tabSet u.actions 13 (some old) }
    (0 : Int) = (s.bay .bay0).stim.values[a.channel] ∧
      1000000 = clampTo (s.bay .bay0).stim.setup.ranges[a.channel].min (s.bay .bay0).stim.setup.ranges[a.channel].max a.target ∧
      Machine.Shape.rate 1000000000 = .rate (max 1 (min 1000000000 2000000000)) ∧
      true = (decide (a.kind = .value) && (decide ((1000000 : Int) ≠ a.target) || decide (Machine.Shape.rate 1000000000 ≠ a.shape))) ∧
      (1000000 : Int) ≠ 0 ∧ (s.bay .bay0).stim.actions[a.channel] = some old ∧ old.step ≠ 1 ∧ old.reached = false ∧
      [⟨0, 0, false, 5⟩] = (⟨old.step, e.start, e.early, (nextValue old 0).1⟩ : Handed) :: old.older ∧
      findInFlight (s.bay .bay0).run old.step = some e ∧ e.work = .drive [0, 1] false ∧
      findInFlight (s.bay .bay0).run 1 = some (flight 1 none (.drive [3] false))) ∧
    (let a : DriveAction := ⟨0, 6, .value, .timed 0, 0⟩
    let s := running [flight 1 none (.drive [0, 1] false)] 2
    a.kind = .value ∧ a.shape ≠ .step ∧
      clampTo (s.bay .bay0).stim.setup.ranges[a.channel].min (s.bay .bay0).stim.setup.ranges[a.channel].max a.target =
        (s.bay .bay0).stim.values[a.channel] ∧
      (s.bay .bay0).run.claims[a.channel] = none ∧ (s.bay .bay0).stim.actions[a.channel] = none ∧
      findInFlight (s.bay .bay0).run 1 = some (flight 1 none (.drive [0, 1] false))) ∧
    (let a : DriveAction := ⟨0, 5, .shorted, .step, 0⟩
    a.kind ≠ .value ∧ (3 : Fin 4).1 + 2 = a.channel.1 ∧ (2 : Fin 4).1 + 2 ≠ a.channel.1) := by
  decide +kernel

theorem witness_StepsStartInTheirBlocks :
    (let x : Step := ⟨true, false, true, 0, 5, .dwell 0⟩
    let s := withRun .running fun r => { r with next := 95, copy := { r.copy with steps := List.replicate 96 x } }
    (s.bay .bay0).run.copy.steps[(s.bay .bay0).run.next]? = some x ∧ x.body = .dwell 0) ∧
    ((⟨true, false, true, 0, 5, .check 0 []⟩ : Step).body = .check 0 []) ∧
    (let f := flight 3 none .frame
    let s := (running [f] 4).modNet .bay0 fun n => { n with
      state := .live
      setup := { n.setup with entries := tabSet n.setup.entries 15 { EntrySetup.reset with enabled := true } } }
    findInFlight (s.bay .bay0).run 3 = some f ∧ f.work = .frame ∧
      (s.bay .bay0).net.setup.entries[(15 : Fin 16)].enabled = true ∧ (s.bay .bay0).net.setup.entries[(0 : Fin 16)].enabled = false ∧
      (s.bay .bay0).net.work[(15 : Fin 16)].on = false ∧ (s.bay .bay0).net.state ≠ .stopped) ∧
    (let s := (inPhase .running).modNet .bay0 fun n => { n with
      setup := { n.setup with entries := tabSet n.setup.entries 15 { EntrySetup.reset with enabled := true } }
      work := tabSet n.work 15 { EntryWork.reset with on := true } }
    (s.bay .bay0).net.setup.entries[(15 : Fin 16)].enabled = true ∧ (s.bay .bay0).net.work[(15 : Fin 16)].on = true ∧
      (s.bay .bay0).net.work[(0 : Fin 16)].on = false ∧ (s.bay .bay0).net.state = .stopped) ∧
    (let f := flight 3 none (.join (some 0))
    let s := running [flight 2 none (.dwell 5), f] 4
    findInFlight (s.bay .bay0).run 3 = some f ∧ f.work = .join (some 0) ∧ flight 2 none (.dwell 5) ∈ (s.bay .bay0).run.inFlight ∧
      (flight 2 none (.dwell 5)).index ≠ 3 ∧ (flight 2 none (.dwell 5)).tag = 0 ∧ (flight 2 none (.dwell 5)).tag ≠ 1 ∧
      (flight 2 none (.dwell 5)).work = .dwell 5 ∧ ((s.bay .bay0).run.inFlight.map fun e => e.index).Nodup) ∧
    (let f := flight 3 none .power
    let s := running [f] 4
    let t := s.modSupply .bay0 fun p => { p with on := true }
    findInFlight (s.bay .bay0).run 3 = some f ∧ f.work = .power ∧ (s.bay .bay0).stim.safe = true ∧
      (s.bay .bay0).supply.on = false ∧ (t.bay .bay0).supply.on = true ∧
      (t.modStim .bay0 fun u => { u with safe := false }).bays.bay0.stim.safe = false) := by
  decide +kernel

theorem witness_StepsStartInTheirBlocks_drive :
    ((0x8001#16 &&& 0x4002#16 = 0) ∧
      findInFlight (((forAll [] (startAction .bay0 3) (running [flight 3 none (.drive [] true)] 4)).bay .bay0).run) 3 =
        some (flight 3 none (.drive [] true))) ∧
    (let a : DriveAction := ⟨0, 0, .value, .step, 0⟩
    let s := (running [flight 3 none (.drive [0] false)] 4).modStim .bay0 fun u => { u with safe := false }
    findInFlight ((forAll [a] (startAction .bay0 3) s).bay .bay0).run 3 = some (flight 3 none (.drive [0] false)) ∧
      (s.bay .bay0).stim.safe = false) := by
  decide +kernel

theorem witness_StepsStartInTheirBlocks_bus :
    (let s := running [flight 3 none .prompt] 4
    let t := { s with bus := { s.bus with state := .failed } }
    (s.bay .bay0).panel.display = none ∧ (s.bay .bay0).panel.waitingText = none ∧ (s.bay .bay0).panel.prompts = [] ∧
      (s.bay .bay0).phase = .running ∧ s.bus.state ≠ .failed ∧ t.bus.state = .failed ∧ 3 < (t.bay .bay0).run.next ∧
      findInFlight (t.bay .bay0).run 3 = some (flight 3 none .prompt) ∧ (t.bay .bay0).panel.display = none ∧
      (t.bay .bay0).panel.waitingText = none ∧ (t.bay .bay0).panel.prompts = [] ∧ (t.bay .bay0).phase = .running) ∧
    (let s := (running [] 4).modPanel .bay0 fun p => { p with display := some (.fixed .clear) }
    (s.bay .bay0).panel.display ≠ none) ∧
    (let q : Prompt := ⟨2, .ask, [], 3600000, some 5, .armed, none⟩
    let s := (running [] 4).modPanel .bay0 fun p => { p with prompts := [q] }
    (s.bay .bay0).panel.waitingText = none ∧ q ∈ (s.bay .bay0).panel.prompts ∧ q.state ≠ .waiting) ∧
    (let f := flight 3 none (.fixture false [1] [255])
    let s := running [f] 4
    let t := { s with bus := { s.bus with state := .failed } }
    s.bus.state ≠ .failed ∧ t.bus.state = .failed ∧ findInFlight (t.bay .bay0).run 3 = some f ∧
      f.work = .fixture false [1] [255] ∧ 3 < (t.bay .bay0).run.next ∧ ∀ e ∈ (t.bay .bay0).run.inFlight, checkDue e = false) := by
  decide +kernel

theorem witness_StepsStartInTheirBlocks_waits :
    ∀ w ∈ [Work.prompt, .fixture false [1] [255]],
      let s := (stopping none w).modRun .bay0 fun r => { r with
        inFlight := [flight 0 none w, flight 1 none (.check passedCheck)] }
      let t := { s with bus := { s.bus with state := .failed } }
      t.bus.state = .failed ∧ (t.bay .bay0).panel.display = none ∧ (t.bay .bay0).panel.waitingText = none ∧
        (t.bay .bay0).panel.prompts = [] ∧ (t.bay .bay0).phase = .running ∧
        findInFlight (t.bay .bay0).run 0 = some (flight 0 none w) ∧ 0 < (t.bay .bay0).run.next ∧
        (∃ e ∈ (t.bay .bay0).run.inFlight, checkDue e = true) ∧ StopOnFail (t.bay .bay0).run 0 (headerOf 3) := by
  intro w hw
  simp only [List.mem_cons, List.not_mem_nil, or_false] at hw
  rcases hw with rfl | rfl
  · exact ⟨by decide, by decide, by decide, by decide, by decide, by decide, by decide, by decide,
      stopping_stops none .prompt⟩
  · exact ⟨by decide, by decide, by decide, by decide, by decide, by decide, by decide, by decide,
      stopping_stops none .prompt⟩

/-- A FIXTURE step's start asks for its transaction (R191, R162). -/
theorem test_fixture_start :
    (startBody .bay0 3 (.fixture 15 false 0xFF [0, 0] [] []) State.reset).bus.queue =
      [⟨.bay0, .step 3, 15, .read 2, 0xFF, 0, false⟩] := by decide +kernel

theorem witness_PulsePeriodFollowsFrequency :
    (Up State.reset ∧ (State.reset.bay .bay0).stim.generators[(0 : Fin 2)] = .stopped) ∧
    (let s := (inPhase .running).modStim .bay0 fun u => { u with generators := tabSet u.generators 1 (.running 2500 1250), frequency := tabSet u.frequency 1 none }
    Up s ∧ (s.bay .bay0).stim.generators[(1 : Fin 2)] = .running 2500 1250 ∧ (s.bay .bay0).stim.frequency[(1 : Fin 2)] = none) ∧
    (let s := (inPhase .running).modStim .bay0 fun u => { u with generators := tabSet u.generators 1 (.running 2500 1250), frequency := tabSet u.frequency 1 (some 20000000) }
    Up s ∧ (s.bay .bay0).stim.generators[(1 : Fin 2)] = .running 2500 1250 ∧ (s.bay .bay0).stim.frequency[(1 : Fin 2)] = some 20000000) ∧
    (let s := (inPhase .running).modStim .bay0 fun u => { u with generators := tabSet u.generators 1 (.running 2500 1250), frequency := tabSet u.frequency 1 (some 100) }
    Up s ∧ (s.bay .bay0).stim.generators[(1 : Fin 2)] = .running 2500 1250 ∧ (s.bay .bay0).stim.frequency[(1 : Fin 2)] = (some 100)) := by
  unfold Up; decide +kernel

theorem witness_PulsePeriodFollowsFrequency_start :
    (let s := (inPhase .running).modStim .bay0 fun u => { u with safe := false, values := tabSet u.values 1 20000001, actions := tabSet u.actions 1 (some ⟨0, 0, .value, .step, 0, 5, 1, false, false, []⟩) }
    ((convertAll .bay0 s).bay .bay0).stim.frequency[(1 : Fin 2)] = some 20000000 ∧
      (s.bay .bay0).stim.generators[(1 : Fin 2)] = .stopped ∧ (s.bay .bay0).stim.safe = false ∧
      (s.bay .bay0).stim.actions[pulseChannel 1] = some ⟨0, 0, .value, .step, 0, 5, 1, false, false, []⟩) ∧
    (let s := (inPhase .running).modStim .bay0 fun u => { u with safe := false, values := tabSet u.values 1 99 }
    ((convertAll .bay0 s).bay .bay0).stim.frequency[(1 : Fin 2)] = none ∧
      (s.bay .bay0).stim.generators[(1 : Fin 2)] = .stopped) := by
  decide +kernel

theorem witness_LevelOutputsFollowTheirForms :
    (let s := (inPhase .running).modStim .bay0 fun u => { u with safe := false, values := tabSet u.values 5 4001, actions := tabSet u.actions 5 (some ⟨0, 0, .value, .step, 0, 5, 1, false, false, []⟩) }
    (s.bay .bay0).stim.safe = false ∧ (s.bay .bay0).stim.forms[(3 : Fin 4)] = .converted ∧
      4001 = (s.bay .bay0).stim.values[levelChannel 3] ∧ (s.bay .bay0).stim.setup.level[(3 : Fin 4)] = .direct ∧
      (s.bay .bay0).stim.actions[levelChannel 3] = some ⟨0, 0, .value, .step, 0, 5, 1, false, false, []⟩) ∧
    (let l : List (Int × Int) := [(0, 100), (1000, 200)]
    l[0]? = some (0, 100) ∧ l[0 + 1]? = some (1000, 200) ∧ l[1 + 1]? = none ∧ (0 : Int) < 1000 ∧
      l[l.length - 1]? = some (1000, 200)) ∧
    (let l : List (Int × Int) := [(100, 200), (500, 300)]
    (0 : Int) ≤ 10 ∧ l[0]? = some (100, 200) ∧ l[0 + 1]? = some (500, 300) ∧ l[1 + 1]? = none ∧ (100 : Int) < 500) ∧
    (((inPhase .running).modStim .bay0 fun u => { u with safe := false, forms := tabSet u.forms 3 .shorted }).bays.bay0.stim.forms[(3 : Fin 4)]
      = .shorted) ∧
    (Stimulus.reset.safe = true) := by
  decide +kernel

theorem witness_ReleaseOffersAFrame :
    (Up State.reset ∧ (State.reset.bay .bay0).net.work[(15 : Fin 16)].due = false) ∧
    (let s := (inPhase .running).modNet .bay0 fun n => { n with
      state := .live, queue := []
      setup := { n.setup with entries := tabSet n.setup.entries 15 { EntrySetup.reset with enabled := true, id := 5, length := 8, counter := some ⟨0, .wholeByte, 256, 0⟩ } }
      work := tabSet n.work 15 { EntryWork.reset with due := true } }
    Up s ∧ (s.bay .bay0).net.work[(15 : Fin 16)].due = true ∧ (s.bay .bay0).net.state = .live ∧ (s.bay .bay0).net.work[(15 : Fin 16)].on = false) ∧
    (let s := (inPhase .running).modNet .bay0 fun n => { n with
      state := .noPartner, queue := []
      setup := { n.setup with entries := tabSet n.setup.entries 15 { EntrySetup.reset with enabled := true, id := 5, length := 8, counter := some ⟨0, .wholeByte, 256, 0⟩ } }
      work := tabSet n.work 15 { EntryWork.reset with on := true, due := true } }
    Up s ∧ (s.bay .bay0).net.work[(15 : Fin 16)].due = true ∧ (s.bay .bay0).net.state = .noPartner ∧ (s.bay .bay0).net.work[(15 : Fin 16)].mode ≠ .silent ∧
      (s.bay .bay0).net.work[(15 : Fin 16)].on = true ∧ (s.bay .bay0).net.setup.entries[(15 : Fin 16)].enabled = true) ∧
    (let s := (inPhase .running).modNet .bay0 fun n => { n with
      state := .live, queue := (List.replicate 7 ⟨0, 1, [], false, false⟩)
      setup := { n.setup with entries := tabSet n.setup.entries 15 { EntrySetup.reset with enabled := true, id := 5, length := 8, counter := some ⟨0, .wholeByte, 256, 0⟩ } }
      work := tabSet n.work 15 { EntryWork.reset with on := true, due := true } }
    Up s ∧ (s.bay .bay0).net.work[(15 : Fin 16)].due = true ∧ (s.bay .bay0).net.state = .live ∧ (s.bay .bay0).net.work[(15 : Fin 16)].mode ≠ .silent ∧
      (s.bay .bay0).net.work[(15 : Fin 16)].on = true ∧ (s.bay .bay0).net.setup.entries[(15 : Fin 16)].enabled = true ∧
      (∀ q ∈ (s.bay .bay0).net.queue, q.entry ≠ (15 : Fin 16)) ∧ (s.bay .bay0).net.queue.length < 8 ∧
      (s.bay .bay0).net.setup.entries[(15 : Fin 16)].counter = some ⟨0, .wholeByte, 256, 0⟩) ∧
    (let s := (inPhase .running).modNet .bay0 fun n => { n with
      state := .live, queue := (List.replicate 8 ⟨0, 1, [], false, false⟩)
      setup := { n.setup with entries := tabSet n.setup.entries 15 { EntrySetup.reset with enabled := true, id := 5, length := 8, counter := some ⟨0, .wholeByte, 256, 0⟩ } }
      work := tabSet n.work 15 { EntryWork.reset with on := true, due := true } }
    Up s ∧ (s.bay .bay0).net.work[(15 : Fin 16)].due = true ∧ (s.bay .bay0).net.state = .live ∧ (s.bay .bay0).net.work[(15 : Fin 16)].mode ≠ .silent ∧
      (s.bay .bay0).net.work[(15 : Fin 16)].on = true ∧ (s.bay .bay0).net.setup.entries[(15 : Fin 16)].enabled = true ∧
      (∀ q ∈ (s.bay .bay0).net.queue, q.entry ≠ (15 : Fin 16)) ∧ 8 ≤ (s.bay .bay0).net.queue.length) ∧
    (let s := (inPhase .running).modNet .bay0 fun n => { n with
      state := .live, queue := [⟨15, 5, [], false, false⟩]
      setup := { n.setup with entries := tabSet n.setup.entries 15 { EntrySetup.reset with enabled := true, id := 5, length := 8, counter := some ⟨0, .wholeByte, 256, 0⟩ } }
      work := tabSet n.work 15 { EntryWork.reset with on := true, due := true } }
    Up s ∧ (s.bay .bay0).net.work[(15 : Fin 16)].due = true ∧ (s.bay .bay0).net.state = .live ∧ (s.bay .bay0).net.work[(15 : Fin 16)].mode ≠ .silent ∧
      (s.bay .bay0).net.work[(15 : Fin 16)].on = true ∧ (s.bay .bay0).net.setup.entries[(15 : Fin 16)].enabled = true ∧
      ∃ q ∈ (s.bay .bay0).net.queue, q.entry = (15 : Fin 16)) := by
  unfold Up; decide +kernel

theorem witness_ChecksumAddsTo255 :
    (let x : EntrySetup := { EntrySetup.reset with length := 8, checksum := some 7 }
    x.checksum = some 7 ∧ 7 < x.length ∧ EntryWork.reset.mode ≠ .badChecksum) := by
  decide +kernel

theorem witness_AttemptsSendAndCount :
    (let s := (inPhase .running).modNet .bay0 fun n => { n with
      state := .live, attempt := none, failures := 0, queue := [⟨15, 5, [1], false, false⟩], work := tabSet n.work 15 { EntryWork.reset with on := true } }
    Up s ∧ (s.bay .bay0).net.attempt = none ∧ (s.bay .bay0).net.state = .live ∧ (s.bay .bay0).net.state ≠ .stopped ∧ (s.bay .bay0).net.queue ≠ []) ∧
    (Up State.reset ∧ (State.reset.bay .bay0).net.queue = [] ∧ (State.reset.bay .bay0).net.attempt = none) ∧
    (let s := (inPhase .running).modNet .bay0 fun n => { n with
      state := .live, attempt := some ⟨15, 5, [1]⟩, failures := 0, queue := [⟨15, 5, [1], false, false⟩], work := tabSet n.work 15 { EntryWork.reset with mode := .silent } }
    Up s ∧ (s.bay .bay0).net.attempt = some ⟨15, 5, [1]⟩ ∧ (s.bay .bay0).net.state = .live ∧
      (s.bay .bay0).net.queue.find? (fun q => q.entry = (15 : Fin 16)) = some ⟨15, 5, [1], false, false⟩ ∧
      (s.bay .bay0).net.work[(15 : Fin 16)].on = false) ∧
    (let s := (inPhase .running).modNet .bay0 fun n => { n with
      state := .live, attempt := some ⟨15, 5, [1]⟩, failures := 0, queue := [⟨15, 5, [1], false, true⟩], work := tabSet n.work 15 { EntryWork.reset with on := true } }
    Up s ∧ (s.bay .bay0).net.attempt = some ⟨15, 5, [1]⟩ ∧ (s.bay .bay0).net.state = .live ∧
      (s.bay .bay0).net.queue.find? (fun q => q.entry = (15 : Fin 16)) = some ⟨15, 5, [1], false, true⟩ ∧
      (s.bay .bay0).net.work[(15 : Fin 16)].on = true ∧ (s.bay .bay0).net.work[(15 : Fin 16)].mode ≠ .silent) ∧
    (let s := (inPhase .running).modNet .bay0 fun n => { n with
      state := .noPartner, attempt := some ⟨15, 5, [1]⟩, failures := 32, queue := [⟨15, 5, [1], true, false⟩], work := tabSet n.work 15 { EntryWork.reset with on := true } }
    Up s ∧ (s.bay .bay0).net.attempt = some ⟨15, 5, [1]⟩ ∧ (s.bay .bay0).net.state = .noPartner ∧
      (s.bay .bay0).net.queue.find? (fun q => q.entry = (15 : Fin 16)) = some ⟨15, 5, [1], true, false⟩ ∧
      (s.bay .bay0).net.work[(15 : Fin 16)].on = true ∧ (s.bay .bay0).net.work[(15 : Fin 16)].mode ≠ .silent) ∧
    (let s := (inPhase .running).modNet .bay0 fun n => { n with
      state := .live, attempt := some ⟨15, 5, [1]⟩, failures := 30, queue := [⟨15, 5, [1], false, false⟩], work := tabSet n.work 15 { EntryWork.reset with on := true } }
    Up s ∧ (s.bay .bay0).net.attempt = some ⟨15, 5, [1]⟩ ∧ (s.bay .bay0).net.state = .live ∧
      (s.bay .bay0).net.queue.find? (fun q => q.entry = (15 : Fin 16)) = some ⟨15, 5, [1], false, false⟩ ∧
      (s.bay .bay0).net.work[(15 : Fin 16)].on = true ∧ (s.bay .bay0).net.work[(15 : Fin 16)].mode ≠ .silent ∧
      (s.bay .bay0).net.failures < 31) ∧
    (let s := (inPhase .running).modNet .bay0 fun n => { n with
      state := .live, attempt := some ⟨15, 5, [1]⟩, failures := 31, queue := [⟨15, 5, [1], false, false⟩], work := tabSet n.work 15 { EntryWork.reset with on := true } }
    Up s ∧ (s.bay .bay0).net.attempt = some ⟨15, 5, [1]⟩ ∧ (s.bay .bay0).net.state = .live ∧
      (s.bay .bay0).net.queue.find? (fun q => q.entry = (15 : Fin 16)) = some ⟨15, 5, [1], false, false⟩ ∧
      (s.bay .bay0).net.work[(15 : Fin 16)].on = true ∧ (s.bay .bay0).net.work[(15 : Fin 16)].mode ≠ .silent ∧
      (s.bay .bay0).net.failures = 31) := by
  unfold Up; decide +kernel

theorem witness_ProbesReceiptsAndTaps :
    (Up State.reset ∧ (State.reset.bay .bay0).net.state ≠ .noPartner ∧ (State.reset.bay .bay0).net.state = .stopped) ∧
    (let s := { (inPhase .running).modNet .bay0 fun n => { n with
      state := .noPartner, queue := [], probeTimer := some 4294967292
      setup := { n.setup with entries := tabSet n.setup.entries 15 { EntrySetup.reset with enabled := true, id := 5, length := 8, counter := some ⟨0, .wholeByte, 256, 0⟩ } }
      work := tabSet n.work 15 { EntryWork.reset with on := true, due := true } } with rackTime := 496 }
    Up s ∧ (s.bay .bay0).net.probeTimer = some 4294967292 ∧ 500 ≤ (s.rackTime - 4294967292).toNat ∧
      (s.rackTime - 4294967293).toNat < 500 ∧ (s.bay .bay0).net.state = .noPartner ∧ (s.bay .bay0).net.queue = [] ∧
      ∃ e ∈ indices 16, (s.bay .bay0).net.setup.entries[e].enabled = true ∧ (s.bay .bay0).net.work[e].on = true ∧
        (s.bay .bay0).net.work[e].mode ≠ .silent) ∧
    (∀ e ∈ indices 16, (State.reset.bay .bay0).net.setup.entries[e].enabled = false) ∧
    (let s := { (inPhase .running).modNet .bay0 fun n => { n with state := .live, taps := tabSet n.taps 7 ⟨⟨true, 2047, ⟨0, 16, .lowFirst, false⟩, 1, 1, 0, 10⟩, 5, true, 0⟩ } with rackTime := 0 }
    Up s ∧ (s.bay .bay0).net.taps[(7 : Fin 8)].fresh = true ∧ (s.bay .bay0).net.state ≠ .stopped ∧
      (s.bay .bay0).net.taps[(7 : Fin 8)].setup.inUse = true ∧ (s.bay .bay0).net.taps[(7 : Fin 8)].setup.id = 2047 ∧
      withinFrame (fieldPositions (s.bay .bay0).net.taps[(7 : Fin 8)].setup.field) 2 = true ∧
      withinFrame (fieldPositions (s.bay .bay0).net.taps[(7 : Fin 8)].setup.field) 1 = false) ∧
    (let s := { (inPhase .running).modNet .bay0 fun n => { n with state := .live, taps := tabSet n.taps 7 ⟨⟨true, 2047, ⟨0, 16, .lowFirst, false⟩, 1, 1, 0, 10⟩, 5, true, 0⟩ } with rackTime := 9 }
    Up s ∧ (s.bay .bay0).net.taps[(7 : Fin 8)].fresh = true ∧
      (s.bay .bay0).net.taps[(7 : Fin 8)].setup.timeout ≤ (s.rackTime + 1 - (s.bay .bay0).net.taps[(7 : Fin 8)].receipt).toNat) ∧
    (let s := { (inPhase .running).modNet .bay0 fun n => { n with state := .live, taps := tabSet n.taps 7 ⟨⟨true, 2047, ⟨0, 16, .lowFirst, false⟩, 1, 1, 0, 10⟩, 5, true, 0⟩ } with rackTime := 8 }
    Up s ∧ (s.bay .bay0).net.taps[(7 : Fin 8)].fresh = true ∧
      (s.rackTime + 1 - (s.bay .bay0).net.taps[(7 : Fin 8)].receipt).toNat < (s.bay .bay0).net.taps[(7 : Fin 8)].setup.timeout) := by
  unfold Up; decide +kernel

theorem witness_FrequencyInputsMeasureIntervals :
    (Up State.reset ∧ (State.reset.bay .bay0).fi[(1 : Fin 2)].lastEdge = none) ∧
    (let s := { withBay (fun y => { y with fi := tabSet y.fi 1 ⟨some 100, 5⟩ }) with tick := 0 }
    Up s ∧ (s.bay .bay0).fi[(1 : Fin 2)].lastEdge = some 100 ∧ 50 ≤ 150 - 100 ∧ 149 - 100 < 50) ∧
    (let s := { withBay (fun y => { y with fi := tabSet y.fi 1 ⟨some 100, 5⟩ }) with tick := 99950100 }
    Up s ∧ (s.bay .bay0).fi[(1 : Fin 2)].lastEdge = some 100 ∧ 100000000 ≤ s.tick + 50000 - 100) ∧
    (let s := { withBay (fun y => { y with fi := tabSet y.fi 1 ⟨some 100, 5⟩ }) with tick := 99950099 }
    Up s ∧ (s.bay .bay0).fi[(1 : Fin 2)].lastEdge = some 100 ∧ s.tick + 50000 - 100 < 100000000) := by
  unfold Up; decide +kernel

theorem witness_SupplyFaultsByMode :
    (let e := flight 0 none .power
    let s := (running [e] 1).modSupply .bay0 fun p => { p with on := true, settle := some ⟨0, 199⟩ }
    Up s ∧ NoCheckDue .bay0 s ∧ (s.bay .bay0).supply.settle = some ⟨0, 199⟩ ∧ 199 < 200) ∧
    (let e := flight 0 none .power
    let s := (running [e] 1).modSupply .bay0 fun p => { p with on := true, settle := some ⟨0, 200⟩ }
    Up s ∧ NoCheckDue .bay0 s ∧ (s.bay .bay0).supply.settle = some ⟨0, 200⟩ ∧ 200 ≤ 200 ∧
      findInFlight (s.bay .bay0).run 0 = some e ∧ 0 < (s.bay .bay0).run.next) ∧
    (Up State.reset ∧ (condGet (State.reset.bay .bay0).supply.watches .lidOpen).pending = false) := by
  unfold Up NoCheckDue; decide +kernel

theorem witness_SupplyFaultsByMode_running :
    (let s := (running [flight 0 none (.dwell 5)] 1).modSupply .bay0 fun p => { p with
      on := true, setup := { p.setup with modes := condSet p.setup.modes .overcurrent .latch }
      watches := condSet p.watches .overcurrent ⟨10, true, true⟩ }
    Up s ∧ NoCheckDue .bay0 s ∧ (condGet (s.bay .bay0).supply.watches .overcurrent).pending = true ∧ (s.bay .bay0).phase = .running ∧
      (s.bay .bay0).run.load = none ∧ condGet (s.bay .bay0).supply.setup.modes .overcurrent = .latch) ∧
    (let s := (running [flight 0 none (.dwell 5)] 1).modSupply .bay0 fun p => { p with
      on := true, setup := { p.setup with modes := condSet p.setup.modes .lidOpen .retry }
      watches := condSet p.watches .lidOpen ⟨10, true, true⟩ }
    Up s ∧ NoCheckDue .bay0 s ∧ (condGet (s.bay .bay0).supply.watches .lidOpen).pending = true ∧ (s.bay .bay0).phase = .running ∧
      (s.bay .bay0).run.load = none ∧ condGet (s.bay .bay0).supply.setup.modes .lidOpen = .retry) ∧
    (let s := (running [flight 0 none (.dwell 5)] 1).modSupply .bay0 fun p => { p with
      on := true, setup := { p.setup with modes := condSet p.setup.modes .overvoltage .retry }, retryCount := 3
      watches := condSet p.watches .overvoltage ⟨10, true, true⟩ }
    Up s ∧ NoCheckDue .bay0 s ∧ (condGet (s.bay .bay0).supply.watches .overvoltage).pending = true ∧ (s.bay .bay0).phase = .running ∧
      (s.bay .bay0).run.load = none ∧ condGet (s.bay .bay0).supply.setup.modes .overvoltage = .retry ∧
      (s.bay .bay0).supply.setup.retryMax ≤ (s.bay .bay0).supply.retryCount) ∧
    (let s := (running [flight 0 none (.dwell 5)] 1).modSupply .bay0 fun p => { p with
      on := true, setup := { p.setup with modes := condSet p.setup.modes .overcurrent .retry }, retryCount := 2
      watches := condSet p.watches .overcurrent ⟨10, true, true⟩ }
    Up s ∧ NoCheckDue .bay0 s ∧ (condGet (s.bay .bay0).supply.watches .overcurrent).pending = true ∧ (s.bay .bay0).phase = .running ∧
      (s.bay .bay0).run.load = none ∧ condGet (s.bay .bay0).supply.setup.modes .overcurrent = .retry ∧
      Condition.overcurrent ≠ .lidOpen ∧ (s.bay .bay0).supply.retryCount < (s.bay .bay0).supply.setup.retryMax ∧
      (s.bay .bay0).supply.on = true) := by
  unfold Up NoCheckDue; decide +kernel

theorem witness_SupplyFaultsByMode_report :
    (let s := (running [flight 0 none (.dwell 5)] 1).modSupply .bay0 fun p => { p with
      on := true, setup := { p.setup with modes := condSet p.setup.modes .undervoltage .report }
      watches := condSet p.watches .undervoltage ⟨10, true, true⟩ }
    Up s ∧ NoCheckDue .bay0 s ∧ (condGet (s.bay .bay0).supply.watches .undervoltage).pending = true ∧ (s.bay .bay0).phase = .running ∧
      (s.bay .bay0).run.load = none ∧ condGet (s.bay .bay0).supply.setup.modes .undervoltage = .report) ∧
    (let s := (withRun .closing id).modSupply .bay0 fun p => { p with
      setup := { p.setup with modes := condSet p.setup.modes .lidOpen .report }, watches := condSet p.watches .lidOpen ⟨10, true, true⟩ }
    Up s ∧ NoCheckDue .bay0 s ∧ (condGet (s.bay .bay0).supply.watches .lidOpen).pending = true ∧ (s.bay .bay0).phase = .closing ∧
      condGet (s.bay .bay0).supply.setup.modes .lidOpen = .report) ∧
    (let s := (running [flight 0 none (.dwell 5)] 1).modSupply .bay0 fun p => { p with
      on := true, setup := { p.setup with modes := condSet p.setup.modes .lidOpen .off }
      watches := condSet p.watches .lidOpen ⟨10, true, true⟩ }
    Up s ∧ NoCheckDue .bay0 s ∧ (condGet (s.bay .bay0).supply.watches .lidOpen).pending = true ∧ (s.bay .bay0).phase = .running ∧
      (s.bay .bay0).run.load = none ∧ condGet (s.bay .bay0).supply.setup.modes .lidOpen = .off) ∧
    (let s := (withRun .paused id).modSupply .bay0 fun p => { p with
      on := true, setup := { p.setup with modes := condSet p.setup.modes .lidOpen .latch }
      watches := condSet p.watches .lidOpen ⟨10, true, true⟩ }
    Up s ∧ NoCheckDue .bay0 s ∧ (condGet (s.bay .bay0).supply.watches .lidOpen).pending = true ∧ (s.bay .bay0).phase = .paused ∧
      (s.bay .bay0).run.load = none ∧ condGet (s.bay .bay0).supply.setup.modes .lidOpen = .latch) := by
  unfold Up NoCheckDue; decide +kernel

theorem witness_SupplyFaultsByMode_others :
    (let s := (withRun .paused id).modSupply .bay0 fun p => { p with
      on := true, setup := { p.setup with modes := condSet p.setup.modes .overcurrent .retry }, retryCount := 2
      watches := condSet p.watches .overcurrent ⟨10, true, true⟩ }
    Up s ∧ NoCheckDue .bay0 s ∧ (condGet (s.bay .bay0).supply.watches .overcurrent).pending = true ∧ (s.bay .bay0).phase = .paused ∧
      (s.bay .bay0).run.load = none ∧ condGet (s.bay .bay0).supply.setup.modes .overcurrent = .retry ∧
      Condition.overcurrent ≠ .lidOpen ∧ (s.bay .bay0).supply.retryCount < (s.bay .bay0).supply.setup.retryMax ∧
      (s.bay .bay0).supply.on = true) ∧
    (let s := (withRun .arming id).modSupply .bay0 fun p => { p with
      on := true, setup := { p.setup with modes := condSet p.setup.modes .lidOpen .retry }
      watches := condSet p.watches .lidOpen ⟨10, true, true⟩ }
    Up s ∧ NoCheckDue .bay0 s ∧ (condGet (s.bay .bay0).supply.watches .lidOpen).pending = true ∧ (s.bay .bay0).phase = .arming ∧
      (s.bay .bay0).run.load = none ∧ condGet (s.bay .bay0).supply.setup.modes .lidOpen = .retry) ∧
    (let s := (withRun .closing id).modSupply .bay0 fun p => { p with
      on := true, setup := { p.setup with modes := condSet p.setup.modes .overcurrent .retry }
      watches := condSet p.watches .overcurrent ⟨10, true, true⟩ }
    Up s ∧ NoCheckDue .bay0 s ∧ (condGet (s.bay .bay0).supply.watches .overcurrent).pending = true ∧ (s.bay .bay0).phase = .closing ∧
      (s.bay .bay0).run.load = none ∧ condGet (s.bay .bay0).supply.setup.modes .overcurrent = .retry) := by
  unfold Up NoCheckDue; decide +kernel

theorem witness_RetryOffTimeAndSettle :
    (let s := (inPhase .paused).modSupply .bay0 fun p => { p with on := true, retry := .offTime 1000, retryFault := some .overcurrent }
    Up s ∧ (s.bay .bay0).supply.retry = .offTime 1000 ∧ (s.bay .bay0).supply.setup.retryTime ≤ 1000) ∧
    (let s := (inPhase .paused).modSupply .bay0 fun p => { p with on := true, retry := .offTime 999, retryFault := some .overcurrent }
    Up s ∧ (s.bay .bay0).supply.retry = .offTime 999 ∧ 999 < (s.bay .bay0).supply.setup.retryTime) ∧
    (Up State.reset ∧ (State.reset.bay .bay0).supply.retry = .none) ∧
    (let s := (inPhase .paused).modSupply .bay0 fun p => { p with on := true, retry := .settling 199, retryFault := some .overcurrent }
    Up s ∧ (s.bay .bay0).supply.retry = .settling 199 ∧ 199 < 200) ∧
    (let s := (inPhase .paused).modSupply .bay0 fun p => { p with on := true, retry := .settling 200, retryFault := some .overcurrent }
    Up s ∧ (s.bay .bay0).supply.retry = .settling 200 ∧ 200 ≤ 200 ∧ (s.bay .bay0).supply.retryFault = some .overcurrent ∧
      (s.bay .bay0).phase = .paused ∧ (s.bay .bay0).run.load = none ∧ NoCheckDue .bay0 s) := by
  unfold Up NoCheckDue; decide +kernel

theorem witness_TransactionsRunFromTheHead :
    (Up State.reset ∧ State.reset.bus.queue = [] ∧ State.reset.bus.state ≠ .active) ∧
    (let s := withBus fun u => { u with queue := [lampWrite] }
    Up s ∧ s.bus.queue = lampWrite :: [] ∧ s.bus.state = .idle ∧ s.bus.onBus = false ∧ s.bus.scl = true ∧ s.bus.sda = true ∧
      lampWrite.op = .write [0] ∧ (newEntry .bay0 .key 1 (.read 1) 0x50).op = .read 1) ∧
    (let e : BusEntry := newEntry .bay0 (.step 0) 2 (.read 1) 0
    let s := onBus e (running [flight 0 none (.fixture false [1] [1])] 1)
    Up s ∧ s.bus.queue = e :: [] ∧ s.bus.state = .active ∧ s.bus.onBus = true ∧ s.bus.waitScl = none ∧
      findInFlight (s.bay .bay0).run 0 = some (flight 0 none (.fixture false [1] [1])) ∧ 0 < (s.bay .bay0).run.next ∧
      NoCheckDue .bay0 s ∧ e.owner = .step 0) ∧
    (let e : BusEntry := lampWrite
    let s := onBus e (inPhase .idle)
    Up s ∧ s.bus.queue = e :: [] ∧ s.bus.state = .active ∧ s.bus.onBus = true ∧ s.bus.waitScl = none ∧ s.bus.held = [] ∧
      e.owner = .lamp ∧ (s.bay e.bay).panel.lampWaiting = none ∧ (s.bay e.bay).phase ≠ .closing) ∧
    (lampWrite.op = .write [0] ∧ 1 ≤ 1 ∧ 2 ≤ [(0 : Byte)].length + 1) := by
  unfold Up NoCheckDue; decide +kernel

theorem witness_OwnersTakeTheirOutcomes_check :
    (let e : BusEntry := newEntry .bay0 .fixtureCheck 0 (.read 14) 0
    let s := onBus e (withRun .checking fun r => { r with copy := { r.copy with header := some (headerOf 1) } })
    Up s ∧ s.bus.queue = e :: [] ∧ s.bus.state = .active ∧ s.bus.onBus = true ∧ s.bus.waitScl = none ∧
      e.owner = .fixtureCheck ∧ (s.bay .bay0).phase = .checking ∧ transactionOutcome e (some 0) ≠ .done ∧
      transactionOutcome e none = .done ∧ e.op = .read 14 ∧ (s.bay .bay0).run.copy.header = some (headerOf 1) ∧
      (headerOf 1).fixtureType = 0 ∧ (headerOf 1).waitStart = true ∧ (headerOf 1).ignoreService = true ∧
      (s.bay .bay0).supply.lidOpen = false) ∧
    (let e : BusEntry := newEntry .bay0 .fixtureCheck 0 (.read 14) 0
    let s := onBus e (inPhase .idle)
    e.owner = .fixtureCheck ∧ (s.bay .bay0).phase ≠ .checking ∧ (s.bay .bay0).phase ≠ .closing) ∧
    (let h : Header := { headerOf 1 with fixtureType := 3, ignoreService := false, waitStart := false }
    let d : List Byte := [3, 0, 0, 0, 0, 0, 255, 255, 255, 255, 255, 255, 255, 255]
    h.fixtureType ≠ 0 ∧ h.fixtureType ≠ u16At [] 0 ∧ h.fixtureType = u16At d 0 ∧ u32At d 10 ≠ 0 ∧ u32At d 10 ≤ u32At d 6 ∧
      h.ignoreService = false ∧ u32At [] 10 = 0 ∧ h.waitStart = false) := by
  unfold Up; decide +kernel

theorem witness_OwnersTakeTheirOutcomes_closing :
    (let e : BusEntry := newEntry .bay0 .cycleCount 0 (.write [0, 0, 0, 0]) 6
    let s := onBus e (withRun .closing fun r => { r with
      closing := .cycle, verdict := some .pass, ident := some ⟨3, 5, 4294967295, 0⟩
      copy := { r.copy with header := some { headerOf 1 with passText := 1 } } })
    Up s ∧ s.bus.queue = e :: [] ∧ s.bus.state = .active ∧ s.bus.onBus = true ∧ s.bus.waitScl = none ∧ e.owner = .cycleCount ∧
      (s.bay .bay0).phase = .closing ∧ (s.bay .bay0).run.closing = .cycle ∧ (s.bay .bay0).panel.lampWrite = none ∧
      (s.bay .bay0).panel.display = none ∧ (s.bay .bay0).run.verdict = some .pass ∧
      (s.bay .bay0).run.ident = some ⟨3, 5, 4294967295, 0⟩ ∧
      (s.bay .bay0).run.copy.header = some { headerOf 1 with passText := 1 } ∧ ({ headerOf 1 with passText := 1 } : Header).passText ≠ 0) ∧
    (let e : BusEntry := newEntry .bay0 (.display .verdictText) 1 (.write []) 0
    let s := (onBus e (withRun .closing fun r => { r with closing := .panel })).modPanel .bay0 fun p =>
      { p with display := some .verdictText, lampWrite := some 1 }
    Up s ∧ s.bus.queue = e :: [] ∧ s.bus.state = .active ∧ s.bus.onBus = true ∧ s.bus.waitScl = none ∧
      e.owner = .display .verdictText ∧ (s.bay .bay0).phase = .closing ∧ (s.bay .bay0).run.closing = .panel ∧
      (s.bay .bay0).panel.lampWrite ≠ none) := by
  unfold Up; decide +kernel

theorem witness_OwnersTakeTheirOutcomes_panel :
    (let e : BusEntry := newEntry .bay0 (.display (.fixed .pressStart)) 1 (.write []) 0
    let s := (onBus e (inPhase .arming)).modPanel .bay0 fun p =>
      { p with display := some (.fixed .pressStart), waitingText := some .closeLid }
    Up s ∧ s.bus.queue = e :: [] ∧ s.bus.state = .active ∧ s.bus.onBus = true ∧ s.bus.waitScl = none ∧
      e.owner = .display (.fixed .pressStart) ∧ (s.bay .bay0).phase = .arming ∧ (s.bay .bay0).run.inFlight = [] ∧
      (s.bay .bay0).panel.waitingText = some .closeLid) ∧
    (let e : BusEntry := newEntry .bay0 (.display (.prompt 0)) 1 (.write []) 0
    let q : Prompt := ⟨0, .ack, [], 5, none, .writing, none⟩
    let s := (onBus e (running [flight 0 none .prompt] 1)).modPanel .bay0 fun p => { p with prompts := [q] }
    Up s ∧ s.bus.queue = e :: [] ∧ s.bus.state = .active ∧ s.bus.onBus = true ∧ s.bus.waitScl = none ∧
      e.owner = .display (.prompt 0) ∧ (s.bay .bay0).phase = .running ∧ NoCheckDue .bay0 s ∧ 0 < (s.bay .bay0).run.next ∧
      (s.bay .bay0).panel.prompts.find? (fun q => q.step = 0 && q.state = .writing) = some q ∧
      findInFlight (s.bay .bay0).run 0 = some (flight 0 none .prompt) ∧ transactionOutcome e none = .done ∧
      transactionOutcome e (some 0) ≠ .done ∧ q.form ≠ .note ∧ { q with form := .note }.form = .note) ∧
    (let s := (onBus lampWrite (inPhase .idle)).modPanel .bay0 fun p => { p with lampWrite := some 0, lampWaiting := some 4 }
    Up s ∧ s.bus.queue = lampWrite :: [] ∧ s.bus.state = .active ∧ s.bus.onBus = true ∧ s.bus.waitScl = none ∧
      lampWrite.owner = .lamp ∧ (s.bay .bay0).phase ≠ .closing ∧ (s.bay .bay0).panel.lampWaiting = some 4) ∧
    (let e : BusEntry := newEntry .bay0 .key 1 (.read 1) 0x50
    let s := (onBus e (inPhase .arming)).modPanel .bay0 fun p => { p with keyRead := .outstanding }
    Up s ∧ s.bus.queue = e :: [] ∧ s.bus.state = .active ∧ s.bus.onBus = true ∧ s.bus.waitScl = none ∧ e.owner = .key ∧
      (s.bay .bay0).phase ≠ .closing ∧ transactionOutcome e (some 2) ≠ .done ∧ transactionOutcome e none = .done ∧
      e.op = .read 1 ∧ ([1] : List Byte).headD 0 = 1 ∧ ([4] : List Byte).headD 0 = 4 ∧ 4 < (([5] : List Byte).headD 0).toNat ∧
      ([] : List Byte).headD 0 = 0) := by
  unfold Up NoCheckDue; decide +kernel

theorem witness_RunsAreHandedBack :
    (let s := withRun .paused fun r => { r with ran := true, ident := some ⟨3, 5, 4294967295, 0⟩ }
    Up s ∧ NoCheckDue .bay0 s ∧ (s.bay .bay0).run.load = none ∧ (s.bay .bay0).phase = .paused ∧
      (s.bay .bay0).run.ran = true ∧ s.bus.state ≠ .failed ∧ (s.bay .bay0).run.ident = some ⟨3, 5, 4294967295, 0⟩ ∧
      s.bus.queue = []) ∧
    (let s := onBus (newEntry .bay0 (.step 0) 2 (.read 1) 0) (withRun .running fun r => { r with ran := true, ident := some ⟨3, 5, 1, 0⟩ })
    Up s ∧ NoCheckDue .bay0 s ∧ (s.bay .bay0).phase = .running ∧
      s.bus.queue = newEntry .bay0 (.step 0) 2 (.read 1) 0 :: [] ∧ s.bus.onBus = true ∧
      (newEntry .bay0 (.step 0) 2 (.read 1) 0).bay = .bay0) ∧
    (let s := (running [flight 0 none (.dwell 5)] 1).modBayXu .bay0 fun x => { x with refused := some .record }
    Up s ∧ NoCheckDue .bay0 s ∧ (s.bay .bay0).run.load = none ∧ (s.bay .bay0).phase = .running ∧ (s.bay .bay0).run.inFlight ≠ [] ∧
      (s.bay .bay0).run.lost = false ∧ (s.bay .bay0).run.slot ≠ none ∧ (s.bay .bay0).xu.refused = some .record) ∧
    (let s := (onBus lampWrite (withRun .closing fun r => { r with
      closing := .panel, verdict := some .pass
      copy := { r.copy with header := some { headerOf 96 with eventOnFinish := true }, records := List.replicate 96 [2, 0] } })).modPanel
        .bay0 fun p => { p with lampWrite := some 0 }
    Up s ∧ s.bus.state = .active ∧ s.bus.onBus = true ∧ s.bus.waitScl = none ∧ s.bus.queue = lampWrite :: [] ∧
      lampWrite.owner = .lamp ∧ (s.bay .bay0).phase = .closing ∧ (s.bay .bay0).run.closing = .panel ∧
      (s.bay .bay0).panel.lampWaiting = none ∧ (s.bay .bay0).panel.display = none ∧
      (∀ c ∈ allConditions, (condGet (s.bay .bay0).supply.watches c).pending = false) ∧ (s.bay .bay0).run.slot = some .a ∧
      (s.bay .bay0).run.verdict = some .pass ∧ (s.bay .bay0).xu.enabled = true ∧ (s.bay .bay0).supply.latched = 0 ∧
      (s.bay .bay0).run.lost = false ∧ (s.bay .bay0).run.copy.header = some { headerOf 96 with eventOnFinish := true } ∧
      (s.bay .bay0).xu.refused = none ∧ ((s.modBayXu .bay0 fun x => { x with refused := some .header }).bay .bay0).xu.refused = some .header ∧
      (∀ i ∈ List.range 96, (s.bay .bay0).run.copy.records[i]? ≠ none)) := by
  unfold Up NoCheckDue; decide +kernel

theorem witness_HeldClockTimesOut :
    (Up State.reset ∧ State.reset.bus.state ≠ .active ∧ State.reset.bus.waitScl = none) ∧
    (let e : BusEntry := lampWrite
    let s := onBus e (inPhase .idle)
    Up s ∧ s.bus.queue = e :: [] ∧ s.bus.state = .active ∧ s.bus.onBus = true ∧ s.bus.waitScl = none ∧ s.bus.held = [] ∧
      e.owner = .lamp ∧ (s.bay e.bay).panel.lampWaiting = none ∧ (s.bay e.bay).phase ≠ .closing) ∧
    (let s := { (withBus fun u => { u with state := .active, waitScl := some 4294967290, scl := false }) with rackTime := 19 }
    Up s ∧ s.bus.waitScl = some 4294967290 ∧ s.bus.state = .active ∧ 25 ≤ (s.rackTime - 4294967290).toNat ∧
      (s.rackTime - 4294967291).toNat < 25) := by
  unfold Up; decide +kernel

theorem witness_OtherMastersHoldTheBus :
    (let e : BusEntry := { lampWrite with losses := 1 }
    let s := onBus e (inPhase .idle)
    Up s ∧ s.bus.queue = e :: [] ∧ s.bus.state = .active ∧ s.bus.onBus = true ∧ s.bus.waitScl = none ∧ e.losses < 2) ∧
    (let e : BusEntry := { lampWrite with losses := 2 }
    let s := onBus e (inPhase .idle)
    Up s ∧ s.bus.queue = e :: [] ∧ s.bus.state = .active ∧ s.bus.onBus = true ∧ s.bus.waitScl = none ∧ 2 ≤ e.losses ∧ s.bus.held = [] ∧
      e.owner = .lamp ∧ (s.bay e.bay).panel.lampWaiting = none ∧ (s.bay e.bay).phase ≠ .closing) ∧
    (Up State.reset ∧ State.reset.bus.state ≠ .active ∧ State.reset.bus.state = .idle ∧ State.reset.bus.state ≠ .busyOther) ∧
    (let s := withBus fun u => { u with queue := [{ lampWrite with losses := 1 }] }
    Up s ∧ s.bus.state = .idle ∧ s.bus.queue = { lampWrite with losses := 1 } :: [] ∧ s.bus.onBus = false ∧ s.bus.scl = true ∧
      s.bus.sda = true ∧ ({ lampWrite with losses := 1 } : BusEntry).losses < 2) ∧
    (let s := { (withBus fun u => { u with state := .busyOther, scl := true }) with rackTime := 34 }
    Up s ∧ s.bus.state = .busyOther ∧ s.bus.scl = true ∧ (s.rackTime - s.bus.countsFrom).toNat < 35 ∧ s.bus.state ≠ .idle ∧
      (busRequest lampWrite s).isSome = true) ∧
    (let s := { (withBus fun u => { u with state := .busyOther, scl := true }) with rackTime := 35 }
    Up s ∧ s.bus.state = .busyOther ∧ s.bus.scl = true ∧ 35 ≤ (s.rackTime - s.bus.countsFrom).toNat) ∧
    (let s := { (withBus fun u => { u with state := .busyOther, scl := false }) with rackTime := 35 }
    Up s ∧ s.bus.state = .busyOther ∧ s.bus.scl = false ∧ 35 ≤ (s.rackTime - s.bus.countsFrom).toNat) := by
  unfold Up; decide +kernel

theorem witness_RecoveryFreesOrFailsTheBus :
    (let s := { (withBus fun u => { u with queue := [lampWrite], sda := false }) with rackTime := 35 }
    Up s ∧ s.bus.state = .idle ∧ s.bus.queue ≠ [] ∧ s.bus.scl = true ∧ s.bus.sda = false ∧
      35 ≤ (s.rackTime - s.bus.countsFrom).toNat) ∧
    (let s := { (withBus fun u => { u with queue := [lampWrite], sda := false }) with rackTime := 34 }
    Up s ∧ s.bus.state = .idle ∧ s.bus.queue ≠ [] ∧ s.bus.scl = true ∧ s.bus.sda = false ∧
      (s.rackTime - s.bus.countsFrom).toNat < 35) ∧
    (Up State.reset ∧ State.reset.bus.queue = [] ∧ State.reset.bus.state ≠ .recovering) ∧
    (let s := withBus fun u => { u with state := .recovering }
    Up s ∧ s.bus.state = .recovering) ∧
    (Up failingBus ∧ failingBus.bus.state = .recovering ∧ lampWrite ∈ failingBus.bus.queue ++ failingBus.bus.held ∧
      lampWrite.owner = .lamp ∧ newEntry .bay0 .key 1 (.read 1) 0x50 ∈ failingBus.bus.queue ++ failingBus.bus.held ∧
      (newEntry .bay0 .key 1 (.read 1) 0x50).owner = .key) ∧
    (∃ x ∈ (List.replicate 9 false ++ [true]).take 10, x = true) ∧
    (∀ x ∈ (List.replicate 10 false ++ [true]).take 10, x = false) := by
  unfold Up; decide +kernel

theorem witness_LineChangesMoveTheBus :
    ((withXu fun x => { x with resetting := true }).xu.resetting = true) ∧
    (Up (withBus fun u => { u with state := .failed }) ∧ (withBus fun u => { u with state := .failed }).bus.state = .failed ∧
      false ≠ (withBus fun u => { u with state := .failed }).bus.scl) ∧
    (Up State.reset ∧ State.reset.bus.state = .idle ∧ State.reset.bus.scl = true ∧ State.reset.bus.sda = true ∧
      false ≠ State.reset.bus.scl) ∧
    (let s := withBus fun u => { u with scl := false }
    Up s ∧ s.bus.state = .idle ∧ s.bus.scl = false ∧ true ≠ s.bus.scl) ∧
    (let s := withBus fun u => { u with state := .active, waitScl := some 0, scl := false }
    Up s ∧ s.bus.state = .active ∧ s.bus.waitScl ≠ none ∧ true ≠ s.bus.scl) ∧
    (let s := withBus fun u => { u with state := .busyOther, sda := false }
    Up s ∧ s.bus.state = .busyOther ∧ s.bus.scl = true ∧ s.bus.sda = false ∧ true ≠ s.bus.sda ∧ false ≠ s.bus.scl) ∧
    (let s := withBus fun u => { u with sda := false }
    Up s ∧ s.bus.state = .idle ∧ s.bus.scl = true ∧ s.bus.sda = false ∧ true ≠ s.bus.sda) := by
  unfold Up; decide +kernel

theorem witness_AttentionAndAnswerKeys :
    (((inPhase .closing).bay .bay0).phase = .closing) ∧
    (Up State.reset ∧ (State.reset.bay .bay0).phase ≠ .closing ∧ (State.reset.bay .bay0).panel.keyRead = .none ∧ State.reset.bus.state ≠ .failed) ∧
    (Up (withBus fun u => { u with state := .failed }) ∧ ((withBus fun u => { u with state := .failed }).bay .bay0).phase ≠ .closing ∧ ((withBus fun u => { u with state := .failed }).bay .bay0).panel.keyRead = .none ∧ (withBus fun u => { u with state := .failed }).bus.state = .failed) ∧
    (Up State.reset ∧ NoCheckDue .bay0 State.reset ∧ (State.reset.bay .bay0).phase ≠ .running ∧ (State.reset.bay .bay0).panel.prompts = []) ∧
    (let q : Prompt := ⟨0, .ask, [], 5, some 0, .armed, none⟩
    let s := (running [flight 0 none .prompt] 1).modPanel .bay0 fun p => { p with prompts := [q] }
    Up s ∧ NoCheckDue .bay0 s ∧ (s.bay .bay0).panel.prompts = q :: [] ∧ q.state = .armed ∧
      findInFlight (s.bay .bay0).run q.step = some (flight 0 none .prompt) ∧ q.step < (s.bay .bay0).run.next ∧
      (s.bay .bay0).phase = .running ∧ q.form = .ask ∧ q.remaining = some 0) ∧
    (let q : Prompt := ⟨0, .ack, [], 5, some 1, .armed, none⟩
    let s := (running [flight 0 none .prompt] 1).modPanel .bay0 fun p => { p with prompts := [q] }
    Up s ∧ NoCheckDue .bay0 s ∧ (s.bay .bay0).panel.prompts = q :: [] ∧ q.state = .armed ∧
      findInFlight (s.bay .bay0).run q.step = some (flight 0 none .prompt) ∧ q.step < (s.bay .bay0).run.next ∧
      (s.bay .bay0).phase = .running ∧ q.form = .ack ∧ q.remaining ≠ some 0) := by
  unfold Up NoCheckDue; decide +kernel

theorem witness_StartAndAbortKeys :
    (Up State.reset ∧ (State.reset.bay .bay0).phase ≠ .arming ∧ NoCheckDue .bay0 State.reset ∧ (State.reset.bay .bay0).phase = .offline) ∧
    (let s := (inPhase .arming).modSupply .bay0 fun p => { p with lidOpen := true }
    Up s ∧ (s.bay .bay0).phase = .arming ∧ (s.bay .bay0).supply.lidOpen = true ∧ (s.bay .bay0).panel.display = none ∧
      s.bus.state ≠ .failed) ∧
    (let s := ((inPhase .arming).modSupply .bay0 fun p => { p with lidOpen := true }).modPanel .bay0 fun p =>
      { p with display := some (.fixed .pressStart) }
    Up s ∧ (s.bay .bay0).phase = .arming ∧ (s.bay .bay0).supply.lidOpen = true ∧ (s.bay .bay0).panel.display ≠ none) ∧
    (let s := (inPhase .arming).modSupply .bay0 fun p => { p with lidOpen := false }
    Up s ∧ (s.bay .bay0).phase = .arming ∧ (s.bay .bay0).supply.lidOpen = false) ∧
    (let s := loadingState .header none
    Up s ∧ (s.bay .bay0).phase = .loading ∧ (s.bay .bay0).run.load = some ⟨.header, someRead, none, none⟩ ∧ NoCheckDue .bay0 s) ∧
    (let s := running [flight 0 none .prompt] 1
    Up s ∧ NoCheckDue .bay0 s ∧ (s.bay .bay0).run.load = none ∧ (s.bay .bay0).phase = .running) := by
  unfold Up NoCheckDue; decide +kernel

/-- Bay 0 enabled and IDLE, RUN set, and a read of its next slot's ownership word outstanding. -/
def lawfulState : State :=
  { ((inPhase .idle).modXu fun x =>
      { x with run := true, scanp := 1, scanTimer := some 50, pass := some ⟨.word .bay0 .a false, someRead, false, [], [], false, false⟩ }) with
    pending := [.ownershipWordReadComplete 1] }

theorem witness_LawsKept_rack : RegisterLaw lawfulState.xu ∧ ResetLaw lawfulState ∧ BusLaw lawfulState.bus := by
  refine ⟨⟨by decide, by decide, fun n _ => ?_, by decide, by decide⟩, by unfold ResetLaw; decide, ⟨by decide, ?_, by decide,
    by decide, by decide, by decide, by decide⟩⟩
  · show (0#32).getLsbD n = false
    simp
  · intro b; cases b <;> decide

theorem witness_LawsKept_bay (b : Bay) : SafeLaw (lawfulState.bay b) ∧ RetryLaw (lawfulState.bay b) ∧
    PromptLaw (lawfulState.bay b) ∧ RunLaw (lawfulState.bay b) := by
  cases b <;>
    exact ⟨⟨by decide, by decide, by decide, by decide, by decide, by decide, by decide, by decide, by decide,
        (fun _ h => nomatch h)⟩, ⟨by decide, by decide, by decide, (fun _ h => nomatch h)⟩,
      ⟨by decide, by decide, by decide, by decide, by decide⟩,
      ⟨by decide, (fun _ h => nomatch h), by decide, by decide, by decide, by decide, by decide, by decide, by decide, by decide,
        by decide, by decide⟩⟩

theorem witness_LawsKept_units (b : Bay) : QueueLaw (lawfulState.bay b).net ∧ ValueLaw (lawfulState.bay b) ∧
    PulseLaw (lawfulState.bay b).stim := by
  have none_ (b : Bay) : ∀ i : Fin 14, (lawfulState.bay b).stim.actions[i] = none := by cases b <;> decide +kernel
  have left (b : Bay) : ∀ i : Fin 14, (lawfulState.bay b).stim.stopped[i] = [] := by cases b <;> decide +kernel
  have stopped (b : Bay) : ∀ i : Fin 2, (lawfulState.bay b).stim.frequency[i] = none ∧
      (lawfulState.bay b).stim.generators[i] = .stopped := by cases b <;> decide +kernel
  refine ⟨⟨?_, ?_, ?_, ?_, ?_, ?_⟩, ⟨?_, fun i a h => ?_, fun i a h => ?_, fun i a _ h => ?_, fun i h => ?_, fun i h g => ?_⟩,
    ⟨?_, fun i f h => ?_, fun i p q h => ?_⟩⟩
  · cases b <;> decide
  · cases b <;> decide
  · cases b <;> exact fun _ h => nomatch h
  · cases b <;> decide
  · cases b <;> decide +kernel
  · cases b <;> decide
  · cases b <;> decide +kernel
  · rw [none_ b i] at h; cases h
  · rw [none_ b i] at h; cases h
  · rw [none_ b i] at h; cases h
  · exact absurd (none_ b i) h
  · rcases g with g | ⟨a, g, _⟩
    · rw [left b i] at g; cases g
    · rw [none_ b i] at g; cases g
  · cases b <;> decide +kernel
  · rw [(stopped b i).1] at h; cases h
  · rw [(stopped b i).2] at h; cases h

theorem witness_LawsKept : Lawful lawfulState ∧ ∃ t, step lawfulState = .next t :=
  ⟨⟨witness_LawsKept_rack.1, witness_LawsKept_rack.2.1, witness_LawsKept_rack.2.2,
    fun b => (witness_LawsKept_bay b).1, fun b => (witness_LawsKept_units b).1,
    fun b => (witness_LawsKept_bay b).2.2.2, fun b => (witness_LawsKept_bay b).2.1,
    fun b => (witness_LawsKept_bay b).2.2.1, fun b => (witness_LawsKept_units b).2.1,
    fun b => (witness_LawsKept_units b).2.2⟩, ⟨_, rfl⟩⟩

/-- The prompt queue of a RUNNING bay with one prompt, of a PROMPT step in flight. -/
theorem witness_PromptLawKept_queued :
    PromptLaw (((running [flight 0 none .prompt] 1).modPanel .bay0 fun p =>
      { p with prompts := [⟨0, .ask, [], 0, none, .armed, none⟩] }).bay .bay0) :=
  ⟨by decide, by decide, by decide, by decide, by decide⟩

theorem witness_BaysAreIsolated :
    bayOf (.keyStart .bay0) = some .bay0 ∧ ∃ t, exec (.keyStart .bay0) (inPhase .arming) = .next t := ⟨rfl, _, rfl⟩

theorem witness_ResultsNeverChange :
    resets (.dwellEnd .bay0 0) = false ∧ ∃ t, exec (.dwellEnd .bay0 0) (running [flight 0 none (.dwell 0)] 1) = .next t :=
  ⟨rfl, _, rfl⟩

theorem witness_StreamAndEventsOnlyGrow :
    resets (.writeError .rackStatus) = false ∧
      ∃ t, exec (.writeError .rackStatus) (withXu fun x => { x with rackWrite := .busy, irqen := true, events := 1 }) = .next t :=
  ⟨rfl, _, rfl⟩

theorem witness_InterruptPerNewEvent :
    resets .busyOtherTimeout = false ∧ ∃ t, exec .busyOtherTimeout
      { (withBus fun u => { u with state := .busyOther, scl := false }) with rackTime := 35 } = .next t ∧ t.xu.irqen = false :=
  ⟨rfl, _, rfl, rfl⟩

theorem witness_StateChangesOnlyByItsCommands :
    resets .sdaHeldTimeout = false ∧ ∃ t, exec .sdaHeldTimeout State.reset = .next t := ⟨rfl, _, rfl⟩

/-! ### Figures of the manual -/

/-- Wheel speed, section 3.3: the frequencies and periods of the table, stopped at 4 and clamped at 900,100. -/
theorem test_wheel_speed :
    (pulseFrequency 4 ⟨8000, 360, 50⟩).1 = none ∧ (pulseFrequency 5 ⟨8000, 360, 50⟩).1 = some 111 ∧
      pulseFrequency 10000 ⟨8000, 360, 50⟩ = (some 222222, false) ∧
      pulseFrequency 900000 ⟨8000, 360, 50⟩ = (some 20000000, false) ∧
      pulseFrequency 900100 ⟨8000, 360, 50⟩ = (some 20000000, true) ∧ periodTicks 222222 = 225000 ∧
      periodTicks 266667 = 187500 ∧ highTicks 187500 50 = 93750 ∧ periodTicks 111 = 450450450 := by decide +kernel

/-- The ramps of section 3.2: 400 over 2,000 ms, a fall of 3 over 2 ms, and 1,000 at 300 per ms. -/
theorem test_ramps :
    (nextValue ⟨0, 0, .value, .timed 2000, 0, 400, 2, false, false, []⟩ 0).1 = 1 ∧
      nextValue ⟨0, 0, .value, .timed 2000, 0, 400, 1998, false, false, []⟩ 0 = (400, false) ∧
      nextValue ⟨0, 0, .value, .timed 2000, 0, 400, 1999, false, false, []⟩ 0 = (400, true) ∧
      nextValue ⟨0, 0, .value, .timed 2, 0, -3, 0, false, false, []⟩ 0 = (-2, false) ∧
      nextValue ⟨0, 0, .value, .rate 300, 0, 1000, 2, false, false, []⟩ 600 = (900, false) ∧
      nextValue ⟨0, 0, .value, .rate 300, 0, 1000, 3, false, false, []⟩ 900 = (1000, true) := by decide +kernel

/-- Section 3.2, a cut in mid-ramp, before its boundary 250: step 7 holds N2 at 2,490. -/
def midRamp : State :=
  { (running [flight 7 none (.drive [0, 1] false), { flight 9 none (.drive [0] false) with start := 249 }] 10).modStim .bay0
      fun u => { u with
        values := tabSet u.values 8 2490
        actions := tabSet u.actions 8 (some ⟨7, 0, .value, .timed 1000, 0, 10000, 249, false, false, []⟩) } with
    rackTime := 249 }

/-- The value of N2 in bay 0 after a boundary, and the state there. -/
def n2After (x : BayInputs) (s : State) : Int × State :=
  let t := after (.millisecondBoundary ⟨x, quietInputs, quietInputs, quietInputs⟩) s
  ((t.bay .bay0).stim.values[(8 : Fin 14)], t)

/-- A cut in mid-ramp, section 3.2: step 9 takes N2 at 2,500 also where its claim is taken before boundary 250, and moves it to
2,100 at the next; a claim that does not coincide with that boundary takes 2,490 (R76). -/
theorem test_cut_in_mid_ramp :
    let claimed := startAction .bay0 9 ⟨0, 8, .value, .rate 400, 1000⟩ midRamp
    let here := { quietInputs with startsHere := [9] }
    (n2After here claimed).1 = 2500 ∧ (n2After quietInputs (n2After here claimed).2).1 = 2100 ∧
      (n2After quietInputs claimed).1 = 2090 := by
  decide +kernel

/-- An abort that comes before boundary 250 and coincides with it leaves N2 at 2,500 (R76, R77). -/
theorem test_abort_before_boundary :
    (n2After { quietInputs with stopsHere := true } (after (.keyAbort .bay0) midRamp)).1 = 2500 ∧
      (n2After quietInputs (after (.keyAbort .bay0) midRamp)).1 = 2490 := by
  decide +kernel

/-- A RUNNING bay with the supply on, the lid one boundary short of its deglitch, and the bus in a state. -/
def lidAlmost (st : BusState) : State :=
  { (running [] 0).modSupply .bay0 fun p => { p with
      on := true
      watches := condSet p.watches .lidOpen ⟨condGet p.setup.deglitch .lidOpen - 1, false, false⟩
      setup := { p.setup with modes := condSet p.setup.modes .lidOpen .latch } } with
    bus := { State.reset.bus with state := st } }

/-- A lid whose deglitch completes at a boundary that an abort comes before: the recognition is still made, and waits in
CLOSING, or, where CLOSING has ended at that event, is latched and takes the bay to HALTED; the abort's cause stands. At a
later boundary there is none (R47, R157). -/
theorem test_abort_before_recognition :
    let open_ := { quietInputs with lidOpen := true }
    let at_ := fun x st => (after (.millisecondBoundary ⟨x, quietInputs, quietInputs, quietInputs⟩)
      (after (.keyAbort .bay0) (lidAlmost st))).bay .bay0
    let here := { open_ with stopsHere := true }
    ((at_ here .idle).phase = .closing ∧ (at_ here .idle).supply.watches.lidOpen.pending = true) ∧
      ((at_ here .failed).phase = .halted ∧ (at_ here .failed).supply.latched = condBit .lidOpen ∧
        (at_ here .failed).run.cause = .abort .operator) ∧
      ((at_ open_ .failed).phase = .idle ∧ (at_ open_ .failed).supply.latched = 0) := by
  decide +kernel

/-- The fuel level of section 3.4. -/
theorem test_fuel_level :
    let st : List (Int × Int) := [(125, 190), (375, 130), (625, 70), (875, 20)]
    stairMove st 10 134 0 = 0 ∧ stairMove st 10 135 0 = 1 ∧ stairMove st 10 384 1 = 1 ∧ stairMove st 10 385 1 = 2 ∧
      stairMove st 10 365 2 = 2 ∧ stairMove st 10 364 2 = 1 ∧ stairOhms 250 st 0 = 250 ∧ stairOhms 250 st 2 = 130 := by
  decide +kernel

/-- A speed signal in a frame, section 3.5. -/
theorem test_speed_signal :
    let c : NetConv := ⟨some 0, ⟨0, 16, .lowFirst, false⟩, 5, 1, 0⟩
    rawValue 10003 c = (2001, false) ∧ rawValue 10002 c = (2000, false) ∧ rawValue 327677 c = (65535, false) ∧
      rawValue 327678 c = (65535, true) := by decide +kernel

/-- The frame of section 4.2: entry 3, identifier 0x1A4, N0 at 10,003, counter 5; its checksum is 13, and 14 when bad. -/
theorem test_frame_built :
    let u : Stimulus := { Stimulus.reset with
      values := tabSet Stimulus.reset.values 6 10003
      setup := { StimSetup.reset with net := tabSet StimSetup.reset.net 0 ⟨some 3, ⟨0, 16, .lowFirst, false⟩, 5, 1, 0⟩ } }
    let e : EntrySetup := { EntrySetup.reset with
      enabled := true, id := 0x1A4, length := 8, counter := some ⟨6, .lowNibble, 16, 0⟩, checksum := some 7 }
    let w : EntryWork := { EntryWork.reset with on := true, bytes := [0, 0, 0, 0x40, 0, 0, 0x30, 0], counter := 5 }
    buildPayload u 3 e w = [0xD1, 0x07, 0, 0x40, 0, 0, 0x35, 0x0D] ∧
      byteAt (buildPayload u 3 e { w with mode := .badChecksum }) 7 = 0x0E ∧ (advanceCounter e w).counter = 6 ∧
      (advanceCounter e { w with mode := .freezeCounter }).counter = 5 := by decide +kernel

/-- The taps of section 4.6: one RECEIPT updates both. -/
theorem test_receipt_taps :
    let s := (inPhase .running).modNet .bay0 fun n => { n with
      state := .live
      taps := tabSet (tabSet n.taps 0 ⟨⟨true, 0x3E0, ⟨8, 12, .lowFirst, false⟩, 5, 2, -100, 200⟩, 0, false, 0⟩) 1
        ⟨⟨true, 0x3E0, ⟨24, 8, .lowFirst, true⟩, 5, 2, 0, 200⟩, 0, false, 0⟩ }
    let t := after (.receipt .bay0 ⟨false, false, 0x3E0, [0x00, 0xB3, 0x52, 0xF6]⟩) s
    let r := after (.receipt .bay0 ⟨false, false, 0x3E0, [0x00, 0xB3, 0x52]⟩) s
    (t.bay .bay0).net.taps[(0 : Fin 8)].value = 1628 ∧ (t.bay .bay0).net.taps[(1 : Fin 8)].value = -25 ∧
      (t.bay .bay0).net.taps[(1 : Fin 8)].fresh = true ∧ (r.bay .bay0).net.taps[(0 : Fin 8)].value = 1628 ∧
      (r.bay .bay0).net.taps[(1 : Fin 8)].fresh = false := by decide +kernel

/-- A field HIGH_FIRST at start bit 24 and length 16 of that frame reads 0x52F6 (section 4.6). -/
theorem test_high_first_field : readField [0x00, 0xB3, 0x52, 0xF6] ⟨24, 16, .highFirst, true⟩ = 0x52F6 := by decide +kernel

/-- The telltale of section 5.5. -/
def telltale (filter : Nat) (samples : List Int) : Probe :=
  decideProbe (samples.foldl (fun p x => takeSample x true p) (freshProbe ⟨11, .hold, 20000, 40000, 2000, filter, 3, 0, 0⟩))

/-- With N 4 the telltale passes with worst value 25,400; with N 1 it is MARGINAL with 12,000; dark for three samples it
fails. -/
theorem test_telltale :
    let l : List Int := [30000, 30400, 29600, 30000, 12000, 30000, 30000, 30000, 30000, 30000]
    let d : List Int := [30000, 30400, 29600, 30000, 12000, 12000, 12000, 30000, 30000, 30000]
    (telltale 4 l).state = .pass ∧ probeValue (telltale 4 l) = 25400 ∧ (telltale 1 l).state = .marginal ∧
      probeValue (telltale 1 l) = 12000 ∧ (telltale 1 d).state = .fail := by decide +kernel

/-- The displayed speed of section 5.5: decided PASS at k = 62 with worst value 9,910. -/
theorem test_displayed_speed :
    let p := (List.replicate 20 (9460 : Int) ++ List.replicate 20 9910 ++ List.replicate 9 10020).foldl
      (fun p x => takeSample x true p)
      ((List.replicate 12 ()).foldl (fun p _ => takeSample 0 false p)
        (freshProbe ⟨21, .reach, 9900, 10100, 40, 1, 30, 0, 0⟩))
    let q := takeSample 10020 true p
    p.state = .pending ∧ p.run = 29 ∧ q.state = .pass ∧ probeValue q = 9910 := by decide +kernel

/-- The settle window and the voltage limits at 13,500 mV (section 6.3). -/
theorem test_settle_window :
    inSettleWindow 13500 12825 = true ∧ inSettleWindow 13500 12824 = false ∧ inSettleWindow 13500 14175 = true ∧
      conditionShown { Supply.reset with setting := 13500 } 12149 0 .undervoltage = true ∧
      conditionShown { Supply.reset with setting := 13500 } 12150 0 .undervoltage = false ∧
      conditionShown { Supply.reset with setting := 13500 } 14850 0 .overvoltage = false ∧
      conditionShown { Supply.reset with setting := 13500 } 14851 0 .overvoltage = true := by decide +kernel

/-- The ident module of bay 3 at its service limit, and the address 0x50 (section 8.2). -/
theorem test_ident_limit :
    parseIdent [0x13, 0x02, 0x9B, 0xC4, 0, 0, 0x2F, 0x75, 0, 0, 0x30, 0x75, 0, 0] = ⟨531, 50331, 29999, 30000⟩ ∧
      moduleAddress .bay3 0 = 0x50 ∧ moduleAddress .bay1 2 = 0x32 ∧
      checkVerdict { RunEngine.reset with copy := { RunCopy.empty with header := some { headerOf 1 with ignoreService := false } } }
        ⟨531, 50331, 30000, 30000⟩ = some .serviceDue ∧
      checkVerdict { RunEngine.reset with copy := { RunCopy.empty with header := some { headerOf 1 with fixtureType := 532 } } }
        ⟨531, 50331, 29999, 30000⟩ = some .fixtureMismatch := by decide +kernel

/-- The clamp board of section 8.4. -/
theorem test_clamp_board :
    maskedMatch [0x05, 0x00] [0x07, 0x80] [0x2D, 0x01] = true ∧ maskedMatch [0x05, 0x00] [0x07, 0x80] [0x2E, 0x01] = false ∧
      maskedMatch [0x05, 0x00] [0x07, 0x80] [0x25, 0x81] = false := by decide

/-- The result record of section 11.8's example. -/
theorem test_result_record :
    resultBytes ⟨2, 0, .pass, .restarted, 0, 0, 125436, 131672, [(.pass, 723), (.pass, 11960), (.none, 0), (.none, 0)]⟩ =
      [2, 2, 0, 0, 64, 0, 0, 0, 0xFC, 0xE9, 1, 0, 0x58, 2, 2, 0, 2, 0, 0, 0, 0xD3, 2, 0, 0, 2, 0, 0, 0, 0xB8, 0x2E, 0, 0] ++
        List.replicate 32 0 := by decide +kernel

/-! ### Single commands -/

theorem test_bayenSet : ((after (.bayenSet .bay0) State.reset).bay .bay0).phase = .idle ∧
    (after (.bayenSet .bay0) State.reset).xu.stream.length = 1 := by decide +kernel

theorem test_bayDisable_halted :
    let s := (inPhase .halted).modSupply .bay0 fun p => { p with latched := 1 }
    ((after (.bayDisable .bay0) s).bay .bay0).phase = .offline ∧
      ((after (.bayDisable .bay0) s).bay .bay0).supply.latched = 0 := by decide +kernel

theorem test_xbaseWrite_low_bits : (after (.xbaseWrite .low 0xFFFFFFFF) State.reset).xu.xbaseLo = 0xFFFFF000 := by decide

theorem test_merrRead_partial : (after (.merrRead 2) State.reset).xu.readData = 0x1000 := by decide

theorem test_status_word : readRegister (inPhase .halted) 0x00C = 0x80 := by decide

/-- Bay 3 slot B lies in the last 0x5000 bytes of the area of 0x29000 bytes (R2, section 1.2). -/
theorem test_take_slot :
    let s := (State.reset.modBay .bay3 fun y => { y with phase := .idle, xu := { y.xu with enabled := true } }).modXu fun x =>
      { x with xbaseLo := 0x10000000, run := true, pass := some ⟨.word .bay3 .b false, someRead, false, [], [], false, false⟩ }
    let t := after (.ownershipWordReadComplete 1) s
    (t.bay .bay3).phase = .loading ∧ t.xu.stream.head? = some (.write (.active .bay3) 0x10024000 [2, 0, 0, 0]) := by
  decide +kernel

theorem test_withdraw_header_and_finished :
    let s := withBay fun y => { y with phase := .idle, xu := { y.xu with enabled := true, withdrawal := some ⟨.a, 5, someRead⟩ } }
    let t := after (.withdrawReadComplete .bay0 1 true) s
    (t.xu.stream[1]? = some (.write (.finished .bay0) 0x1000 [3, 0, 0, 0])) ∧ (t.bay .bay0).xu.next = .b ∧
      (t.bay .bay0).status.echoSeq = 5 := by decide +kernel

theorem test_recoverBus_failed :
    (after (.recoverBus 3) (withBus fun u => { u with state := .failed })).bus.state = .recovering := by decide +kernel

theorem test_boundary_lid :
    let i : BayInputs := ⟨Vector.replicate 8 0, Vector.replicate 8 0, 0, 0, 0, true, false, false, [], false, false⟩
    let t := after (.millisecondBoundary ⟨i, i, i, i⟩) State.reset
    t.rackTime = 1 ∧ t.tick = 50000 ∧ (t.bay .bay2).supply.lidOpen = true := by decide +kernel

theorem test_fiRisingEdge_clamped :
    let s := withBay fun y => { y with fi := tabSet y.fi 0 ⟨some 0, 0⟩ }
    ((after (.fiRisingEdge .bay0 0 49) s).bay .bay0).fi[(0 : Fin 2)].value = 1000000000 ∧
      ((after (.fiRisingEdge .bay0 0 100000000) s).bay .bay0).fi[(0 : Fin 2)].value = 500 := by decide +kernel

theorem test_keyStart_lid :
    let s := (inPhase .arming).modSupply .bay0 fun p => { p with lidOpen := true }
    ((after (.keyStart .bay0) s).bay .bay0).phase = .arming ∧
      ((after (.keyStart .bay0) s).bay .bay0).panel.closeLid = true := by decide +kernel

theorem test_keyYes_ask :
    let s := (running [flight 0 none .prompt, flight 1 none (.dwell 9)] 2).modPanel .bay0 fun p =>
      { p with prompts := [⟨0, .ask, [], 0, none, .armed, none⟩] }
    ((after (.keyYes .bay0) s).bay .bay0).run.results.map (fun x => (x.index, x.outcome)) = [(0, .pass)] := by
  decide +kernel

theorem test_attemptEnd_32nd :
    let s := (inPhase .running).modNet .bay0 fun n => { n with
      state := .live, failures := 31, attempt := some ⟨0, 1, []⟩, queue := [⟨0, 1, [], false, false⟩] }
    ((after (.attemptEnd .bay0 .noAck) s).bay .bay0).net.state = .noPartner ∧
      ((after (.attemptEnd .bay0 .lostArb) s).bay .bay0).net.failures = 31 := by decide +kernel

theorem test_arbitrationLost_third :
    let s := onBus { lampWrite with losses := 2 } (inPhase .idle)
    (after .arbitrationLost s).bus.queue = [] ∧ ((after .arbitrationLost s).bay .bay0).status.lampFailed = true := by
  decide +kernel

theorem test_transactionBegin_wire :
    (after .transactionBegin (withBus fun u => { u with queue := [lampWrite] })).bus.wire = [0x42, 0x40, 0] := by decide +kernel

theorem test_conditionRecognized_retry :
    let s := (running [flight 0 none (.dwell 5)] 1).modSupply .bay0 fun p => { p with
      on := true, setup := { p.setup with modes := condSet p.setup.modes .overcurrent .retry }
      watches := condSet p.watches .overcurrent ⟨10, true, true⟩ }
    let t := after (.conditionRecognized .bay0 .overcurrent) s
    (t.bay .bay0).phase = .paused ∧ (t.bay .bay0).supply.retryCount = 1 ∧ (t.bay .bay0).supply.on = false := by
  decide +kernel

theorem test_stepEnd_dwell_left :
    let s := running [flight 0 none (.dwell 1), flight 1 none (.join none)] 2
    (after (.stepEnd .bay0 0 .done .none) s).bay .bay0 = s.bay .bay0 ∧
      (after (.stepEnd .bay0 1 .done .none) s).bay .bay0 = s.bay .bay0 := by decide +kernel

theorem test_keyAbort_off_time :
    let s := (withRun .paused fun r => { r with next := 1, inFlight := [flight 0 none .power] }).modSupply .bay0 fun p => { p with
      settle := some ⟨0, 3⟩, retry := .offTime 5, retryFault := some .overcurrent }
    ((after (.keyAbort .bay0) s).bay .bay0).supply.settle = none ∧
      ((after (.keyAbort .bay0) s).bay .bay0).supply.retryFault = none := by decide +kernel

theorem test_keyAbort_closing_block :
    let t := after (.keyAbort .bay0) (running [flight 0 none (.dwell 5)] 1)
    t.xu.stream.any fun i => match i with
      | .write (.bayStatus .bay0) _ d => byteAt d 0 = 7 && byteAt d 3 = 0xFF && byteAt d 4 = 0
      | _ => false := by decide +kernel

theorem test_sclHeld_25 :
    let s := withBus fun u => { u with state := .active, waitScl := some 0, scl := false }
    (after .sclHeld { s with rackTime := 24 }).bus.state = .active ∧
      (after .sclHeld { s with rackTime := 25 }).bus.state = .failed := by decide +kernel

theorem test_probeTimerExpiry_500 :
    let s := (inPhase .running).modNet .bay0 fun n => { n with state := .noPartner, probeTimer := some 0 }
    ((after (.probeTimerExpiry .bay0) { s with rackTime := 499 }).bay .bay0).net.probeTimer = some 0 ∧
      ((after (.probeTimerExpiry .bay0) { s with rackTime := 500 }).bay .bay0).net.probeTimer = some 500 := by decide +kernel

theorem test_writeError_before_any_write :
    (after (.writeError (.slot .bay0 false)) (inPhase .idle)).xu.merr.kind = .none ∧
      (after (.writeError (.slot .bay0 false))
        ((inPhase .idle).modXu fun x => { x with stream := [.write (.finished .bay0) 0x1000 [3, 0, 0, 0]] })).xu.merr.kind
          = .writeError := by decide +kernel

theorem test_pass_disregards_withdrawn :
    let s := (withBay fun y => { y with phase := .idle, xu := { y.xu with enabled := true, withdrawal := some ⟨.a, 1, someRead⟩ } }).modXu
      fun x => { x with run := true, pass := some ⟨.bayBlock .bay0, someRead, true, [], [], false, false⟩ }
    let t := after (.withdrawReadComplete .bay0 1 true) s
    t.xu.pass.map (fun p => (p.read, p.waits)) = some (.word .bay0 .b false, false) ∧
      ((after (.ownershipWordReadComplete 1) (after (.ownershipWordReadComplete 0) t)).bay .bay0).phase = .idle := by
  decide +kernel

theorem test_transactionEnd_refused_wire :
    let s := (onBus lampWrite (inPhase .idle)).modBus fun u => { u with wire := [0x42, 0x40, 0] }
    (after (.transactionEnd (some 0) [] false) s).bus.wire = [0x42] := by decide +kernel

/-- A run in CLOSING that waits for its last lamp write. -/
def handingBack : State :=
  (onBus lampWrite (withRun .closing fun r => { r with
    closing := .panel, verdict := some .pass, copy := { r.copy with header := some (headerOf 1) } })).modPanel
      .bay0 fun p => { p with lampWrite := some 0 }

theorem test_writeError_header_refused :
    let t := after (.transactionEnd none [] false) (after (.writeError (.handBack .bay0 .header)) handingBack)
    (t.bay .bay0).phase = .halted ∧ (t.bay .bay0).status.runLost = true ∧ (t.bay .bay0).status.finished = 0 ∧
      t.xu.merr.kind = .writeError ∧ t.xu.stream.all fun i => match i with
        | .write (.finished _) _ _ => false
        | _ => true := by decide +kernel

theorem test_writeError_finished_refused :
    let t := after (.transactionEnd none [] false) (after (.writeError (.handBack .bay0 .finished)) handingBack)
    (t.bay .bay0).phase = .halted ∧ (t.bay .bay0).supply.latched = 16 ∧ (t.bay .bay0).status.finished = 0 ∧
      (t.bay .bay0).status.lostLabel = 7 := by decide +kernel

theorem test_stepTimeout_decided_check :
    let c : CheckWork := ⟨10, 10, false, [freshProbe ⟨0, .hold, 0, 100, 10, 1, 1, 0, 0⟩]⟩
    let s := (stopping none (.dwell 5)).modRun .bay0 fun r => { r with
      inFlight := [flight 0 (some 0) (.check passedCheck), flight 1 none (.check c)]
      copy := { r.copy with header := (r.copy.header.map fun h => { h with stopOnFirstFail := false })
                            steps := [⟨false, false, false, 0, 0, .dwell 5⟩, ⟨false, true, false, 0, 0, .dwell 5⟩] } }
    ((after (.stepTimeout .bay0 0) s).bay .bay0).run.results.map (fun x => (x.index, x.outcome)) =
      [(0, .timedOut), (1, .noData), (2, .skipped)] := by decide +kernel

theorem test_lineChange_no_change :
    let s := { (withBus fun u => { u with state := .busyOther }) with rackTime := 30 }
    (after (.fixtureBusLineChange true true) s).bus.countsFrom = 0 ∧
      (after (.fixtureBusLineChange false true) s).bus.countsFrom = 30 := by decide +kernel

end Sys2Proof.Tests
end

/-! # What every operation keeps -/

namespace Sys2Proof.Machine

open Sys2Proof

/-! ## What every operation is made of

Every command of the part is a run of a few kinds of elementary change. `Move k b` are those that an operation of bay `b`
makes; `Moves` are runs of them. Whatever each kind keeps, every operation keeps. -/

/-- The items that only commands of their own change: BAYEN, the interlock level and the time (the boundary), the setup parts
(the end of LOADING), the tap values (a receipt), the sequence number last acted on (a request), and the registers. -/
inductive OwnItem where
  | enabled | lid | setup | values | seq | base | run | irqen | scanp | events | resetting
deriving DecidableEq

/-- A bay keeps the items that have a command of their own, but for those of `k`. -/
structure Keeps (k : Option OwnItem) (y z : BayState) : Prop where
  enabled : k ≠ some .enabled → z.xu.enabled = y.xu.enabled
  lidOpen : k ≠ some .lid → z.supply.lidOpen = y.supply.lidOpen
  stim : k ≠ some .setup → z.stim.setup = y.stim.setup
  net : k ≠ some .setup → z.net.setup = y.net.setup
  supply : k ≠ some .setup → z.supply.setup = y.supply.setup
  taps : k ≠ some .setup → ∀ i : Fin 8, z.net.taps[i].setup = y.net.taps[i].setup
  values : k ≠ some .setup → k ≠ some .values → ∀ i : Fin 8, z.net.taps[i].value = y.net.taps[i].value
  seq : k ≠ some .seq → z.xu.lastSeq = y.xu.lastSeq

theorem Keeps.refl (k : Option OwnItem) (y : BayState) : Keeps k y y :=
  ⟨fun _ => rfl, fun _ => rfl, fun _ => rfl, fun _ => rfl, fun _ => rfl, fun _ _ => rfl, fun _ _ _ => rfl,
    fun _ => rfl⟩

/-- The frequency inputs are none of those items. -/
theorem Keeps.refl_fi {k : Option OwnItem} {y : BayState} (fi : Vector FreqInput 2) : Keeps k y { y with fi := fi } :=
  ⟨fun _ => rfl, fun _ => rfl, fun _ => rfl, fun _ => rfl, fun _ => rfl, fun _ _ => rfl, fun _ _ _ => rfl,
    fun _ => rfl⟩

theorem Keeps.trans {k : Option OwnItem} {x y z : BayState} (h : Keeps k x y) (g : Keeps k y z) : Keeps k x z where
  enabled hk := (g.enabled hk).trans (h.enabled hk)
  lidOpen hk := (g.lidOpen hk).trans (h.lidOpen hk)
  stim hk := (g.stim hk).trans (h.stim hk)
  net hk := (g.net hk).trans (h.net hk)
  supply hk := (g.supply hk).trans (h.supply hk)
  taps hk i := (g.taps hk i).trans (h.taps hk i)
  values hs hv i := (g.values hs hv i).trans (h.values hs hv i)
  seq hk := (g.seq hk).trans (h.seq hk)

/-- One elementary change that an operation of a bay makes. -/
inductive Move (k : Option OwnItem) (b : Bay) (s : State) : State → Prop
  /-- A change of the bay. -/
  | bay (f : BayState → BayState) (h : Keeps k (s.bay b) (f (s.bay b))) : Move k b s (s.modBay b f)
  /-- A free value used. -/
  | free : Move k b s { s with freeIndex := s.freeIndex + 1 }
  /-- Entries joining or leaving the fixture bus queue and the held list. -/
  | queue (q h : List BusEntry) (n : RackTime) :
      Move k b s (s.modBus fun u => { u with queue := q, held := h, countsFrom := n })
  /-- A write of the exchange area. -/
  | write (kind : WriteKind) (o : Nat) (d : List Byte) : Move k b s (writeArea kind o d s)
  /-- An event. -/
  | event (n : Nat) (h : n < 10) : Move k b s (setEvent n s)
  /-- A memory error reported. -/
  | error (m : Merr) (h : m.interval = s.xu.merr.interval) : Move k b s (s.modXu fun x => { x with merr := m })

/-- A run of elementary changes of a bay. -/
abbrev Moves (k : Option OwnItem) (b : Bay) : State → State → Prop := Relation.ReflTransGen (Move k b)

section
variable {k : Option OwnItem} {b : Bay} {s : State}

theorem Move.moves {t : State} (h : Move k b s t) : Moves k b s t := .single h

/-! ### Changes of one block -/

theorem modBay_moves {f : BayState → BayState} (h : Keeps k (s.bay b) (f (s.bay b))) : Moves k b s (s.modBay b f) :=
  (Move.bay f h).moves

theorem modRun_moves (f : RunEngine → RunEngine) : Moves k b s (s.modRun b f) :=
  modBay_moves ⟨fun _ => rfl, fun _ => rfl, fun _ => rfl, fun _ => rfl, fun _ => rfl, fun _ _ => rfl, fun _ _ _ => rfl,
    fun _ => rfl⟩

theorem modPanel_moves (f : Panel → Panel) : Moves k b s (s.modPanel b f) :=
  modBay_moves ⟨fun _ => rfl, fun _ => rfl, fun _ => rfl, fun _ => rfl, fun _ => rfl, fun _ _ => rfl, fun _ _ _ => rfl,
    fun _ => rfl⟩

theorem modStatus_moves (f : BayStatus → BayStatus) : Moves k b s (s.modStatus b f) :=
  modBay_moves ⟨fun _ => rfl, fun _ => rfl, fun _ => rfl, fun _ => rfl, fun _ => rfl, fun _ _ => rfl, fun _ _ _ => rfl,
    fun _ => rfl⟩

theorem modInFlight_moves (i : Nat) (f : InFlight → InFlight) : Moves k b s (s.modInFlight b i f) := modRun_moves _

theorem modBayXu_moves {f : BayExchange → BayExchange} (h : (f (s.bay b).xu).enabled = (s.bay b).xu.enabled)
    (hq : (f (s.bay b).xu).lastSeq = (s.bay b).xu.lastSeq) : Moves k b s (s.modBayXu b f) :=
  modBay_moves ⟨fun _ => h, fun _ => rfl, fun _ => rfl, fun _ => rfl, fun _ => rfl, fun _ _ => rfl, fun _ _ _ => rfl,
    fun _ => hq⟩

theorem modStim_moves {f : Stimulus → Stimulus} (h : (f (s.bay b).stim).setup = (s.bay b).stim.setup) :
    Moves k b s (s.modStim b f) :=
  modBay_moves ⟨fun _ => rfl, fun _ => rfl, fun _ => h, fun _ => rfl, fun _ => rfl, fun _ _ => rfl, fun _ _ _ => rfl,
    fun _ => rfl⟩

theorem modSupply_moves {f : Supply → Supply} (hs : (f (s.bay b).supply).setup = (s.bay b).supply.setup)
    (hl : (f (s.bay b).supply).lidOpen = (s.bay b).supply.lidOpen) : Moves k b s (s.modSupply b f) :=
  modBay_moves ⟨fun _ => rfl, fun _ => hl, fun _ => rfl, fun _ => rfl, fun _ => hs, fun _ _ => rfl, fun _ _ _ => rfl,
    fun _ => rfl⟩

end

/-- A network keeps the SCHEDULE setup, and of every tap the setup and the value. -/
structure NetKeeps (n m : Network) : Prop where
  setup : m.setup = n.setup
  taps : ∀ i : Fin 8, m.taps[i].setup = n.taps[i].setup
  values : ∀ i : Fin 8, m.taps[i].value = n.taps[i].value

theorem NetKeeps.refl (n : Network) : NetKeeps n n := ⟨rfl, fun _ => rfl, fun _ => rfl⟩

theorem NetKeeps.trans {l m n : Network} (h : NetKeeps l m) (g : NetKeeps m n) : NetKeeps l n :=
  ⟨g.setup.trans h.setup, fun i => (g.taps i).trans (h.taps i), fun i => (g.values i).trans (h.values i)⟩

/-- A network whose setup and taps are left as they are. -/
theorem NetKeeps.of_eq {n m : Network} (hs : m.setup = n.setup) (ht : m.taps = n.taps) : NetKeeps n m :=
  ⟨hs, fun i => by rw [ht], fun i => by rw [ht]⟩

@[simp] theorem getElem_tabMap {α β : Type} {n : Nat} (f : Nat → α → β) (t : Vector α n) (i : Nat) (h : i < n) :
    (tabMap f t)[i] = f i t[i] := by
  simp [tabMap, Vector.getElem_mk]

@[simp] theorem getElem_tabSet_self {α : Type} {n : Nat} (t : Vector α n) (i : Fin n) (x : α) : (tabSet t i x)[i] = x := by
  simp [tabSet]

/-- A table with one place replaced, at any place. -/
theorem getElem_tabSet {α : Type} {n : Nat} (t : Vector α n) (i j : Fin n) (x : α) :
    (tabSet t i x)[j] = if i = j then x else t[j] := by
  simp [tabSet, Vector.getElem_set, Fin.ext_iff]

theorem modNet_moves {k : Option OwnItem} {b : Bay} {s : State} {f : Network → Network}
    (h : NetKeeps (s.bay b).net (f (s.bay b).net)) : Moves k b s (s.modNet b f) :=
  modBay_moves ⟨fun _ => rfl, fun _ => rfl, fun _ => rfl, fun _ => h.setup, fun _ => rfl, fun _ => h.taps,
    fun _ _ => h.values, fun _ => rfl⟩

end Sys2Proof.Machine

namespace Sys2Proof.Machine

open Sys2Proof

/-! ## The way through CLOSING in named stages -/

/-- The run handed back, unless it is lost (R23). -/
def handBackUnlessLost (b : Bay) (s : State) : State := if (s.bay b).run.lost then s else handBack b s

/-- The slot that was held is free, and the other one is the next (R12, R47). -/
def slotFreed (b : Bay) (held : Option Slot) (s : State) : State :=
  s.modBay b fun y =>
    { y with
      xu := { y.xu with next := (match held with | some x => otherSlot x | none => y.xu.next), refused := none }
      run := { y.run with slot := none, closing := .none, inFlight := [], claims := Vector.replicate 14 none } }

/-- The bay state that follows CLOSING (R47). -/
def leaveClosing (b : Bay) (s : State) : State :=
  if !(s.bay b).xu.enabled then goOffline b s
  else if (s.bay b).supply.latched ≠ 0 then goHalted b s
  else readBackToBack b (setPhase b .idle s)

/-- The end of CLOSING in its stages. -/
theorem closingEnd_eq (b : Bay) (s : State) : closingEnd b s =
    pollKeys b (leaveClosing b (slotFreed b ((forAll allConditions (settlePending b) s).bay b).run.slot
      (handBackUnlessLost b (forAll allConditions (settlePending b) s)))) := by
  simp only [closingEnd, slotFreed]
  rfl

/-- The lamp write of a verdict requested (R212). -/
def verdictLampWanted (b : Bay) (v : Option Verdict) (s : State) : State :=
  match v with
  | some v => wantLamp b (verdictLamp v) s
  | none => s

/-- The verdict text requested, when one is called for (R212). -/
def verdictTextWanted (b : Bay) (text : Option (List Byte)) (s : State) : State :=
  match text with
  | none => s
  | some bytes =>
    match busRequest (displayEntry b .verdictText bytes) s with
    | some t => t.modPanel b fun p => { p with display := some .verdictText }
    | none => flagLampFailed b s

/-- The verdict display in its stages. -/
theorem closingPanel_eq (b : Bay) (s : State) : closingPanel b s =
    closingPanelDone b (verdictTextWanted b (verdictText (s.bay b).run)
      (verdictLampWanted b (s.bay b).run.verdict (s.modRun b fun r => { r with closing := .panel }))) :=
  rfl

/-- The bay's own blocks at the entry to CLOSING. -/
def bayAtClosing (b : Bay) (verdict : Verdict) (cause : EndCause) (offending : Nat) (ended : List StepResult)
    (s : State) : State :=
  s.modBay b fun y =>
    { y with
      run := runAtClosing verdict cause offending (closingResults ended (s.bay b).run) s.rackTime (ownerOnBus s.bus b) y.run
      stim := { y.stim with actions := Vector.replicate 14 none, stopped := stoppedAtClosing y }
      panel := panelAtClosing (ownerOnBus s.bus b) y.panel
      supply := supplyAtClosing y.phase y.supply }

/-- The bay after the entry to CLOSING, before its results are handed over: safe, and its bus entries gone. -/
def closingEntered (b : Bay) (s : State) : State :=
  setPhase b .closing (removeEntries b (fun _ => true) (enterSafe b (switchOff b false s)))

/-- The entry to CLOSING in its stages. -/
theorem enterClosing_eq (b : Bay) (verdict : Verdict) (cause : EndCause) (offending : Nat) (ended : List StepResult)
    (s : State) : enterClosing b verdict cause offending ended s =
    closingBus b (recordsRefused b (closingResults ended (s.bay b).run) (handOver b (closingResults ended (s.bay b).run)
      (closingEntered b (bayAtClosing b verdict cause offending ended s)))) :=
  rfl

/-! ## The operations of a bay, each a run of elementary changes -/

section
variable {k : Option OwnItem} {b : Bay} {s : State}

/-! ### Shared operations -/

theorem ite_moves {c : Prop} [Decidable c] {t u : State} (ht : c → Moves k b s t) (hu : ¬c → Moves k b s u) :
    Moves k b s (if c then t else u) := by
  split
  · exact ht ‹_›
  · exact hu ‹_›

theorem whenever_moves {c : Bool} {f : State → State} (h : c = true → Moves k b s (f s)) :
    Moves k b s (whenever c f s) :=
  ite_moves h fun _ => .refl

theorem forAll_moves {α : Type} {xs : List α} {f : α → State → State} (h : ∀ x t, Moves k b t (f x t)) :
    Moves k b s (forAll xs f s) :=
  forAll_keeps (P := fun t => Moves k b s t) xs f s .refl fun x _ t ht => ht.trans (h x t)

theorem writeArea_moves (kind : WriteKind) (o : Nat) (d : List Byte) : Moves k b s (writeArea kind o d s) :=
  (Move.write kind o d).moves

theorem setEvent_moves {n : Nat} (h : n < 10) : Moves k b s (setEvent n s) := (Move.event n h).moves

theorem doneBit_lt (b : Bay) : doneBit b < 10 := by cases b <;> decide

theorem alertBit_lt (b : Bay) : alertBit b < 10 := by cases b <;> decide

theorem recordError_moves (kind : ErrorKind) (o : Option Bay) : Moves k b s (recordError kind o s) := by
  refine .trans ?_ (setEvent_moves (by decide))
  refine (Move.error (if s.xu.merr.kind = .none then { s.xu.merr with kind := kind, bay := o }
    else { s.xu.merr with multi := true }) ?_).moves
  split <;> rfl

theorem triggerBay_moves : Moves k b s (triggerBay b s) := by
  unfold triggerBay
  split
  · exact (modBayXu_moves rfl rfl).trans (writeArea_moves ..)
  · exact modBayXu_moves rfl rfl
  · exact .refl

theorem setPhase_moves (p : Phase) : Moves k b s (setPhase b p s) :=
  (modBay_moves ⟨fun _ => rfl, fun _ => rfl, fun _ => rfl, fun _ => rfl, fun _ => rfl, fun _ _ => rfl,
    fun _ _ _ => rfl, fun _ => rfl⟩).trans triggerBay_moves

theorem setWaiting_moves (w : Option Slot) : Moves k b s (setWaiting b w s) :=
  ite_moves (fun _ => .refl) fun _ => (modBayXu_moves rfl rfl).trans triggerBay_moves

theorem addLatched_moves (f : FaultSet) : Moves k b s (addLatched b f s) :=
  ite_moves (fun _ => .refl) fun _ => (modSupply_moves rfl rfl).trans triggerBay_moves

theorem clearLatched_moves : Moves k b s (clearLatched b s) :=
  ite_moves (fun _ => .refl) fun _ => (modSupply_moves rfl rfl).trans triggerBay_moves

theorem addReported_moves (f : FaultSet) : Moves k b s (addReported b f s) :=
  ite_moves (fun _ => .refl) fun _ => (modSupply_moves rfl rfl).trans triggerBay_moves

theorem echoBay_moves (seq : Word16) (r : EchoResult) : Moves k b s (echoBay b seq r s) :=
  (modStatus_moves _).trans triggerBay_moves

/-- The end of a bay's status block write. -/
theorem statusWriteEnd_moves : Moves k b s (statusWriteEnd (some b) s) := by
  simp only [statusWriteEnd]
  split
  · exact .refl
  · exact modBayXu_moves rfl rfl
  · exact (modBayXu_moves rfl rfl).trans (writeArea_moves ..)

/-- A request that does not end at once changes only the queue, the held list and the counts. -/
theorem busRequest_moves {e : BusEntry} {t : State} (h : busRequest e s = some t) : Moves k b s t := by
  unfold busRequest at h
  split at h
  · cases h
  · split at h <;> cases h
    · exact (Move.queue (s.bus.queue ++ [e]) s.bus.held (countsAtRequest s.rackTime s.bus)).moves
    · exact (Move.queue s.bus.queue (s.bus.held ++ [e]) s.bus.countsFrom).moves

theorem serveHeld_moves : Moves k b s (serveHeld s) :=
  (Move.queue (admitLoop s.bus.held.length s.bus.queue s.bus.held).1
    (admitLoop s.bus.held.length s.bus.queue s.bus.held).2 s.bus.countsFrom).moves

theorem removeEntries_moves (test : BusEntry → Bool) : Moves k b s (removeEntries b test s) := by
  simp only [removeEntries]
  refine ite_moves (fun _ => ?_) fun _ => .refl
  exact (Move.queue _ _ s.bus.countsFrom).moves.trans (serveHeld_moves.trans triggerBay_moves)

/-! ### The stimulus unit -/

theorem flagClamped_moves (c : Fin 14) : Moves k b s (flagClamped b c s) := by
  unfold flagClamped
  split
  · exact .refl
  · exact (modStim_moves rfl).trans (modInFlight_moves _ _)

theorem computeFrequency_moves (i : Fin 2) : Moves k b s (computeFrequency b i s) := by
  have h {r} : Moves k b s (s.modStim b fun u => { u with frequency := tabSet u.frequency i r }) := modStim_moves rfl
  exact ite_moves (fun _ => h.trans (flagClamped_moves _)) fun _ => h

@[simp] theorem startGenerator_setup (u : Stimulus) (i : Fin 2) : (startGenerator u i).setup = u.setup := by
  unfold startGenerator
  split <;> rfl

theorem setLevel_moves (i : Fin 4) : Moves k b s (setLevel b i s) := by
  simp only [setLevel]
  split
  · exact modStim_moves rfl
  · split
    · exact modStim_moves rfl
    · exact modStim_moves rfl
    · exact ite_moves (fun _ => .trans (modStim_moves rfl) (flagClamped_moves _)) fun _ => modStim_moves rfl

/-- A change of a list of places of the stimulus unit keeps the setup that each keeps. -/
theorem foldl_setup {α : Type} (f : Stimulus → α → Stimulus) (h : ∀ u x, (f u x).setup = u.setup) (xs : List α)
    (u : Stimulus) : (xs.foldl f u).setup = u.setup := by
  induction xs generalizing u with
  | nil => rfl
  | cons x rest ih => exact (ih (f u x)).trans (h u x)

theorem convertAll_moves : Moves k b s (convertAll b s) :=
  (forAll_moves fun _ _ => computeFrequency_moves _).trans
    ((modStim_moves (foldl_setup _ startGenerator_setup _ _)).trans (forAll_moves fun _ _ => setLevel_moves _))

theorem stimUnsafe_moves : Moves k b s (stimUnsafe b s) :=
  .trans (modStim_moves rfl) (forAll_moves fun _ _ => setLevel_moves _)

@[simp] theorem setForm_setup (c : Fin 14) (kind : ActKind) (u : Stimulus) : (setForm c kind u).setup = u.setup := by
  unfold setForm
  split
  · rfl
  · split <;> rfl

@[simp] theorem advanceChannel_setup (u : Stimulus) (c : Fin 14) : (advanceChannel u c).setup = u.setup := by
  unfold advanceChannel
  split
  · rfl
  · split <;> rfl

@[simp] theorem handChannel_setup (here : Handed → Bool) (u : Stimulus) (c : Fin 14) :
    (handChannel here u c).setup = u.setup := by
  rcases handChannel_cases here u c with h | ⟨a, v, -, -, h⟩ <;> rw [h]

@[simp] theorem advanceAll_setup (atStart : Nat → Bool) (here : Handed → Bool) (u : Stimulus) :
    (advanceAll atStart here u).setup = u.setup := by
  refine foldl_setup _ (fun v c => ?_) _ _
  split
  · rfl
  · split <;> simp

@[simp] theorem handStopped_setup (here : Handed → Bool) (u : Stimulus) : (handStopped here u).setup = u.setup := by
  refine foldl_setup _ (fun v c => ?_) _ _
  split <;> rfl

@[simp] theorem endPeriod_setup (u : Stimulus) (i : Fin 2) : (endPeriod u i).setup = u.setup := by
  unfold endPeriod
  split
  · rfl
  · split <;> rfl

/-! ### The network emulator -/

/-- Taps made STALE keep their setups and values. -/
theorem staleTaps_keeps {n m : Network} (hs : m.setup = n.setup) (ht : m.taps = staleTaps n.taps) : NetKeeps n m :=
  ⟨hs, fun i => by simp [ht, staleTaps], fun i => by simp [ht, staleTaps]⟩

theorem netStopped_keeps (n : Network) : NetKeeps n (netStopped n) := staleTaps_keeps rfl rfl

theorem netLive_keeps (now : RackTime) (n : Network) : NetKeeps n (netLive now n) := .of_eq rfl rfl

theorem changeNet_moves {f : Network → Network} (h : NetKeeps (s.bay b).net (f (s.bay b).net)) :
    Moves k b s (changeNet b f s) :=
  ite_moves (fun _ => modNet_moves h) fun _ => (modNet_moves h).trans triggerBay_moves

theorem flagPacked_moves (e : Fin 16) : Moves k b s (flagPacked b e s) :=
  forAll_moves fun _ _ => ite_moves (fun _ => flagClamped_moves _) fun _ => .refl

theorem buildFrame_moves (e : Fin 16) (probe : Bool) : Moves k b s (buildFrame b e probe s).2 := by
  simp only [buildFrame]
  exact (flagPacked_moves e).trans (modNet_moves (.of_eq rfl rfl))

theorem offerFrame_keeps (f : QFrame) (n : Network) : NetKeeps n (offerFrame f n) := by
  unfold offerFrame
  split
  · exact .of_eq rfl rfl
  · split <;> exact .of_eq rfl rfl

theorem releaseEntry_moves (e : Fin 16) : Moves k b s (releaseEntry b e s) := by
  have h1 : Moves k b s (s.modNet b fun n => { n with work := tabSet n.work e { n.work[e] with due := false } }) :=
    modNet_moves (.of_eq rfl rfl)
  refine ite_moves (fun _ => h1.trans ?_) fun _ => h1
  refine ite_moves (fun _ => ?_) fun _ => buildFrame_moves _ _
  exact (buildFrame_moves _ _).trans (modNet_moves (offerFrame_keeps _ _))

theorem countReleases_keeps (n : Network) : NetKeeps n (countReleases n) := .of_eq rfl rfl

theorem startAttempt_keeps (n : Network) : NetKeeps n (startAttempt n) := by
  unfold startAttempt
  split
  · exact .refl n
  · exact .refl n
  · split
    · exact .refl n
    · exact .of_eq rfl rfl

theorem attemptCount_keeps (now : RackTime) (probe : Bool) (o : AttemptOutcome) (n : Network) :
    NetKeeps n (attemptCount now probe o n) := by
  unfold attemptCount
  split
  · split <;> exact .of_eq rfl rfl
  · exact .of_eq rfl rfl
  · exact .refl n
  · split <;> exact .of_eq rfl rfl
  · exact .refl n

theorem endAttempt_keeps (now : RackTime) (o : AttemptOutcome) (n : Network) : NetKeeps n (endAttempt now o n) := by
  simp only [endAttempt]
  split
  · exact .refl n
  · split
    · exact NetKeeps.trans (m := { n with attempt := none }) (.of_eq rfl rfl) (attemptCount_keeps ..)
    · exact NetKeeps.trans (m := { n with attempt := none, queue := _ }) (.of_eq rfl rfl) (attemptCount_keeps ..)

theorem makeProbe_moves : Moves k b s (makeProbe b s) := by
  simp only [makeProbe]
  split
  · exact (buildFrame_moves _ _).trans (modNet_moves (.of_eq rfl rfl))
  · exact .refl

theorem probeExpiry_moves : Moves k b s (probeExpiry b s) := by
  unfold probeExpiry
  split
  · exact .refl
  · exact .trans (modNet_moves (.of_eq rfl rfl)) makeProbe_moves

theorem dropWaiting_keeps (e : Fin 16) (n : Network) : NetKeeps n (dropWaiting e n) := by
  unfold dropWaiting
  split
  · exact .refl n
  · exact .of_eq rfl rfl

theorem frameAction_keeps (now : RackTime) (e : Fin 16) (act : FrameAction) (n : Network) :
    NetKeeps n (frameAction now e act n) := by
  simp only [frameAction]
  split
  · split
    · exact .refl n
    · exact .of_eq rfl rfl
  · split
    · exact NetKeeps.trans (m := { n with work := tabSet n.work e _ }) (.of_eq rfl rfl) (dropWaiting_keeps ..)
    · exact .refl n
  · exact .of_eq rfl rfl
  · split
    · exact NetKeeps.trans (m := { n with work := tabSet n.work e _ }) (.of_eq rfl rfl) (dropWaiting_keeps ..)
    · exact .of_eq rfl rfl

theorem staleTap_keeps (i : Fin 8) (n : Network) : NetKeeps n (staleTap i n) := by
  refine ⟨rfl, fun j => ?_, fun j => ?_⟩ <;> simp only [staleTap, getElem_tabSet] <;> split <;> simp_all

theorem staleOverdue_keeps (now : RackTime) (n : Network) : NetKeeps n (staleOverdue now n) := by
  refine ⟨rfl, fun j => ?_, fun j => ?_⟩ <;> simp only [staleOverdue, Fin.getElem_fin, getElem_tabMap] <;> split <;> rfl

/-! ### The supply monitor -/

theorem enterSafe_moves : Moves k b s (enterSafe b s) :=
  .trans (modStim_moves rfl) (changeNet_moves (netStopped_keeps _))

theorem endSafe_moves : Moves k b s (endSafe b s) :=
  stimUnsafe_moves.trans (changeNet_moves (netLive_keeps _ _))

theorem switchOff_moves (keep : Bool) : Moves k b s (switchOff b keep s) :=
  ite_moves (fun _ => .trans (modSupply_moves rfl rfl) enterSafe_moves) fun _ => .refl

/-! ### CLOSING -/

theorem writeResult_moves (x : StepResult) : Moves k b s (writeResult b x s) :=
  ite_moves (fun _ => .refl) fun _ => writeArea_moves ..

theorem flagLampFailed_moves : Moves k b s (flagLampFailed b s) := modStatus_moves _

theorem wantLamp_moves (lamps : Byte) : Moves k b s (wantLamp b lamps s) := by
  unfold wantLamp
  split
  · exact modPanel_moves _
  · split
    · exact (busRequest_moves ‹_›).trans (modPanel_moves _)
    · exact flagLampFailed_moves

theorem lampOver_moves : Moves k b s (lampOver b s) := by
  simp only [lampOver]
  split
  · exact modPanel_moves _
  · exact (modPanel_moves _).trans (wantLamp_moves _)

theorem pollKeys_moves : Moves k b s (pollKeys b s) := by
  refine ite_moves (fun _ => ?_) fun _ => .refl
  split
  · exact (busRequest_moves ‹_›).trans (modPanel_moves _)
  · exact modPanel_moves _

theorem loseRun_moves : Moves k b s (loseRun b s) := by
  refine ite_moves (fun _ => .refl) fun _ => ?_
  refine .trans ?_ triggerBay_moves
  exact (modBay_moves (f := fun y => { y with
      run := { y.run with lost := true }
      status := { y.status with runLost := true, lostLabel := lostLabelOf y.run (Config.freeWord s.freeIndex) } })
    ⟨fun _ => rfl, fun _ => rfl, fun _ => rfl, fun _ => rfl, fun _ => rfl, fun _ _ => rfl, fun _ _ _ => rfl,
    fun _ => rfl⟩).trans
    Move.free.moves

theorem handBackFails_moves : Moves k b s (handBackFails b s) :=
  (recordError_moves _ _).trans (loseRun_moves.trans (addLatched_moves _))

theorem writeFinished_moves : Moves k b s (writeFinished b s) :=
  ite_moves (fun _ => (writeArea_moves ..).trans (setEvent_moves (doneBit_lt b))) fun _ => writeArea_moves ..

theorem countRun_moves : Moves k b s (countRun b s) := by
  unfold countRun
  exact modStatus_moves _

theorem handBack_moves : Moves k b s (handBack b s) := by
  simp only [handBack]
  split
  · exact (writeArea_moves ..).trans handBackFails_moves
  · exact (writeArea_moves ..).trans (writeFinished_moves.trans handBackFails_moves)
  · exact (writeArea_moves ..).trans (writeFinished_moves.trans countRun_moves)
  · exact (writeArea_moves ..).trans (writeFinished_moves.trans countRun_moves)

theorem settlePending_moves (c : Condition) : Moves k b s (settlePending b c s) := by
  simp only [settlePending]
  split
  · refine .trans (b := s.modSupply b fun p =>
      { p with watches := condSet p.watches c { condGet p.watches c with pending := false } })
      (modSupply_moves rfl rfl) ?_
    split
    · exact addLatched_moves _
    · exact addLatched_moves _
    · exact addReported_moves _
    · exact .refl
  · exact .refl

theorem goOffline_moves : Moves k b s (goOffline b s) := clearLatched_moves.trans (setPhase_moves _)

theorem goHalted_moves : Moves k b s (goHalted b s) := (setPhase_moves _).trans (setEvent_moves (alertBit_lt b))

theorem readBackToBack_moves : Moves k b s (readBackToBack b s) :=
  ite_moves (fun _ => modBayXu_moves rfl rfl) fun _ => .refl

theorem handBackUnlessLost_moves : Moves k b s (handBackUnlessLost b s) :=
  ite_moves (fun _ => .refl) fun _ => handBack_moves

theorem slotFreed_moves (held : Option Slot) : Moves k b s (slotFreed b held s) :=
  modBay_moves ⟨fun _ => rfl, fun _ => rfl, fun _ => rfl, fun _ => rfl, fun _ => rfl, fun _ _ => rfl, fun _ _ _ => rfl,
    fun _ => rfl⟩

theorem leaveClosing_moves : Moves k b s (leaveClosing b s) :=
  ite_moves (fun _ => goOffline_moves) fun _ => ite_moves (fun _ => goHalted_moves) fun _ =>
    (setPhase_moves _).trans readBackToBack_moves

theorem closingEnd_moves : Moves k b s (closingEnd b s) := by
  rw [closingEnd_eq]
  exact (forAll_moves fun _ _ => settlePending_moves _).trans (handBackUnlessLost_moves.trans
    ((slotFreed_moves _).trans (leaveClosing_moves.trans pollKeys_moves)))

theorem closingPanelDone_moves : Moves k b s (closingPanelDone b s) :=
  ite_moves (fun _ => closingEnd_moves) fun _ => .refl

theorem verdictLampWanted_moves (v : Option Verdict) : Moves k b s (verdictLampWanted b v s) := by
  unfold verdictLampWanted
  split
  · exact wantLamp_moves _
  · exact .refl

theorem verdictTextWanted_moves (text : Option (List Byte)) : Moves k b s (verdictTextWanted b text s) := by
  unfold verdictTextWanted
  split
  · exact .refl
  · split
    · exact (busRequest_moves ‹_›).trans (modPanel_moves _)
    · exact flagLampFailed_moves

theorem closingPanel_moves : Moves k b s (closingPanel b s) := by
  rw [closingPanel_eq]
  exact (modRun_moves _).trans ((verdictLampWanted_moves _).trans ((verdictTextWanted_moves _).trans
    closingPanelDone_moves))

theorem cycleEnded_moves (o : BusOutcome) : Moves k b s (cycleEnded b o s) := by
  simp only [cycleEnded]
  split
  · exact (modRun_moves _).trans ((modStatus_moves _).trans closingPanel_moves)
  · exact (modStatus_moves _).trans closingPanel_moves

theorem closingCycle_moves : Moves k b s (closingCycle b s) := by
  refine ite_moves (fun _ => ?_) fun _ => closingPanel_moves
  split
  · exact (busRequest_moves ‹_›).trans (modRun_moves _)
  · exact cycleEnded_moves _

theorem closingBus_moves : Moves k b s (closingBus b s) :=
  ite_moves (fun _ => modRun_moves _) fun _ => closingCycle_moves

theorem handOver_moves (results : List StepResult) : Moves k b s (handOver b results s) :=
  forAll_moves fun _ _ => (writeResult_moves _).trans triggerBay_moves

theorem recordsRefused_moves (results : List StepResult) : Moves k b s (recordsRefused b results s) :=
  ite_moves (fun _ => handBackFails_moves) fun _ => .refl

theorem bayAtClosing_moves (verdict : Verdict) (cause : EndCause) (offending : Nat) (ended : List StepResult) :
    Moves k b s (bayAtClosing b verdict cause offending ended s) :=
  modBay_moves ⟨fun _ => rfl, fun _ => rfl, fun _ => rfl, fun _ => rfl, fun _ => rfl, fun _ _ => rfl, fun _ _ _ => rfl,
    fun _ => rfl⟩

theorem enterClosing_moves (verdict : Verdict) (cause : EndCause) (offending : Nat) (ended : List StepResult) :
    Moves k b s (enterClosing b verdict cause offending ended s) := by
  rw [enterClosing_eq]
  exact (bayAtClosing_moves ..).trans ((switchOff_moves _).trans (enterSafe_moves.trans ((removeEntries_moves _).trans
    ((setPhase_moves _).trans ((handOver_moves _).trans ((recordsRefused_moves _).trans closingBus_moves))))))

theorem closingRelease_moves : Moves k b s (closingRelease b s) :=
  ite_moves (fun _ => closingCycle_moves) fun _ => .refl

/-! ### The ends of steps -/

theorem dropPrompt_moves (i : Nat) : Moves k b s (dropPrompt b i s) := by
  refine .trans (modPanel_moves fun p => { p with prompts := p.prompts.filter fun q => q.step ≠ i }) ?_
  exact ite_moves (fun _ => (modPanel_moves _).trans (removeEntries_moves _)) fun _ => .refl

@[simp] theorem dropSettle_setup (i : Nat) (p : Supply) : (dropSettle i p).setup = p.setup := by
  unfold dropSettle
  split
  · split <;> rfl
  · rfl

@[simp] theorem dropSettle_lidOpen (i : Nat) (p : Supply) : (dropSettle i p).lidOpen = p.lidOpen := by
  unfold dropSettle
  split
  · split <;> rfl
  · rfl

theorem stopBlock_moves (e : InFlight) : Moves k b s (stopBlock b e s) := by
  unfold stopBlock
  split
  · exact .trans (modStim_moves rfl) (modRun_moves _)
  · exact dropPrompt_moves _
  · exact removeEntries_moves _
  · exact modSupply_moves (dropSettle_setup ..) (dropSettle_lidOpen ..)
  all_goals exact .refl

theorem stopRun_moves (i : Nat) : Moves k b s (stopRun b i s) := enterClosing_moves ..

theorem leaveTable_moves (x : StepResult) : Moves k b s (leaveTable b x s) := by
  unfold leaveTable addResult
  exact (modRun_moves _).trans (modRun_moves _)

theorem endStep_moves (i : Nat) (o : StepOutcome) (d : Detail) : Moves k b s (endStep b i o d s) := by
  simp only [endStep]
  split
  · exact .refl
  · next e _ =>
    have hEnd : Moves k b s (triggerBay b (writeResult b (resultOf e o d s.rackTime)
        (leaveTable b (resultOf e o d s.rackTime) s))) :=
      (leaveTable_moves _).trans ((writeResult_moves _).trans triggerBay_moves)
    exact ite_moves (fun _ => hEnd.trans (stopRun_moves _)) fun _ => hEnd

theorem joinTest_moves : Moves k b s (joinTest b s) := by
  unfold joinTest
  split
  · exact endStep_moves ..
  · exact .refl

/-! ### The display -/

theorem requestFixed_moves (t : FixedText) : Moves k b s (requestFixed b t s) := by
  unfold requestFixed
  split
  · exact (busRequest_moves ‹_›).trans (modPanel_moves _)
  · exact .refl

theorem wantText_moves (t : FixedText) : Moves k b s (wantText b t s) :=
  ite_moves (fun _ => requestFixed_moves _) fun _ => modPanel_moves _

theorem pumpPrompts_moves (n : Nat) : Moves k b s (pumpPrompts b n s) := by
  induction n generalizing s with
  | zero => exact .refl
  | succ n ih =>
    unfold pumpPrompts
    split
    · exact .refl
    · split
      · exact (busRequest_moves ‹_›).trans (modPanel_moves _)
      · exact ite_moves (fun _ => .refl) fun _ =>
          (modPanel_moves _).trans ((endStep_moves ..).trans (joinTest_moves.trans ih))

theorem pumpText_moves : Moves k b s (pumpText b s) := by
  unfold pumpText
  split
  · exact (modPanel_moves _).trans (requestFixed_moves _)
  · exact .refl

theorem pumpDisplay_moves : Moves k b s (pumpDisplay b s) := pumpText_moves.trans (pumpPrompts_moves _)

end

end Sys2Proof.Machine

namespace Sys2Proof.Machine

open Sys2Proof

section
variable {k : Option OwnItem} {b : Bay} {s : State}

/-! ### The walker -/

theorem endAction_moves (c : Fin 14) (reached : Bool) : Moves k b s (endAction b c reached s) := by
  unfold endAction
  split
  · exact .refl
  · exact .trans (modStim_moves rfl) ((modRun_moves _).trans (modInFlight_moves _ _))

/-- The action that a claim takes from its channel ends. -/
def olderEnded (b : Bay) (c : Fin 14) (s : State) : State :=
  match (s.bay b).stim.actions[c] with
  | some old => endAction b c old.reached s
  | none => s

/-- The start of an action on a channel that no action drives any more. -/
def actionStarted (b : Bay) (i : Nat) (a : DriveAction) (x : Action) (s : State) : State :=
  let s2 := s.modStim b (setForm a.channel a.kind)
  let s3 := if x.clamped then
      s2.modInFlight b i fun e => { e with clamped := e.clamped ||| BitVec.ofNat 4 (2 ^ a.position) }
    else s2
  if endsAtStart x then
    s3.modInFlight b i fun e => finishAction a.position true { e with early := e.early || !x.older.isEmpty }
  else
    (s3.modStim b fun u => { u with actions := tabSet u.actions a.channel (some x) }).modRun b fun r =>
      { r with claims := tabSet r.claims a.channel (some (i, a.position)) }

/-- The start of an action in its stages. -/
theorem startAction_eq (b : Bay) (i : Nat) (a : DriveAction) (s : State) : startAction b i a s =
    actionStarted b i a { makeAction i a ((olderEnded b a.channel s).bay b).stim with
      older := handedOver (s.bay b) a.channel } (olderEnded b a.channel s) :=
  rfl

theorem olderEnded_moves (c : Fin 14) : Moves k b s (olderEnded b c s) := by
  unfold olderEnded
  split
  · exact endAction_moves _ _
  · exact .refl

theorem actionStarted_moves (i : Nat) (a : DriveAction) (x : Action) : Moves k b s (actionStarted b i a x s) := by
  simp only [actionStarted]
  have hForm : Moves k b s (s.modStim b (setForm a.channel a.kind)) := modStim_moves (setForm_setup ..)
  have hFlag {t : State} (ht : Moves k b s t) {f : InFlight → InFlight} :
      Moves k b s (if x.clamped then t.modInFlight b i f else t) :=
    ite_moves (fun _ => ht.trans (modInFlight_moves _ _)) fun _ => ht
  split
  · exact (hFlag hForm).trans (modInFlight_moves _ _)
  · exact (hFlag hForm).trans (.trans (modStim_moves rfl) (modRun_moves _))

theorem startAction_moves (i : Nat) (a : DriveAction) : Moves k b s (startAction b i a s) := by
  rw [startAction_eq]
  exact (olderEnded_moves _).trans (actionStarted_moves ..)

theorem endDrive_moves (i : Nat) : Moves k b s (endDrive b i s) := by
  unfold endDrive
  split
  · exact endStep_moves ..
  · exact endStep_moves ..
  · exact .refl

theorem startDrive_moves (i : Nat) (actions : List DriveAction) (on off : BitVec 16) :
    Moves k b s (startDrive b i actions on off s) :=
  (forAll_moves fun a _ => startAction_moves i a).trans
    (.trans (modStim_moves rfl) (forAll_moves fun i _ => endDrive_moves i))

theorem startPrompt_moves (i : Nat) (text : List Byte) (form : PromptForm) (timeout : Nat) :
    Moves k b s (startPrompt b i text form timeout s) :=
  (modPanel_moves _).trans pumpDisplay_moves

theorem startFrame_moves (i : Nat) (e : Fin 16) (act : FrameAction) : Moves k b s (startFrame b i e act s) :=
  (ite_moves (fun _ => modNet_moves (frameAction_keeps ..)) fun _ => .refl).trans (endStep_moves ..)

theorem startFixture_moves (i : Nat) (m : Fin 16) (write : Bool) (index : Byte) (data : List Byte) :
    Moves k b s (startFixture b i m write index data s) := by
  simp only [startFixture]
  split
  · exact busRequest_moves ‹_›
  · exact ite_moves (fun _ => .refl) fun _ => endStep_moves ..

theorem startPower_moves (i : Nat) (on : Bool) (setting : Nat) : Moves k b s (startPower b i on setting s) := by
  have hOn : Moves k b s (s.modSupply b (powerOn i setting)) := modSupply_moves rfl rfl
  exact ite_moves (fun _ => ite_moves (fun _ => hOn.trans endSafe_moves) fun _ => hOn) fun _ =>
    (switchOff_moves _).trans (endStep_moves ..)

theorem startBody_moves (i : Nat) (body : StepBody) : Moves k b s (startBody b i body s) := by
  unfold startBody
  split
  · exact startDrive_moves ..
  · exact .refl
  · exact .refl
  · exact startPrompt_moves ..
  · exact startFrame_moves ..
  · exact startFixture_moves ..
  · exact startPower_moves ..
  · exact joinTest_moves

theorem startStep_moves : Moves k b s (startStep b s) := by
  simp only [startStep]
  split
  · exact modRun_moves _
  · exact (modRun_moves _).trans ((modRun_moves _).trans (startBody_moves ..))

theorem runEnd_moves : Moves k b s (runEnd b s) :=
  ite_moves (fun _ => enterClosing_moves ..) fun _ => .refl

theorem walkSteps_moves (n : Nat) : Moves k b s (walkSteps b n s) := by
  induction n generalizing s with
  | zero => exact runEnd_moves
  | succ n ih => exact ite_moves (fun _ => startStep_moves.trans ih) fun _ => runEnd_moves

theorem walk_moves : Moves k b s (walk b s) := walkSteps_moves _

theorem afterPrompts_moves (n : Nat) : Moves k b s (afterPrompts b n s) := by
  induction n generalizing s with
  | zero => exact pumpDisplay_moves.trans walk_moves
  | succ n ih =>
    simp only [afterPrompts]
    split
    · exact pumpDisplay_moves.trans walk_moves
    · split
      · exact walk_moves
      · exact walk_moves.trans ((modPanel_moves _).trans ((endStep_moves ..).trans (joinTest_moves.trans ih)))

theorem failHeld_moves : Moves k b s (failHeld b s) := by
  unfold failHeld
  split
  · exact .refl
  · exact ite_moves (fun _ => .refl) fun _ => endStep_moves ..

theorem afterEnds_moves : Moves k b s (afterEnds b s) :=
  joinTest_moves.trans (pumpText_moves.trans ((afterPrompts_moves _).trans failHeld_moves))

theorem takeEnd_moves (i : Nat) (o : StepOutcome) (d : Detail) : Moves k b s (takeEnd b i o d s) :=
  (endStep_moves ..).trans afterEnds_moves

/-! ### The ends of CHECK steps -/

theorem endCheck_moves (i : Nat) : Moves k b s (endCheck b i s) := by
  unfold endCheck
  split
  · exact .refl
  · split
    · exact (modInFlight_moves _ _).trans (endStep_moves ..)
    · exact .refl

theorem decideDue_moves (x : Option Nat) : Moves k b s (decideDue b x s) :=
  forAll_moves fun _ _ => modInFlight_moves _ _

theorem nextCheck_moves (i : Nat) : Moves k b s (nextCheck b i s) := by
  unfold nextCheck
  split
  · exact .refl
  · exact (endCheck_moves _).trans afterEnds_moves

theorem takeChecks_moves (steps : List Nat) : Moves k b s (takeChecks b steps s) :=
  forAll_moves fun i _ => nextCheck_moves i

theorem withChecks_moves (x : Option Nat) (stops : Bool) {f : State → State} (h : ∀ t, Moves k b t (f t)) :
    Moves k b s (withChecks b x stops f s) :=
  ite_moves (fun _ => (decideDue_moves _).trans ((takeChecks_moves _).trans ((h _).trans afterEnds_moves))) fun _ =>
    (decideDue_moves _).trans ((h _).trans (afterEnds_moves.trans (takeChecks_moves _)))

theorem settleOthers_moves (x : Option Nat) : Moves k b s (settleOthers b x s) :=
  (decideDue_moves _).trans (takeChecks_moves _)

theorem settleChecks_moves : Moves k b s (settleChecks b s) := settleOthers_moves none

theorem endInFlight_moves (i : Nat) (o : StepOutcome) (d : Detail) {block : State → State}
    (h : ∀ t, Moves k b t (block t)) : Moves k b s (endInFlight b i o d block s) := by
  unfold endInFlight
  split
  · exact .refl
  · exact (h s).trans (endStep_moves ..)

theorem endWithChecks_moves (i : Nat) (o : StepOutcome) (d : Detail) {block : State → State}
    (h : ∀ t, Moves k b t (block t)) : Moves k b s (endWithChecks b i o d block s) :=
  ite_moves (fun _ => (settleOthers_moves _).trans ((endInFlight_moves _ _ _ h).trans afterEnds_moves)) fun _ =>
    withChecks_moves _ _ fun _ => endInFlight_moves _ _ _ h

/-! ### Aborts, refusals and faults -/

theorem abortNow_moves (cause : AbortCause) : Moves k b s (abortNow b cause s) := by
  simp only [abortNow]
  split
  · exact (enterClosing_moves ..).trans (echoBay_moves _ _)
  · exact enterClosing_moves ..

theorem abortRun_moves (cause : AbortCause) : Moves k b s (abortRun b cause s) := by
  refine .trans settleChecks_moves ?_
  simp only [abortRun]
  refine ite_moves (fun _ => .refl) fun _ => ?_
  split
  · exact modRun_moves _
  · exact abortNow_moves _

theorem latchExchange_moves : Moves k b s (latchExchange b s) :=
  ite_moves (fun _ => addLatched_moves _) fun _ => .refl

theorem exchangeFault_moves : Moves k b s (exchangeFault b s) := by
  have h : Moves k b s (settleChecks b (latchExchange b s)) := latchExchange_moves.trans settleChecks_moves
  exact ite_moves (fun _ => h.trans (abortNow_moves _)) fun _ => h

theorem refuse_moves (cause : EndCause) : Moves k b s (refuse b cause s) := enterClosing_moves ..

theorem refuseSetup_moves : Moves k b s (refuseSetup b s) := enterClosing_moves ..

theorem refuseStep_moves (i : Nat) (d : Detail) : Moves k b s (refuseStep b i d s) :=
  Move.free.moves.trans (enterClosing_moves ..)

theorem enterRunning_moves : Moves k b s (enterRunning b s) :=
  .trans (modBay_moves ⟨fun _ => rfl, fun _ => rfl, fun _ => rfl, fun _ => rfl, fun _ => rfl, fun _ _ => rfl,
    fun _ _ _ => rfl, fun _ => rfl⟩) ((setPhase_moves _).trans walk_moves)

theorem beginRetry_moves (c : Condition) : Moves k b s (beginRetry b c s) :=
  .trans (modSupply_moves rfl rfl) ((switchOff_moves _).trans (setPhase_moves _))

theorem furtherRetry_moves (c : Condition) : Moves k b s (furtherRetry b c s) :=
  .trans (modSupply_moves rfl rfl) (switchOff_moves _)

theorem latchFault_moves (c : Condition) : Moves k b s (latchFault b c s) :=
  (addLatched_moves _).trans (abortRun_moves _)

theorem reportFault_moves (c : Condition) : Moves k b s (reportFault b c s) :=
  (addReported_moves _).trans (modRun_moves _)

theorem retrySettled_moves : Moves k b s (retrySettled b s) :=
  .trans (modSupply_moves rfl rfl) ((modRun_moves _).trans ((setPhase_moves _).trans (endSafe_moves.trans
    ((setEvent_moves (alertBit_lt b)).trans walk_moves))))

theorem actOn_moves (c : Condition) : Moves k b s (actOn b c s) := by
  have h : Moves k b s (s.modSupply b fun p =>
    { p with watches := condSet p.watches c { condGet p.watches c with pending := false } }) := modSupply_moves rfl rfl
  simp only [actOn]
  split
  · exact h.trans (reportFault_moves _)
  · exact h.trans (reportFault_moves _)
  · exact h.trans (reportFault_moves _)
  · exact h
  · exact h
  · exact h
  · exact ite_moves (fun _ => h.trans (latchFault_moves _)) fun _ => h.trans (beginRetry_moves _)
  · exact ite_moves (fun _ => h.trans (latchFault_moves _)) fun _ => h.trans (furtherRetry_moves _)
  · exact h.trans (latchFault_moves _)
  · exact settlePending_moves _

theorem recognize_moves (c : Condition) : Moves k b s (recognize b c s) :=
  .trans settleChecks_moves (ite_moves (fun _ => actOn_moves _) fun _ => .refl)

/-! ### The panel -/

theorem endPrompt_moves (i : Nat) (o : StepOutcome) (d : Detail) : Moves k b s (endPrompt b i o d s) :=
  (modPanel_moves _).trans (takeEnd_moves ..)

theorem keyYes_moves : Moves k b s (keyYes b s) := by
  refine .trans settleChecks_moves ?_
  simp only [keyYes]
  split
  · exact .refl
  · split
    · exact endPrompt_moves ..
    · exact endPrompt_moves ..
    · exact .refl

theorem keyNo_moves : Moves k b s (keyNo b s) := by
  refine .trans settleChecks_moves ?_
  simp only [keyNo]
  split
  · exact .refl
  · split
    · exact endPrompt_moves ..
    · exact .refl
    · exact .refl

theorem keyStart_moves : Moves k b s (keyStart b s) :=
  ite_moves (fun _ => ite_moves (fun _ => (modPanel_moves _).trans (wantText_moves _)) fun _ => enterRunning_moves)
    fun _ => .refl

theorem keyAbort_moves : Moves k b s (keyAbort b s) := abortRun_moves _

theorem actKey_moves (key : Byte) : Moves k b s (actKey b key s) :=
  ite_moves (fun _ => keyYes_moves) fun _ => ite_moves (fun _ => keyNo_moves) fun _ =>
    ite_moves (fun _ => keyStart_moves) fun _ => ite_moves (fun _ => keyAbort_moves) fun _ => .refl

theorem keyEnded_moves (o : BusOutcome) (data : List Byte) : Moves k b s (keyEnded b o data s) :=
  ite_moves (fun _ => (modPanel_moves _).trans ((actKey_moves _).trans pollKeys_moves)) fun _ => modPanel_moves _

theorem closingPanelAgain_moves : Moves k b s (closingPanelAgain b s) :=
  ite_moves (fun _ => closingPanelDone_moves) fun _ => .refl

theorem unlessDone_moves (o : BusOutcome) : Moves k b s (if o = .done then s else flagLampFailed b s) :=
  ite_moves (fun _ => .refl) fun _ => flagLampFailed_moves

theorem lampEnded_moves (o : BusOutcome) : Moves k b s (lampEnded b o s) :=
  (unlessDone_moves o).trans (lampOver_moves.trans closingPanelAgain_moves)

theorem armPrompt_moves (q : Prompt) : Moves k b s (armPrompt b q s) := by
  unfold armPrompt
  split
  · exact settleChecks_moves.trans (endPrompt_moves ..)
  · exact (modPanel_moves _).trans pumpDisplay_moves
  · exact (modPanel_moves _).trans pumpDisplay_moves

theorem displayEnded_moves (purpose : DisplayPurpose) (o : BusOutcome) : Moves k b s (displayEnded b purpose o s) := by
  refine .trans (modPanel_moves fun p => { p with display := none }) ?_
  simp only [displayEnded]
  split
  · exact settleChecks_moves.trans afterEnds_moves
  · exact (unlessDone_moves o).trans closingPanelAgain_moves
  · split
    · exact settleChecks_moves.trans afterEnds_moves
    · exact ite_moves (fun _ => armPrompt_moves _) fun _ => settleChecks_moves.trans (endPrompt_moves ..)

theorem attentionTo_moves (level : Bool) : Moves k b s (attentionTo b level s) := by
  simp only [attentionTo]
  exact ite_moves (fun _ => modPanel_moves _) fun _ => (modPanel_moves _).trans pollKeys_moves

theorem noAnswerDue_moves : Moves k b s (noAnswerDue b s) := by
  unfold noAnswerDue
  split
  · exact .refl
  · exact endWithChecks_moves _ _ _ fun _ => modPanel_moves _

/-! ### The fixture check and the owners of transactions -/

theorem enterArming_moves : Moves k b s (enterArming b s) := (setPhase_moves _).trans (wantText_moves _)

theorem checkPassed_moves : Moves k b s (checkPassed b s) :=
  ite_moves (fun _ => enterArming_moves) fun _ => ite_moves (fun _ => refuse_moves _) fun _ => enterRunning_moves

theorem takeIdentValues_moves (x : Ident) : Moves k b s (takeIdentValues b x s) := by
  unfold takeIdentValues
  exact (modRun_moves _).trans (modStatus_moves _)

theorem takeIdent_moves (o : BusOutcome) (data : List Byte) : Moves k b s (takeIdent b o data s) := by
  refine .trans (modRun_moves fun r => { r with identMark := false }) ?_
  simp only [takeIdent]
  refine ite_moves (fun _ => .refl) fun _ => ite_moves (fun _ => refuse_moves _) fun _ =>
    .trans (takeIdentValues_moves (parseIdent data)) ?_
  split
  · exact refuse_moves _
  · exact checkPassed_moves

theorem askIdent_moves : Moves k b s (askIdent b s) := by
  refine .trans (modRun_moves fun r => { r with identMark := true }) ?_
  simp only [askIdent]
  split
  · exact busRequest_moves ‹_›
  · exact takeIdent_moves ..

theorem fixtureStepEnded_moves (i : Nat) (o : BusOutcome) (data : List Byte) :
    Moves k b s (fixtureStepEnded b i o data s) := by
  refine .trans settleChecks_moves ?_
  simp only [fixtureStepEnded]
  split
  · exact .refl
  · split
    · exact takeEnd_moves ..
    · exact .refl

theorem cycleCountEnded_moves (o : BusOutcome) : Moves k b s (cycleCountEnded b o s) :=
  ite_moves (fun _ => cycleEnded_moves _) fun _ => .refl

theorem deliver_moves (e : BusEntry) (o : BusOutcome) (data : List Byte) {s : State} :
    Moves k e.bay s (deliver e o data s) := by
  unfold deliver
  split
  · exact takeIdent_moves ..
  · exact cycleCountEnded_moves _
  · exact fixtureStepEnded_moves ..
  · exact displayEnded_moves ..
  · exact lampEnded_moves _
  · exact keyEnded_moves ..

/-! ### LOADING -/

/-- The ACTIVE write of a take and the items of the bay that it sets (R39). -/
def slotTaken (b : Bay) (x : Slot) (s : State) : State :=
  (writeArea (.active b) (slotOffset b x) (leBytes 4 2) s).modBay b fun y =>
    { y with
      run := runAtTake x s.rackTime (readAt (slotOffset b x + loadOffset .header) s) y.run
      supply := supplyAtTake y.supply
      status := statusAtTake y.status }

/-- A waiting slot that is taken waits no more. -/
def waitingTaken (b : Bay) (x : Slot) (s : State) : State :=
  if (s.bay b).xu.waiting = some x then setWaiting b none s else s

/-- The take of a slot in its stages. -/
theorem take_eq (b : Bay) (x : Slot) (s : State) : take b x s =
    setPhase b .loading (wantText b .clear (wantLamp b 0x00 (waitingTaken b x (slotTaken b x s)))) :=
  rfl

theorem slotTaken_moves (x : Slot) : Moves k b s (slotTaken b x s) := by
  unfold slotTaken
  exact (writeArea_moves ..).trans (modBay_moves ⟨fun _ => rfl, fun _ => rfl, fun _ => rfl, fun _ => rfl, fun _ => rfl,
    fun _ _ => rfl, fun _ _ _ => rfl, fun _ => rfl⟩)

theorem take_moves (x : Slot) : Moves k b s (take b x s) := by
  rw [take_eq]
  exact (slotTaken_moves _).trans (.trans (ite_moves (fun _ => setWaiting_moves _) fun _ => .refl)
    ((wantLamp_moves _).trans ((wantText_moves _).trans (setPhase_moves _))))

theorem issueRead_moves (x : LoadRead) : Moves k b s (issueRead b x s) := modRun_moves _

theorem loadSetup_keeps (h : Header) (x : StimSetup × SchedSetup × Vector TapSetup 8 × Supervision) (y : BayState) :
    Keeps (some .setup) y (loadSetup h x y) :=
  ⟨fun _ => rfl, fun _ => by simp only [loadSetup]; split <;> rfl, fun h => absurd rfl h, fun h => absurd rfl h,
    fun h => absurd rfl h, fun h => absurd rfl h, fun h => absurd rfl h, fun _ => rfl⟩

theorem loadValid_moves (h : Header) (x : StimSetup × SchedSetup × Vector TapSetup 8 × Supervision)
    (steps : List Step) : Moves (some .setup) b s (loadValid b h x steps s) :=
  (modBay_moves (loadSetup_keeps ..)).trans ((modRun_moves _).trans ((setPhase_moves _).trans askIdent_moves))

theorem validate_moves (h : Header) : Moves (some .setup) b s (validate b h s) := by
  simp only [validate]
  refine ite_moves (fun _ => refuseSetup_moves) fun _ => ?_
  split
  · exact refuseSetup_moves
  · split
    · exact refuseStep_moves ..
    · exact loadValid_moves ..

theorem afterRead_moves (x : LoadRead) : Moves (some .setup) b s (afterRead b x s) := by
  unfold afterRead
  split
  · exact .refl
  · refine ite_moves (fun _ => refuseSetup_moves) fun _ => ?_
    split
    · exact issueRead_moves _
    · exact validate_moves _

theorem takeLabel_moves (x : LoadRead) (data : List Byte) : Moves k b s (takeLabel b x data s) :=
  ite_moves (fun _ => modStatus_moves _) fun _ => .refl

theorem readDone_moves (l : Loading) (data : List Byte) : Moves (some .setup) b s (readDone b l data s) := by
  refine .trans ((modRun_moves fun r => { r with copy := storeRead l.read data r.copy }).trans
    (takeLabel_moves l.read data)) ?_
  simp only [readDone]
  split
  · exact abortNow_moves _
  · exact afterRead_moves _

/-! ### The ends that fall due at a boundary -/

theorem dwellEnd_moves (i : Nat) : Moves k b s (dwellEnd b i s) := by
  unfold dwellEnd
  split
  · exact .refl
  · exact ite_moves (fun _ => endWithChecks_moves _ _ _ fun _ => .refl) fun _ => .refl

theorem checkEnd_moves (test : InFlight → Bool) (i : Nat) : Moves k b s (checkEnd b test i s) := by
  unfold checkEnd
  split
  · exact .refl
  · exact ite_moves (fun _ => withChecks_moves _ _ fun _ => endCheck_moves _) fun _ => .refl

theorem takeReport_moves (i : Nat) (o : StepOutcome) (d : Detail) : Moves k b s (takeReport b i o d s) := by
  unfold takeReport
  split
  · exact .refl
  · exact endWithChecks_moves _ _ _ fun _ => stopBlock_moves _

theorem blockReport_moves (i : Nat) (o : StepOutcome) (d : Detail) : Moves k b s (blockReport b i o d s) := by
  unfold blockReport
  split
  · exact .refl
  · exact ite_moves (fun _ => ite_moves (fun _ => checkEnd_moves _ _) fun _ => takeReport_moves ..) fun _ => .refl

theorem timeoutEnd_moves (i : Nat) : Moves k b s (timeoutEnd b i s) := by
  unfold timeoutEnd
  split
  · exact .refl
  · exact ite_moves (fun _ => endWithChecks_moves _ _ _ fun _ => stopBlock_moves _) fun _ => .refl

theorem finishDrive_moves (i : Nat) : Moves k b s (finishDrive b i s) := by
  unfold finishDrive
  split
  · exact .refl
  · exact withChecks_moves _ _ fun _ => endDrive_moves _

theorem actionReached_moves (c : Fin 14) : Moves k b s (actionReached b c s) := by
  unfold actionReached
  split
  · exact .refl
  · exact (endAction_moves _ _).trans (finishDrive_moves _)

theorem settleMissed_moves : Moves k b s (settleMissed b s) := by
  unfold settleMissed
  split
  · exact .refl
  · exact endWithChecks_moves _ _ _ fun _ => modSupply_moves rfl rfl

theorem offTimeEnd_moves : Moves k b s (offTimeEnd b s) :=
  ite_moves (fun _ => modSupply_moves rfl rfl) fun _ => .refl

theorem settleFailed_moves : Moves k b s (settleFailed b s) := by
  unfold settleFailed
  split
  · exact .refl
  · exact latchFault_moves _

/-! ### The boundary -/

theorem releaseDue_moves (e : Fin 16) : Moves k b s (releaseDue b e s) := whenever_moves fun _ => releaseEntry_moves e

theorem settleBay_moves : Moves k b s (settleBay b s) := by
  simp only [settleBay]
  refine .trans (.trans ?_ (forAll_moves fun i _ => timeoutEnd_moves i)) (modNet_moves (staleOverdue_keeps _ _))
  refine .trans (.trans (.trans ?_ (forAll_moves fun c _ => recognize_moves c)) offTimeEnd_moves) settleFailed_moves
  refine .trans (.trans (.trans ?_ (forAll_moves fun i _ => dwellEnd_moves i)) settleMissed_moves) noAnswerDue_moves
  refine .trans (.trans ?_ (forAll_moves fun c _ => actionReached_moves c)) settleChecks_moves
  exact .trans (forAll_moves fun e _ => releaseDue_moves e) probeExpiry_moves

@[simp] theorem countSettle_setup (atStart : Nat → Bool) (p : Supply) : (countSettle atStart p).setup = p.setup := by
  unfold countSettle
  split
  · rfl
  · split <;> rfl

@[simp] theorem countSettle_lidOpen (atStart : Nat → Bool) (p : Supply) :
    (countSettle atStart p).lidOpen = p.lidOpen := by
  unfold countSettle
  split
  · rfl
  · split <;> rfl

theorem countRunning_keeps (inp : BayInputs) (now : RackTime) (y : BayState) : Keeps k y (countRunning inp now y) :=
  ⟨fun _ => rfl, fun _ => by simp [countRunning], fun _ => by simp [countRunning], fun _ => rfl,
    fun _ => by simp [countRunning], fun _ _ => rfl, fun _ _ _ => rfl, fun _ => rfl⟩

theorem countBay_moves (inp : BayInputs) : Moves k b s (countBay b inp s) :=
  .trans (ite_moves (fun _ => modBay_moves (countRunning_keeps ..)) fun _ => .refl)
    (convertAll_moves.trans (modNet_moves (countReleases_keeps _)))

theorem lateFault_moves (c : Condition) : Moves k b s (lateFault b c s) := by
  simp only [lateFault]
  split
  · exact modSupply_moves rfl rfl
  · exact addReported_moves _
  · exact addReported_moves _
  · exact addReported_moves _
  · exact (addLatched_moves _).trans goHalted_moves
  · exact (addLatched_moves _).trans goHalted_moves
  · exact addLatched_moves _
  · exact addLatched_moves _
  · exact .refl

theorem lateFaults_moves (inp : BayInputs) : Moves k b s (lateFaults b inp s) :=
  .trans (modSupply_moves rfl rfl) (forAll_moves fun c _ => lateFault_moves c)

theorem recognizeFirst_moves (inp : BayInputs) (c : Condition) : Moves k b s (recognizeFirst b inp c s) :=
  .trans (ite_moves (fun _ => modStim_moves (advanceAll_setup ..)) fun _ => .refl) (recognize_moves _)

theorem lidClosedAgain_moves : Moves k b s (lidClosedAgain b s) :=
  ite_moves (fun _ => (modPanel_moves _).trans (wantText_moves _)) fun _ => .refl

theorem keysAtBoundary_moves (inp : BayInputs) : Moves k b s (keysAtBoundary b inp s) :=
  (modPanel_moves _).trans pollKeys_moves

theorem powerSettled_moves (supv : Int) : Moves k b s (powerSettled b supv s) := by
  unfold powerSettled
  split
  · exact .refl
  · exact withChecks_moves _ _ fun _ => .trans (modSupply_moves rfl rfl) (endStep_moves ..)

theorem retryIfSettled_moves (supv : Int) : Moves k b s (retryIfSettled b supv s) :=
  ite_moves (fun _ => retrySettled_moves) fun _ => .refl

theorem settledBay_moves (supv : Int) : Moves k b s (settledBay b supv s) := by
  unfold settledBay
  split
  · exact powerSettled_moves _
  · exact retryIfSettled_moves _
  · exact .refl

theorem monitor_keeps (inp : BayInputs) (now : RackTime) (tick : Nat) (y : BayState) :
    Keeps (some .lid) y (monitor inp { stopsAtBoundary inp now y with fi := expireEdges tick y.fi }) :=
  ⟨fun _ => rfl, fun h => absurd rfl h, fun _ => by simp only [monitor, stopsAtBoundary]; split <;> simp, fun _ => rfl,
    fun _ => rfl, fun _ _ => rfl, fun _ _ _ => rfl, fun _ => rfl⟩

theorem monitorFirst_moves (inp : BayInputs) :
    Moves k b s (if inp.monitorFirst then forAll allConditions (recognizeFirst b inp) s else s) :=
  ite_moves (fun _ => forAll_moves fun c _ => recognizeFirst_moves inp c) fun _ => .refl

theorem bayBoundary_moves (inputs : PerBay BayInputs) : Moves (some .lid) b s (bayBoundary inputs b s) := by
  simp only [bayBoundary]
  refine .trans ?_ (settledBay_moves _)
  refine .trans (.trans (.trans ?_ (countBay_moves _)) lidClosedAgain_moves) (keysAtBoundary_moves _)
  exact .trans (.trans (modBay_moves (monitor_keeps ..)) (lateFaults_moves _)) (monitorFirst_moves _)

end

end Sys2Proof.Machine

namespace Sys2Proof.Machine

open Sys2Proof

/-! ## Changes of the whole device -/

/-- The exchange unit keeps the registers that have a command of their own, but for those of `k`, and its stream, and goes on
meeting the law of the register window. -/
structure XuKeeps (k : Option OwnItem) (x y : Exchange) : Prop where
  base : k ≠ some .base → y.xbaseLo = x.xbaseLo ∧ y.xbaseHi = x.xbaseHi
  run : k ≠ some .run → y.run = x.run
  irqen : k ≠ some .irqen → y.irqen = x.irqen
  scanp : k ≠ some .scanp → y.scanp = x.scanp
  events : k ≠ some .events → y.events = x.events
  resetting : k ≠ some .resetting → y.resetting = x.resetting
  stream : y.stream = x.stream
  law : RegisterLaw x → RegisterLaw y

/-- An exchange unit of whose registers and stream nothing is changed, and whose timer and mark stay lawful. -/
theorem XuKeeps.of_eq {k : Option OwnItem} {x y : Exchange}
    (h : y = { y with
      xbaseLo := x.xbaseLo, xbaseHi := x.xbaseHi, run := x.run, irqen := x.irqen, scanp := x.scanp, events := x.events
      resetting := x.resetting, stream := x.stream })
    (hi : y.merr.interval = x.merr.interval) (ht : y.scanTimer.isSome = x.scanTimer.isSome)
    (hf : y.follow = true → x.follow = true ∨ x.run = true) : XuKeeps k x y := by
  rw [h]
  exact ⟨fun _ => ⟨rfl, rfl⟩, fun _ => rfl, fun _ => rfl, fun _ => rfl, fun _ => rfl, fun _ => rfl, rfl,
    fun l => ⟨l.base, hi ▸ l.interval, l.events, ht.trans l.timer, fun hy => (hf hy).elim l.follow id⟩⟩

/-- One elementary change of a bay's operation, or of the scan pass and its mark to follow. -/
inductive ScanMove (k : Option OwnItem) (b : Bay) (s : State) : State → Prop
  | bay {t : State} (h : Move k b s t) : ScanMove k b s t
  | pass (p : Option Pass) (f : Bool) (h : f = true → s.xu.follow = true) :
      ScanMove k b s (s.modXu fun x => { x with pass := p, follow := f })

/-- A run of changes of one bay and of the scan pass. -/
abbrev ScanMoves (k : Option OwnItem) (b : Bay) : State → State → Prop := Relation.ReflTransGen (ScanMove k b)

/-- One elementary change of the device: of a bay's operation, of the bus master, of the exchange unit, or the time of a
boundary. -/
inductive DeviceMove (k : Option OwnItem) (s : State) : State → Prop
  | bay (b : Bay) {t : State} (h : Move k b s t) : DeviceMove k s t
  | bus (f : Bus → Bus) : DeviceMove k s (s.modBus f)
  | xu (f : Exchange → Exchange) (h : XuKeeps k s.xu (f s.xu)) : DeviceMove k s (s.modXu f)
  | time (h : k = some .lid) : DeviceMove k s (nextBoundary s)

/-- A run of elementary changes of the device. -/
abbrev DeviceMoves (k : Option OwnItem) : State → State → Prop := Relation.ReflTransGen (DeviceMove k)

section
variable {k : Option OwnItem} {b : Bay} {s t : State}

theorem Moves.scan (h : Moves k b s t) : ScanMoves k b s t := Relation.ReflTransGen.mono (fun _ _ => ScanMove.bay) _ _ h

theorem Moves.device (h : Moves k b s t) : DeviceMoves k s t :=
  Relation.ReflTransGen.mono (fun _ _ => DeviceMove.bay b) _ _ h

theorem ScanMove.device (h : ScanMove k b s t) : DeviceMove k s t := by
  cases h with
  | bay h => exact .bay b h
  | pass p f h => exact .xu _ (.of_eq rfl rfl rfl fun hf => .inl (h hf))

theorem ScanMoves.device (h : ScanMoves k b s t) : DeviceMoves k s t :=
  Relation.ReflTransGen.mono (fun _ _ => ScanMove.device) _ _ h

theorem modXu_device {f : Exchange → Exchange} (h : XuKeeps k s.xu (f s.xu)) : DeviceMoves k s (s.modXu f) :=
  .single (.xu f h)

theorem modBus_device (f : Bus → Bus) : DeviceMoves k s (s.modBus f) := .single (.bus f)

/-! ### What one elementary change keeps -/

/-- The device but for what an operation of a bay can change: that bay, the memory error, the events and the stream, the bus
queue and the number of free values used. -/
def outside (b : Bay) (s : State) : State :=
  { s with
    freeIndex := 0
    bays := baySet s.bays b BayState.reset
    xu := { s.xu with events := 0, merr := ⟨.none, none, false, s.xu.merr.interval⟩, stream := [] }
    bus := { s.bus with queue := [], held := [], countsFrom := 0 } }

theorem setEvent_outside (b : Bay) (n : Nat) (s : State) : outside b (setEvent n s) = outside b s := by
  simp only [setEvent]
  split <;> rfl

theorem Move.outside_eq (h : Move k b s t) : outside b t = outside b s := by
  cases h with
  | bay f => simp [outside, State.modBay]
  | free => rfl
  | queue => rfl
  | write => rfl
  | event n => exact setEvent_outside b n s
  | error m h => simp [outside, h]

/-- What every elementary change keeps, a run of them keeps. -/
theorem reflTransGen_const {α : Type} {r : State → State → Prop} (g : State → α) (hg : ∀ s t, r s t → g t = g s)
    (h : Relation.ReflTransGen r s t) : g t = g s := by
  induction h with
  | refl => rfl
  | tail _ hm ih => exact (hg _ _ hm).trans ih

/-- An operation of a bay leaves everything outside that bay as it is. -/
theorem Moves.outside_eq (h : Moves k b s t) : outside b t = outside b s :=
  reflTransGen_const _ (fun _ _ => Move.outside_eq) h

/-- The device but for what an operation of a bay and the scan pass can change. -/
def outsideScan (b : Bay) (s : State) : State :=
  { outside b s with xu := { (outside b s).xu with pass := none, follow := false } }

/-- A command of a bay leaves everything outside that bay and the scan pass as it is. -/
theorem ScanMoves.outside_eq (h : ScanMoves k b s t) : outsideScan b t = outsideScan b s := by
  refine reflTransGen_const _ (fun u v hm => ?_) h
  cases hm with
  | bay h => simp only [outsideScan, h.outside_eq]
  | pass => rfl

theorem outside_bay {b o : Bay} (h : o ≠ b) (s : State) : (outside b s).bay o = s.bay o :=
  bayGet_baySet_of_ne _ h _

end

end Sys2Proof.Machine

namespace Sys2Proof.Machine

open Sys2Proof

/-! ## The operations of the scan, the fixture bus and the registers -/

section
variable {k : Option OwnItem} {b : Bay} {s : State}

theorem iteDevice_moves {c : Prop} [Decidable c] {t u : State} (ht : c → DeviceMoves k s t)
    (hu : ¬c → DeviceMoves k s u) : DeviceMoves k s (if c then t else u) := by
  split
  · exact ht ‹_›
  · exact hu ‹_›

theorem iteScan_moves {c : Prop} [Decidable c] {t u : State} (ht : c → ScanMoves k b s t)
    (hu : ¬c → ScanMoves k b s u) : ScanMoves k b s (if c then t else u) := by
  split
  · exact ht ‹_›
  · exact hu ‹_›

theorem forAll_device {α : Type} {xs : List α} {f : α → State → State} (h : ∀ x t, DeviceMoves k t (f x t)) :
    DeviceMoves k s (forAll xs f s) :=
  forAll_keeps (P := fun t => DeviceMoves k s t) xs f s .refl fun x _ t ht => ht.trans (h x t)

/-! ### The scan -/

theorem passChange_moves {p : Option Pass} {f : Bool} (h : f = true → s.xu.follow = true) :
    ScanMoves k b s (s.modXu fun x => { x with pass := p, follow := f }) :=
  .single (.pass p f h)

theorem startPass_moves : ScanMoves k b s (startPass s) := passChange_moves (f := s.xu.follow) id

theorem endPass_moves : ScanMoves k b s (endPass s) := by
  have h : ScanMoves k b s (s.modXu fun x => { x with pass := none, follow := false }) := passChange_moves nofun
  exact iteScan_moves (fun _ => h.trans startPass_moves) fun _ => h

theorem modPass_moves (f : Pass → Pass) : ScanMoves k b s (modPass f s) := passChange_moves (f := s.xu.follow) id

theorem passRead_moves (r : PassRead) : ScanMoves k b s (passRead r s) := modPass_moves _

theorem passBay_moves (bays : List Bay) : ScanMoves k b s (passBay bays s) := by
  refine iteScan_moves (fun _ => endPass_moves) fun _ => ?_
  split
  · exact endPass_moves
  · exact (modPass_moves _).trans (passRead_moves _)

theorem passWord_moves (c : Bay) (x : Slot) (second : Bool) : ScanMoves k b s (passWord c x second s) :=
  iteScan_moves (fun _ => endPass_moves) fun _ => passRead_moves _

theorem passAfter_moves (r : PassRead) : ScanMoves k b s (passAfter r s) := by
  unfold passAfter
  split
  · exact passBay_moves _
  · exact passWord_moves ..
  · exact passWord_moves ..
  · exact passBay_moves _

theorem passOn_moves (r : PassRead) : ScanMoves k b s (passOn r s) :=
  iteScan_moves (fun _ => modPass_moves _) fun _ => passAfter_moves _

theorem passResume_moves : ScanMoves k b s (passResume s) := by
  unfold passResume
  split
  · exact .refl
  · exact iteScan_moves (fun _ => passAfter_moves _) fun _ => .refl

/-! ### Requests -/

/-- A request acted on sets the sequence number last acted on. -/
theorem actSeq_moves (seq : Word16) : Moves (some .seq) b s (actSeq b seq s) :=
  modBay_moves (f := fun y => { y with xu := { y.xu with lastSeq := seq } }) ⟨fun _ => rfl, fun _ => rfl, fun _ => rfl, fun _ => rfl, fun _ => rfl, fun _ _ => rfl, fun _ _ _ => rfl,
    fun h => absurd rfl h⟩

theorem abortRequest_after (seq : Word16) : Moves k b (actSeq b seq s) (abortRequest b seq s) := by
  refine .trans settleChecks_moves ?_
  simp only [abortRequest]
  refine ite_moves (fun _ => echoBay_moves _ _) fun _ => ?_
  split
  · exact modRun_moves _
  · exact (abortRun_moves _).trans (echoBay_moves _ _)

theorem withdrawRequest_after (seq : Word16) (argument : Word32) :
    Moves k b (actSeq b seq s) (withdrawRequest b seq argument s) := by
  simp only [withdrawRequest]
  split
  · exact echoBay_moves _ _
  · exact ite_moves (fun _ => modBayXu_moves rfl rfl) fun _ => echoBay_moves _ _

theorem clearRequest_after (seq : Word16) : Moves k b (actSeq b seq s) (clearRequest b seq s) :=
  ite_moves (fun _ => clearLatched_moves.trans ((setPhase_moves _).trans (echoBay_moves _ _))) fun _ => echoBay_moves _ _

theorem unknownBay_after (seq : Word16) : Moves k b (actSeq b seq s) (unknownBay b seq s) := echoBay_moves _ _

/-- After its sequence number, a request of a bay changes nothing that has a command of its own. -/
theorem bayCode_after (code : Nat) (seq : Word16) (argument : Word32) :
    Moves k b (actSeq b seq s) (bayCode b code seq argument s) := by
  unfold bayCode
  split
  · exact abortRequest_after _
  · exact withdrawRequest_after ..
  · exact clearRequest_after _
  · exact unknownBay_after _

theorem bayRequest_moves {seq : Word16} {f : State → State} (h : Moves k b s (f s)) :
    Moves k b s (bayRequest b seq f s) :=
  whenever_moves fun _ => h

theorem bayCode_moves (code : Nat) (seq : Word16) (argument : Word32) :
    Moves (some .seq) b s (bayCode b code seq argument s) :=
  (actSeq_moves seq).trans (bayCode_after ..)

theorem bayBlockRead_moves (discard : Bool) (d : List Byte) : Moves (some .seq) b s (bayBlockRead b discard d s) :=
  ite_moves (fun _ => .refl) fun _ => bayRequest_moves (bayCode_moves ..)

theorem issueRackStatus_device : DeviceMoves k s (issueRackStatus s) :=
  (writeArea_moves (b := .bay0) .rackStatus 0x0010 (rackStatusBytes s)).device

theorem triggerRack_device : DeviceMoves k s (triggerRack s) := by
  unfold triggerRack
  split
  · exact (modXu_device (.of_eq rfl rfl rfl .inl)).trans issueRackStatus_device
  · exact modXu_device (.of_eq rfl rfl rfl .inl)
  · exact .refl

theorem echoRack_device (seq : Word16) (r : EchoResult) : DeviceMoves k s (echoRack seq r s) :=
  (modXu_device (.of_eq rfl rfl rfl .inl)).trans triggerRack_device

theorem setBusState_device (st : BusState) : DeviceMoves k s (setBusState st s) :=
  iteDevice_moves (fun _ => .refl) fun _ => (modBus_device _).trans triggerRack_device

theorem beginRecovery_device : DeviceMoves k s (beginRecovery s) := (modBus_device _).trans (setBusState_device _)

theorem recoverRequest_device (seq : Word16) : DeviceMoves k s (recoverRequest seq s) :=
  (modXu_device (f := fun x => { x with rackSeq := seq }) (.of_eq rfl rfl rfl .inl)).trans
    (iteDevice_moves (fun _ => (modXu_device (.of_eq rfl rfl rfl .inl)).trans beginRecovery_device)
      fun _ => echoRack_device _ _)

theorem unknownRack_device (seq : Word16) : DeviceMoves k s (unknownRack seq s) :=
  (modXu_device (.of_eq rfl rfl rfl .inl)).trans (echoRack_device _ _)

theorem rackRequest_device {seq : Word16} {f : State → State} (h : DeviceMoves k s (f s)) :
    DeviceMoves k s (rackRequest seq f s) :=
  iteDevice_moves (fun _ => h) fun _ => .refl

theorem rackBlockRead_device (d : List Byte) : DeviceMoves k s (rackBlockRead d s) :=
  (modBus_device fun u => { u with fast := u32At d 4 % 4 = 1 }).trans (rackRequest_device (by
    split
    · exact recoverRequest_device _
    · exact unknownRack_device _))

theorem blockRead_device (d : List Byte) : DeviceMoves (some .seq) s (blockRead d s) := by
  unfold blockRead
  split
  · exact .refl
  · split
    · exact (rackBlockRead_device _).trans (passOn_moves (b := .bay0) _).device
    · exact (bayBlockRead_moves _ _).device.trans (passOn_moves (b := .bay0) _).device
    · exact .refl

/-! ### Withdrawals, findings and memory errors -/

theorem withdrawn_moves (w : Withdrawal) : ScanMoves k b s (withdrawn b w s) := by
  refine .trans ?_ (echoBay_moves ..).scan
  refine .trans ?_ (modPass_moves _)
  refine .trans (writeArea_moves ..).scan (modBay_moves ?_).scan
  exact ⟨fun _ => rfl, fun _ => rfl, fun _ => rfl, fun _ => rfl, fun _ => rfl, fun _ _ => rfl, fun _ _ _ => rfl,
    fun _ => rfl⟩

theorem withdrawRead_moves (w : Withdrawal) (word : Word32) (accepted : Bool) :
    ScanMoves k b s (withdrawRead b w word accepted s) := by
  refine .trans (b := s.modBayXu b fun u => { u with withdrawal := none }) (modBayXu_moves rfl rfl).scan ?_
  refine .trans ?_ passResume_moves
  refine iteScan_moves (fun _ => ?_) fun _ => (echoBay_moves ..).scan
  refine .trans (b := withdrawnHeader b w.slot _) (writeArea_moves ..).scan ?_
  exact iteScan_moves (fun _ => withdrawn_moves _) fun _ =>
    Moves.scan ((recordError_moves ..).trans (echoBay_moves ..))

theorem passFinding_moves (x : Slot) (gone : List (Bay × Slot)) : ScanMoves k b s (passFinding b x gone s) :=
  iteScan_moves (fun _ => .refl) fun _ => iteScan_moves (fun _ => (take_moves _).scan) fun _ => modPass_moves _

theorem updateWaiting_moves : Moves k b s (updateWaiting b s) := by
  unfold updateWaiting
  split
  · exact .refl
  · exact setWaiting_moves _

theorem wordRead_device (word : Word32) : DeviceMoves k s (wordRead word s) := by
  simp only [wordRead]
  split
  · exact .refl
  · split
    · refine .trans ?_ (passOn_moves (b := .bay0) _).device
      have hFind {c : Prop} [Decidable c] {b x gone} : ScanMoves k b s (if c then passFinding b x gone s else s) :=
        iteScan_moves (fun _ => passFinding_moves _ _) fun _ => .refl
      exact iteDevice_moves (fun _ => hFind.device.trans updateWaiting_moves.device) fun _ => hFind.device
    · exact .refl
    · exact .refl

theorem backFinding_moves (x : Slot) : Moves k b s (backFinding b x s) :=
  ite_moves (fun _ => take_moves _) fun _ => ite_moves (fun _ => setWaiting_moves _) fun _ => .refl

theorem backRead_moves (x : Slot) (word : Word32) : Moves k b s (backRead b x word s) := by
  have h : Moves k b s (s.modBayXu b fun u => { u with backToBack := none }) := modBayXu_moves rfl rfl
  exact ite_moves (fun _ => h.trans (backFinding_moves _)) fun _ => h

theorem readFaultWithdrawal_moves (kind : ErrorKind) : ScanMoves k b s (readFault kind (.withdrawal b) s) := by
  simp only [readFault]
  split
  · exact .refl
  · refine .trans (Moves.scan ?_) passResume_moves
    exact .trans (.trans (modBayXu_moves rfl rfl) (recordError_moves ..)) (echoBay_moves ..)

theorem readFaultBackToBack_moves (kind : ErrorKind) : Moves k b s (readFault kind (.backToBack b) s) := by
  simp only [readFault]
  split
  · exact .refl
  · exact (modBayXu_moves rfl rfl).trans (recordError_moves ..)

theorem readFaultLoading_moves (kind : ErrorKind) : Moves k b s (readFault kind (.loading b) s) := by
  simp only [readFault]
  split
  · exact .refl
  · exact (recordError_moves ..).trans exchangeFault_moves

theorem readFaultPass_device (kind : ErrorKind) : DeviceMoves k s (readFault kind .pass s) := by
  simp only [readFault]
  split
  · exact .refl
  · exact ScanMoves.device ((recordError_moves ..).scan.trans (endPass_moves (b := .bay0)))

/-- A WRITE_ERROR of a write made for a bay. -/
theorem writeFault_moves {a : WriteAccess} (h : bayOf (.writeError a) = some b) : Moves k b s (writeFault a s) := by
  cases a with
  | slot c held =>
    obtain rfl : c = b := by simpa [bayOf] using h
    exact ite_moves (fun _ => (recordError_moves ..).trans (loseRun_moves.trans exchangeFault_moves)) fun _ =>
      whenever_moves fun _ => recordError_moves ..
  | handBack c w =>
    obtain rfl : c = b := by simpa [bayOf] using h
    exact whenever_moves fun _ => modBayXu_moves rfl rfl
  | withdrawal c =>
    obtain rfl : c = b := by simpa [bayOf] using h
    exact whenever_moves fun _ => recordError_moves ..
  | bayStatus c =>
    obtain rfl : c = b := by simpa [bayOf] using h
    exact ite_moves (fun _ => .refl) fun _ =>
      (recordError_moves ..).trans (statusWriteEnd_moves.trans exchangeFault_moves)
  | rackStatus => simp [bayOf] at h

theorem rackStatusWriteEnd_device : DeviceMoves k s (statusWriteEnd none s) := by
  simp only [statusWriteEnd]
  split
  · exact .refl
  · exact modXu_device (.of_eq rfl rfl rfl .inl)
  · exact (modXu_device (.of_eq rfl rfl rfl .inl)).trans issueRackStatus_device

/-! ### The fixture bus -/

theorem restartCounts_device : DeviceMoves k s (restartCounts s) := modBus_device _

theorem enterBusyOther_device : DeviceMoves k s (enterBusyOther s) :=
  (setBusState_device _).trans restartCounts_device

theorem enterIdle_device : DeviceMoves k s (enterIdle s) := by
  have h : DeviceMoves k s (restartCounts (setBusState .idle s)) := (setBusState_device _).trans restartCounts_device
  exact iteDevice_moves (fun _ => h) fun _ => h.trans (setBusState_device _)

theorem endHead_device (o : BusOutcome) (data : List Byte) : DeviceMoves k s (endHead o data s) := by
  unfold endHead
  split
  · exact .refl
  · exact (modBus_device _).trans (Moves.device ((deliver_moves ..).trans (serveHeld_moves.trans
      (triggerBay_moves.trans closingRelease_moves))))

theorem failOldest_device : DeviceMoves k s (failOldest s) := by
  unfold failOldest
  split
  · exact (modBus_device _).trans (Moves.device ((deliver_moves ..).trans (triggerBay_moves.trans closingRelease_moves)))
  · exact (modBus_device _).trans (Moves.device ((deliver_moves ..).trans closingRelease_moves))
  · exact .refl

theorem failAll_device (n : Nat) : DeviceMoves k s (failAll n s) := by
  induction n generalizing s with
  | zero => exact .refl
  | succ n ih => exact failOldest_device.trans ih

theorem enterFailed_device (cause : BusCause) : DeviceMoves k s (enterFailed cause s) :=
  (modBus_device _).trans ((setBusState_device _).trans ((setEvent_moves (b := .bay0) (by decide)).device.trans
    (failAll_device _)))

theorem loseHead_device : DeviceMoves k s (loseHead s) := by
  unfold loseHead
  split
  · exact .refl
  · exact iteDevice_moves (fun _ => (modBus_device _).trans (endHead_device _ _)) fun _ => modBus_device _

theorem beginHead_device : DeviceMoves k s (beginHead s) := by
  unfold beginHead
  split
  · exact .refl
  · exact (modBus_device _).trans (setBusState_device _)

theorem keyAttention_device (e : BusEntry) (level : Bool) : DeviceMoves k s (keyAttention e level s) :=
  iteDevice_moves (fun _ => (modPanel_moves _).device) fun _ => .refl

theorem stopHead_device (refused : Option Nat) (data : List Byte) (attention : Bool) :
    DeviceMoves k s (stopHead refused data attention s) := by
  unfold stopHead
  split
  · exact .refl
  · exact (modBus_device _).trans ((keyAttention_device _ _).trans ((endHead_device _ _).trans enterIdle_device))

theorem cutShort_device : DeviceMoves k s (cutShort s) :=
  (Move.free (b := .bay0)).moves.device.trans (modBus_device fun u =>
    { u with onBus := false, wire := s.bus.wire.take (Config.freeWord s.freeIndex).toNat })

theorem stretchOut_device : DeviceMoves k s (stretchOut s) :=
  cutShort_device.trans ((modBus_device _).trans (endHead_device _ _))

theorem sclRise_device (sda : Bool) : DeviceMoves k s (sclRise sda s) := (modBus_device _).trans enterIdle_device

theorem loseArbitration_device : DeviceMoves k s (loseArbitration s) :=
  cutShort_device.trans ((modBus_device _).trans (enterBusyOther_device.trans loseHead_device))

theorem otherStart_device (sclFell meets : Bool) : DeviceMoves k s (otherStart sclFell meets s) := by
  have h : DeviceMoves k s (enterBusyOther (s.modBus fun u =>
      if sclFell then { u with scl := false } else { u with sda := false })) :=
    (modBus_device _).trans enterBusyOther_device
  exact iteDevice_moves (fun _ => h.trans loseHead_device) fun _ => h

theorem otherStop_device : DeviceMoves k s (otherStop s) := (modBus_device _).trans enterIdle_device

theorem busyOver_device : DeviceMoves k s (busyOver s) :=
  iteDevice_moves (fun _ => enterIdle_device) fun _ => enterFailed_device _

theorem recoveryOver_device (readings : List Bool) (afterStop : Bool) :
    DeviceMoves k s (recoveryOver readings afterStop s) :=
  iteDevice_moves (fun _ => (modBus_device _).trans enterIdle_device) fun _ =>
    (modBus_device _).trans (enterFailed_device _)

theorem recoveryHeld_device : DeviceMoves k s (recoveryHeld s) := (modBus_device _).trans (enterFailed_device _)

theorem lineChange_device (scl sda : Bool) : DeviceMoves k s (lineChange scl sda s) := by
  have h : DeviceMoves k s (restartCounts (s.modBus (setLines scl sda))) := (modBus_device _).trans restartCounts_device
  simp only [lineChange]
  refine iteDevice_moves (fun _ => .refl) fun _ => ?_
  split
  · exact iteDevice_moves (fun _ => h.trans enterBusyOther_device) fun _ => h
  · exact iteDevice_moves (fun _ => h.trans enterIdle_device) fun _ => h
  · exact iteDevice_moves (fun _ => h.trans (sclRise_device _)) fun _ => h
  · exact h
  · exact h

/-! ### The boundary and the registers -/

theorem boundary_device (inputs : PerBay BayInputs) : DeviceMoves (some .lid) s (boundary inputs s) :=
  (forAll_device fun _ _ => settleBay_moves.device).trans (.trans (.single (.time rfl))
    (forAll_device fun _ _ => (bayBoundary_moves inputs).device))

theorem timerExpiry_device (h : s.xu.scanTimer.isSome) : DeviceMoves k s (timerExpiry s) := by
  have h1 : DeviceMoves k s (s.modXu fun x => { x with scanTimer := some (scanPeriod s) }) :=
    modXu_device (.of_eq rfl rfl (by simp [h]) .inl)
  exact iteDevice_moves (fun _ => h1.trans (startPass_moves (b := .bay0)).device) fun _ => h1

theorem nudge_device : DeviceMoves k s (nudge s) := by
  unfold nudge
  refine iteDevice_moves (fun _ => .refl) fun hr => iteDevice_moves (fun _ => (startPass_moves (b := .bay0)).device)
    fun _ => modXu_device (.of_eq rfl rfl rfl fun _ => .inr (by simpa using hr))

theorem readMerr_device (lanes : BitVec 4) : DeviceMoves k s (readMerr lanes s) :=
  modXu_device (.of_eq rfl rfl rfl .inl)

theorem resetDone_device : DeviceMoves (some .resetting) s (resetDone s) := by
  have h : DeviceMoves (some .resetting) s (s.modXu fun x => { x with resetting := false }) :=
    modXu_device ⟨fun _ => ⟨rfl, rfl⟩, fun _ => rfl, fun _ => rfl, fun _ => rfl, fun _ => rfl, fun h => absurd rfl h, rfl,
      fun l => ⟨l.base, l.interval, l.events, l.timer, l.follow⟩⟩
  exact .trans (iteDevice_moves (fun _ => h) fun _ => h.trans enterBusyOther_device)
    (forAll_device fun _ _ => pollKeys_moves.device)

theorem writeXbase_device (half : XbaseHalf) (value : Word32) : DeviceMoves (some .base) s (writeXbase half value s) := by
  unfold writeXbase
  refine iteDevice_moves (fun _ => .refl) fun _ => ?_
  split
  · exact modXu_device ⟨fun h => absurd rfl h, fun _ => rfl, fun _ => rfl, fun _ => rfl, fun _ => rfl, fun _ => rfl, rfl,
      fun l => ⟨by simp [BitVec.and_assoc], l.interval, l.events, l.timer, l.follow⟩⟩
  · exact modXu_device ⟨fun h => absurd rfl h, fun _ => rfl, fun _ => rfl, fun _ => rfl, fun _ => rfl, fun _ => rfl, rfl,
      fun l => ⟨l.base, l.interval, l.events, l.timer, l.follow⟩⟩

theorem setRun_device : DeviceMoves (some .run) s (setRun s) :=
  iteDevice_moves (fun _ => .refl) fun _ => modXu_device ⟨fun _ => ⟨rfl, rfl⟩, fun h => absurd rfl h, fun _ => rfl,
    fun _ => rfl, fun _ => rfl, fun _ => rfl, rfl, fun l => ⟨l.base, l.interval, l.events, rfl, fun _ => rfl⟩⟩

theorem clearRun_device : DeviceMoves (some .run) s (clearRun s) :=
  iteDevice_moves (fun _ => modXu_device ⟨fun _ => ⟨rfl, rfl⟩, fun h => absurd rfl h, fun _ => rfl, fun _ => rfl,
    fun _ => rfl, fun _ => rfl, rfl, fun l => ⟨l.base, l.interval, l.events, rfl, nofun⟩⟩) fun _ => .refl

theorem writeIrqen_device (on : Bool) : DeviceMoves (some .irqen) s (writeIrqen on s) :=
  modXu_device ⟨fun _ => ⟨rfl, rfl⟩, fun _ => rfl, fun h => absurd rfl h, fun _ => rfl, fun _ => rfl, fun _ => rfl, rfl,
    fun l => ⟨l.base, l.interval, l.events, l.timer, l.follow⟩⟩

theorem writeScanp_device (value : Byte) : DeviceMoves (some .scanp) s (writeScanp value s) := by
  have h : DeviceMoves (some .scanp) s (s.modXu fun x => { x with scanp := scanpStored value }) :=
    modXu_device ⟨fun _ => ⟨rfl, rfl⟩, fun _ => rfl, fun _ => rfl, fun h => absurd rfl h, fun _ => rfl, fun _ => rfl, rfl,
      fun l => ⟨l.base, l.interval, l.events, l.timer, l.follow⟩⟩
  refine iteDevice_moves (fun _ => .refl) fun _ => iteDevice_moves (fun hr => h.trans (modXu_device ?_)) fun _ => h
  exact ⟨fun _ => ⟨rfl, rfl⟩, fun _ => rfl, fun _ => rfl, fun _ => rfl, fun _ => rfl, fun _ => rfl, rfl,
    fun l => ⟨l.base, l.interval, l.events, hr.symm, l.follow⟩⟩

theorem clearEvents_device (mask : Word32) : DeviceMoves (some .events) s (clearEvents mask s) :=
  modXu_device ⟨fun _ => ⟨rfl, rfl⟩, fun _ => rfl, fun _ => rfl, fun _ => rfl, fun h => absurd rfl h, fun _ => rfl, rfl,
    fun l => ⟨l.base, l.interval, fun n hn => by simp [l.events n hn], l.timer, l.follow⟩⟩

theorem intervalStored_ne_zero (value : Word32) : intervalStored value ≠ 0 := by
  simp only [intervalStored]
  split
  · decide
  · assumption

theorem writeMerr_device (value : Word32) : DeviceMoves k s (writeMerr value s) :=
  modXu_device ⟨fun _ => ⟨rfl, rfl⟩, fun _ => rfl, fun _ => rfl, fun _ => rfl, fun _ => rfl, fun _ => rfl, rfl,
    fun l => ⟨l.base, intervalStored_ne_zero value, l.events, l.timer, l.follow⟩⟩

theorem enableBay_moves : Moves (some .enabled) b s (enableBay b s) := by
  have h : Moves (some .enabled) b s (s.modBayXu b fun x => { x with enabled := true }) :=
    modBay_moves ⟨fun h => absurd rfl h, fun _ => rfl, fun _ => rfl, fun _ => rfl, fun _ => rfl, fun _ _ => rfl,
      fun _ _ _ => rfl, fun _ => rfl⟩
  exact ite_moves (fun _ => .refl) fun _ => ite_moves (fun _ => h.trans (setPhase_moves _)) fun _ => h

theorem disableByPhase_moves : Moves k b s (disableByPhase b s) := by
  have hAbort : Moves k b s (abortRun b .bayDisabled s) := abortRun_moves _
  unfold disableByPhase
  split
  · exact goOffline_moves
  · exact goOffline_moves
  · exact hAbort
  · exact hAbort
  · exact hAbort
  · exact hAbort
  · exact hAbort
  · exact .refl
  · exact .refl

theorem disableBay_moves : ScanMoves (some .enabled) b s (disableBay b s) := by
  refine iteScan_moves (fun _ => ?_) fun _ => .refl
  refine .trans (b := s.modBayXu b fun x => { x with enabled := false }) (modBay_moves ?_).scan
    ((modPass_moves _).trans disableByPhase_moves.scan)
  exact ⟨fun h => absurd rfl h, fun _ => rfl, fun _ => rfl, fun _ => rfl, fun _ => rfl, fun _ _ => rfl, fun _ _ _ => rfl,
    fun _ => rfl⟩

theorem writeBayen_moves (value : Word32) : ScanMoves (some .enabled) b s (writeBayen value b s) :=
  iteScan_moves (fun _ => enableBay_moves.scan) fun _ => disableBay_moves

end

end Sys2Proof.Machine

namespace Sys2Proof.Machine

open Sys2Proof

/-! ## The commands -/

/-- The item that a command has for its own. -/
def owned : Instr → Option OwnItem
  | .resetComplete => some .resetting
  | .xbaseWrite _ _ => some .base
  | .runSet | .runClear => some .run
  | .irqenWrite _ => some .irqen
  | .scanpWrite _ => some .scanp
  | .eventsClear _ => some .events
  | .bayenSet _ | .bayDisable _ => some .enabled
  | .millisecondBoundary _ => some .lid
  | .loadingReadComplete _ _ => some .setup
  | .receipt _ _ => some .values
  | .abortRun _ _ | .withdraw _ _ _ | .clearFaults _ _ | .unknownRequest _ _ | .commandBlockReadComplete _ => some .seq
  | .registerWriteOther offset lanes _ =>
    if lanes ≠ 15 then none
    else match offset.toNat with
      | 0x000 => some .base
      | 0x004 => some .base
      | 0x010 => some .events
      | _ => none
  | _ => none

theorem owned_irqen {c : Instr} (h : owned c = some .irqen) : ∃ on, c = .irqenWrite on := by
  cases c <;> simp only [owned, Option.some.injEq, reduceCtorEq] at h
  · exact ⟨_, rfl⟩
  · split at h
    · simp at h
    · split at h <;> simp at h

section
variable {c : Instr} {b : Bay} {s t : State}

theorem whenUpScan_moves {k : Option OwnItem} {f : State → State} (h : ScanMoves k b s (f s)) :
    ScanMoves k b s (whenUp f s) :=
  iteScan_moves (fun _ => .refl) fun _ => h

theorem whenUp_device {k : Option OwnItem} {f : State → State} (h : DeviceMoves k s (f s)) :
    DeviceMoves k s (whenUp f s) :=
  iteDevice_moves (fun _ => .refl) fun _ => h

theorem whenever_device {k : Option OwnItem} {c : Bool} {f : State → State} (h : c = true → DeviceMoves k s (f s)) :
    DeviceMoves k s (whenever c f s) :=
  iteDevice_moves h fun _ => .refl

theorem receive_keeps (now : RackTime) (f : RxFrame) (n : Network) :
    (receive now f n).setup = n.setup ∧ ∀ i : Fin 8, (receive now f n).taps[i].setup = n.taps[i].setup := by
  have hTap (t : Tap) : (updateTap now f.id f.data t).setup = t.setup := by
    unfold updateTap
    split <;> rfl
  unfold receive
  split
  · exact ⟨rfl, fun _ => rfl⟩
  · split <;> split <;> simp [partnerFound, hTap]

theorem receipt_moves (f : RxFrame) : Moves (some .values) b s (changeNet b (receive s.rackTime f) s) := by
  obtain ⟨hs, ht⟩ := receive_keeps s.rackTime f (s.bay b).net
  have h : Moves (some .values) b s (s.modNet b (receive s.rackTime f)) :=
    modBay_moves ⟨fun _ => rfl, fun _ => rfl, fun _ => rfl, fun _ => hs, fun _ => rfl, fun _ => ht,
      fun _ h => absurd rfl h, fun _ => rfl⟩
  exact ite_moves (fun _ => h) fun _ => h.trans triggerBay_moves

/-- A command of a bay is a run of changes of that bay and of the scan pass. -/
theorem exec_scanMoves (hb : bayOf c = some b) (h : exec c s = .next t) : ScanMoves (owned c) b s t := by
  cases c <;> simp only [bayOf, Option.some.injEq, reduceCtorEq] at hb <;> try subst hb
  all_goals cases h
  case bayenSet => exact whenUpScan_moves enableBay_moves.scan
  case bayDisable => exact whenUpScan_moves disableBay_moves
  case abortRun => exact whenUpScan_moves (bayRequest_moves ((actSeq_moves _).trans (abortRequest_after _))).scan
  case withdraw => exact whenUpScan_moves (bayRequest_moves ((actSeq_moves _).trans (withdrawRequest_after ..))).scan
  case clearFaults => exact whenUpScan_moves (bayRequest_moves ((actSeq_moves _).trans (clearRequest_after _))).scan
  case unknownRequest => exact whenUpScan_moves (bayRequest_moves ((actSeq_moves _).trans (unknownBay_after _))).scan
  case withdrawReadComplete =>
    refine whenUpScan_moves ?_
    split
    · exact withdrawRead_moves ..
    · exact .refl
  case backToBackReadComplete =>
    refine whenUpScan_moves ?_
    split
    · exact (backRead_moves ..).scan
    · exact .refl
  case loadingReadComplete =>
    refine whenUpScan_moves ?_
    split
    · exact (readDone_moves ..).scan
    · exact .refl
  case dwellEnd => exact whenUpScan_moves (dwellEnd_moves _).scan
  case stepEnd => exact whenUpScan_moves (blockReport_moves ..).scan
  case stepTimeout => exact whenUpScan_moves (timeoutEnd_moves _).scan
  case statusBlockWriteComplete => exact whenUpScan_moves statusWriteEnd_moves.scan
  case readTimeout a =>
    refine whenUpScan_moves ?_
    cases a <;> simp only [Option.some.injEq, reduceCtorEq] at hb <;> subst hb
    · exact readFaultWithdrawal_moves _
    · exact (readFaultBackToBack_moves _).scan
    · exact (readFaultLoading_moves _).scan
  case readError a =>
    refine whenUpScan_moves ?_
    cases a <;> simp only [Option.some.injEq, reduceCtorEq] at hb <;> subst hb
    · exact readFaultWithdrawal_moves _
    · exact (readFaultBackToBack_moves _).scan
    · exact (readFaultLoading_moves _).scan
  case writeError => exact whenUpScan_moves (writeFault_moves hb).scan
  case actionReachesTarget => exact whenUpScan_moves (actionReached_moves _).scan
  case pulsePeriodEnd => exact whenUpScan_moves (modStim_moves (endPeriod_setup ..)).scan
  case release => exact whenUpScan_moves (whenever_moves fun _ => releaseEntry_moves _).scan
  case attemptStart => exact whenUpScan_moves (modNet_moves (startAttempt_keeps _)).scan
  case attemptEnd => exact whenUpScan_moves (changeNet_moves (endAttempt_keeps ..)).scan
  case probeTimerExpiry => exact whenUpScan_moves probeExpiry_moves.scan
  case receipt => exact whenUpScan_moves (receipt_moves _).scan
  case tapStale => exact whenUpScan_moves (whenever_moves fun _ => modNet_moves (staleTap_keeps ..)).scan
  case fiRisingEdge => exact whenUpScan_moves (modBay_moves (.refl_fi _)).scan
  case fiEdgeTimeout => exact whenUpScan_moves (whenever_moves fun _ => modBay_moves (.refl_fi _)).scan
  case checkEarlyDecision => exact whenUpScan_moves (checkEnd_moves ..).scan
  case periodEnd => exact whenUpScan_moves (checkEnd_moves ..).scan
  case notSettled => exact whenUpScan_moves settleMissed_moves.scan
  case conditionRecognized => exact whenUpScan_moves (recognize_moves _).scan
  case retryOffTimeEnd => exact whenUpScan_moves offTimeEnd_moves.scan
  case retrySettleFailed => exact whenUpScan_moves settleFailed_moves.scan
  case attentionAsserted => exact (attentionTo_moves _).scan
  case keyYes => exact whenUpScan_moves keyYes_moves.scan
  case keyNo => exact whenUpScan_moves keyNo_moves.scan
  case keyStart => exact whenUpScan_moves keyStart_moves.scan
  case keyAbort => exact whenUpScan_moves keyAbort_moves.scan
  case noAnswer => exact whenUpScan_moves noAnswerDue_moves.scan

/-- A whole write of a register but CTRL is a run of changes of the device that leave what other commands own. -/
theorem registerWrite_device {offset : BitVec 12} {lanes : BitVec 4} {value : Word32}
    (hc : ¬(offset = 0x008 ∧ lanes = 15)) :
    DeviceMoves (owned (.registerWriteOther offset lanes value)) s (registerWrite offset lanes value s) := by
  by_cases hl : lanes = 15
  · subst hl
    have h8 : offset.toNat ≠ 0x008 := fun h => hc ⟨BitVec.eq_of_toNat_eq h, rfl⟩
    simp only [registerWrite, owned, ne_eq, not_true_eq_false, if_false]
    generalize offset.toNat = n at h8 ⊢
    split
    · exact writeXbase_device ..
    · exact writeXbase_device ..
    · exact clearEvents_device _
    · split
      · contradiction
      · contradiction
      · exact absurd rfl h8
      · contradiction
      · exact writeMerr_device _
      · exact nudge_device
      · exact .refl
  · simp only [registerWrite, hl, ne_eq, not_false_eq_true, if_true]
    exact .refl

/-- A command of no single bay, but a part reset and a write of CTRL, is a run of elementary changes of the device. -/
theorem exec_device_of_no_bay (hr : resets c = false) (hc : ∀ v, c ≠ .registerWriteOther 0x008 15 v)
    (hb : bayOf c = none) (h : exec c s = .next t) : DeviceMoves (owned c) s t := by
  cases c <;> simp only [bayOf, reduceCtorEq] at hb
  all_goals cases h
  case partReset => simp [resets] at hr
  case resetComplete => exact whenever_device fun _ => resetDone_device
  case xbaseWrite => exact whenUp_device (writeXbase_device ..)
  case runSet => exact whenUp_device setRun_device
  case runClear => exact whenUp_device clearRun_device
  case irqenWrite => exact whenUp_device (writeIrqen_device _)
  case scanpWrite => exact whenUp_device (writeScanp_device _)
  case reset => simp [resets] at hr
  case eventsClear => exact whenUp_device (clearEvents_device _)
  case merrRead => exact readMerr_device _
  case merrWrite => exact whenUp_device (writeMerr_device _)
  case nudge => exact whenUp_device nudge_device
  case registerWriteOther offset lanes value =>
    exact whenUp_device (registerWrite_device fun ⟨ho, hl⟩ => hc value (by rw [ho, hl]))
  case millisecondBoundary => exact whenUp_device (boundary_device _)
  case scanTimerExpiry => exact whenUp_device (whenever_device timerExpiry_device)
  case commandBlockReadComplete => exact whenUp_device (blockRead_device _)
  case recoverBus => exact whenUp_device (rackRequest_device (recoverRequest_device _))
  case unknownRequest =>
    subst hb
    exact whenUp_device (rackRequest_device (unknownRack_device _))
  case ownershipWordReadComplete => exact whenUp_device (wordRead_device _)
  case statusBlockWriteComplete =>
    subst hb
    exact whenUp_device rackStatusWriteEnd_device
  case readTimeout a =>
    cases a <;> simp only [reduceCtorEq] at hb
    exact whenUp_device (readFaultPass_device _)
  case readError a =>
    cases a <;> simp only [reduceCtorEq] at hb
    exact whenUp_device (readFaultPass_device _)
  case writeError a =>
    cases a <;> simp only [reduceCtorEq] at hb
    refine whenUp_device (iteDevice_moves (fun _ => .refl) fun _ => ?_)
    exact (recordError_moves (b := .bay0) ..).device.trans rackStatusWriteEnd_device
  case transactionBegin => exact whenUp_device (whenever_device fun _ => beginHead_device)
  case transactionEnd => exact whenUp_device (whenever_device fun _ => stopHead_device ..)
  case stretchTimeout => exact whenUp_device (whenever_device fun _ => stretchOut_device)
  case sclRiseAfterTimeout => exact whenUp_device (whenever_device fun _ => sclRise_device _)
  case sclHeld => exact whenUp_device (whenever_device fun _ => enterFailed_device _)
  case arbitrationLost => exact whenUp_device (whenever_device fun _ => loseArbitration_device)
  case otherMasterStart => exact whenUp_device (whenever_device fun _ => otherStart_device ..)
  case otherMasterStop => exact whenUp_device (whenever_device fun _ => otherStop_device)
  case busyOtherTimeout => exact whenUp_device (whenever_device fun _ => busyOver_device)
  case sdaHeldTimeout => exact whenUp_device (whenever_device fun _ => beginRecovery_device)
  case recoveryEnd => exact whenUp_device (whenever_device fun _ => recoveryOver_device ..)
  case recoverySclTimeout => exact whenUp_device (whenever_device fun _ => recoveryHeld_device)
  case fixtureBusLineChange => exact iteDevice_moves (fun _ => modBus_device _) fun _ => lineChange_device ..

/-- Every command but a part reset and a write of CTRL is a run of elementary changes of the device that leave what other
commands own. -/
theorem exec_device (hr : resets c = false) (hc : ∀ v, c ≠ .registerWriteOther 0x008 15 v) (h : exec c s = .next t) :
    DeviceMoves (owned c) s t := by
  cases hb : bayOf c with
  | some b => exact (exec_scanMoves hb h).device
  | none => exact exec_device_of_no_bay hr hc hb h

/-- A write of CTRL without RESET in its stages (R3). -/
theorem writeCtrl_eq {value : Word32} (h : value.getLsbD 31 = false) : writeCtrl value s =
    (if value.getLsbD 0 then setRun else clearRun) (forAll allBays (writeBayen value)
      (writeIrqen (value.getLsbD 5) (writeScanp (BitVec.ofNat 8 (value.toNat / 256)) s))) := by
  simp only [writeCtrl, h, Bool.false_eq_true, if_false]
  split <;> rfl

theorem writeBays_device {value : Word32} : DeviceMoves (some .enabled) s (forAll allBays (writeBayen value) s) :=
  forAll_device fun _ _ => (writeBayen_moves value).device

theorem writeRun_device {value : Word32} :
    DeviceMoves (some .run) s ((if value.getLsbD 0 then setRun else clearRun) s) := by
  split
  · exact setRun_device
  · exact clearRun_device

/-- A write of CTRL that sets no RESET: nothing during a part reset, and its fields one after the other otherwise. -/
theorem exec_writeCtrl {value : Word32} (h : exec (.registerWriteOther 0x008 15 value) s = .next t) :
    (s.xu.resetting = true ∧ t = s) ∨ (s.xu.resetting = false ∧ t = writeCtrl value s) := by
  cases hs : s.xu.resetting <;> simp [exec, execRegisterWriteOther, whenUp, hs, registerWrite] at h <;> simp [← h]

end

end Sys2Proof.Machine

namespace Sys2Proof.Machine

open Sys2Proof

/-! ## The stream, the events and their interrupt messages -/

/-- How many EVENTS bits have gone from 0 to 1. -/
def newBits (e f : Word32) : Nat := ((List.range 32).filter fun n => !e.getLsbD n && f.getLsbD n).length

theorem newBits_self (e : Word32) : newBits e e = 0 := by simp [newBits]

/-- Bits that rise first to one set and then to a larger one rise once each. -/
theorem newBits_add {e f g : Word32} (hef : ∀ n, e.getLsbD n = true → f.getLsbD n = true)
    (hfg : ∀ n, f.getLsbD n = true → g.getLsbD n = true) : newBits e g = newBits e f + newBits f g := by
  simp only [newBits]
  induction List.range 32 with
  | nil => rfl
  | cons n rest ih =>
    have h1 := hef n
    have h2 := hfg n
    cases he : e.getLsbD n <;> cases hf : f.getLsbD n <;> cases hg : g.getLsbD n <;>
      simp_all <;> omega

/-- Bit k of EVENTS set. -/
theorem getLsbD_setBit (e : Word32) {n : Nat} (hn : n < 32) (k : Nat) :
    (e ||| BitVec.ofNat 32 (2 ^ n)).getLsbD k = (e.getLsbD k || decide (k = n)) := by
  rw [BitVec.getLsbD_or, BitVec.getLsbD_ofNat, Nat.testBit_two_pow]
  by_cases h : k = n
  · subst h
    simp [hn]
  · simp [h, Ne.symm h]

/-- One bit set is a new one when it was 0, and none when it was 1. -/
theorem newBits_setBit (e : Word32) {n : Nat} (hn : n < 32) :
    newBits e (e ||| BitVec.ofNat 32 (2 ^ n)) = if e.getLsbD n then 0 else 1 := by
  have h : ∀ k ∈ List.range 32,
      (!e.getLsbD k && (e ||| BitVec.ofNat 32 (2 ^ n)).getLsbD k) = (!e.getLsbD n && k == n) := by
    intro k _
    rw [getLsbD_setBit e hn]
    by_cases hk : k = n
    · subst hk
      simp
    · simp [hk]
  rw [newBits, List.filter_congr h]
  cases he : e.getLsbD n
  · have hc : (List.range 32).count n = 1 := List.count_eq_one_of_mem List.nodup_range (List.mem_range.mpr hn)
    simpa [List.count, List.countP_eq_length_filter] using hc
  · simp

/-- From one state to another the stream has only been added to, event bits have only been set, and one interrupt message has
been issued for each bit set anew while IRQEN = 1 (R24 to R26). -/
structure Grows (s t : State) : Prop where
  stream : ∃ l, t.xu.stream = s.xu.stream ++ l ∧
    l.count .interrupt = if s.xu.irqen then newBits s.xu.events t.xu.events else 0
  events : ∀ n, s.xu.events.getLsbD n = true → t.xu.events.getLsbD n = true
  irqen : t.xu.irqen = s.xu.irqen

/-- With the events, the stream and IRQEN as they were, nothing has been issued. -/
theorem Grows.of_eq {s t : State} (he : t.xu.events = s.xu.events) (hs : t.xu.stream = s.xu.stream)
    (hi : t.xu.irqen = s.xu.irqen) : Grows s t :=
  ⟨⟨[], by simp [hs], by simp [he, newBits_self]⟩, fun n h => by rwa [he], hi⟩

theorem Grows.trans {s t u : State} (h : Grows s t) (g : Grows t u) : Grows s u where
  stream := by
    obtain ⟨l, hl, cl⟩ := h.stream
    obtain ⟨m, hm, cm⟩ := g.stream
    refine ⟨l ++ m, by rw [hm, hl, List.append_assoc], ?_⟩
    rw [List.count_append, cl, cm, h.irqen, newBits_add h.events g.events]
    split <;> rfl
  events n hn := g.events n (h.events n hn)
  irqen := g.irqen.trans h.irqen

@[simp] theorem setEvent_irqen (n : Nat) (s : State) : (setEvent n s).xu.irqen = s.xu.irqen := by
  simp only [setEvent]
  split <;> rfl

/-- What setting an event issues: one interrupt message when the bit was 0 and IRQEN = 1 (R26). -/
theorem setEvent_stream (n : Nat) (s : State) : (setEvent n s).xu.stream =
    s.xu.stream ++ if !s.xu.events.getLsbD n && s.xu.irqen then [.interrupt] else [] := by
  simp only [setEvent]
  split <;> simp

theorem setEvent_grows {n : Nat} (hn : n < 32) (s : State) : Grows s (setEvent n s) where
  stream := by
    refine ⟨_, setEvent_stream n s, ?_⟩
    rw [setEvent_events, newBits_setBit _ hn]
    cases s.xu.events.getLsbD n <;> cases s.xu.irqen <;> rfl
  events k hk := by simp [hk]
  irqen := setEvent_irqen n s

theorem Move.grows {k : Option OwnItem} {b : Bay} {s t : State} (h : Move k b s t) : Grows s t := by
  cases h with
  | write kind o d => exact ⟨⟨[_], rfl, by simp [writeArea, emit, newBits_self]⟩, fun _ h => h, rfl⟩
  | event n h => exact setEvent_grows (by omega) s
  | _ => exact .of_eq rfl rfl rfl

/-- Whatever command does not own EVENTS or IRQEN only adds to the stream and sets events. -/
theorem DeviceMoves.grows {k : Option OwnItem} {s t : State} (he : k ≠ some .events) (hi : k ≠ some .irqen)
    (h : DeviceMoves k s t) : Grows s t := by
  induction h with
  | refl => exact .of_eq rfl rfl rfl
  | tail _ hm ih =>
    refine ih.trans ?_
    cases hm with
    | bay b h => exact h.grows
    | bus f => exact .of_eq rfl rfl rfl
    | xu f h => exact .of_eq (h.events he) h.stream (h.irqen hi)
    | time => exact .of_eq rfl rfl rfl

/-- What has been issued is what the stream has been added. -/
theorem issued_of_append {s t : State} {l : List StreamItem} (h : t.xu.stream = s.xu.stream ++ l) : issued s t = l := by
  simp [issued, h]

theorem Grows.interrupts {s t : State} (h : Grows s t) :
    (issued s t).count .interrupt = if t.xu.irqen then newBits s.xu.events t.xu.events else 0 := by
  obtain ⟨l, hl, hc⟩ := h.stream
  rw [issued_of_append hl, hc, h.irqen]

theorem Grows.stream_isPrefix {s t : State} (h : Grows s t) : s.xu.stream <+: t.xu.stream := by
  obtain ⟨l, hl, -⟩ := h.stream
  exact ⟨l, hl.symm⟩

/-- With the stream as it was and no event bit raised, no message has been issued. -/
theorem interrupts_of_quiet {s t : State} (hs : t.xu.stream = s.xu.stream)
    (he : ∀ n, t.xu.events.getLsbD n = true → s.xu.events.getLsbD n = true) :
    (issued s t).count .interrupt = if t.xu.irqen then newBits s.xu.events t.xu.events else 0 := by
  have hn : newBits s.xu.events t.xu.events = 0 := by
    simp only [newBits, List.length_eq_zero_iff, List.filter_eq_nil_iff]
    intro n _ h
    have := he n
    simp_all
  simp [issued, hs, hn]

/-! ### The commands that own EVENTS or IRQEN -/

theorem exec_irqenWrite (on : Bool) (s : State) :
    exec (.irqenWrite on) s = .next s ∨ exec (.irqenWrite on) s = .next (writeIrqen on s) := by
  cases hs : s.xu.resetting <;> simp [exec, execIrqenWrite, whenUp, hs]

/-- A command that owns EVENTS clears the bits of a mask, or changes nothing. -/
theorem exec_ownsEvents {c : Instr} {s t : State} (ho : owned c = some .events) (h : exec c s = .next t) :
    (∃ mask, c = .eventsClear mask ∨ c = .registerWriteOther 0x010 15 mask) ∧
      (t = s ∨ ∃ mask, t = clearEvents mask s) := by
  cases c <;> simp only [owned, Option.some.injEq, reduceCtorEq] at ho
  case eventsClear mask =>
    cases h
    exact ⟨⟨mask, .inl rfl⟩, by unfold whenUp; split; exacts [.inl rfl, .inr ⟨mask, rfl⟩]⟩
  case registerWriteOther offset lanes value =>
    split at ho
    · simp at ho
    · next hl =>
      obtain rfl : lanes = 15 := by simpa using hl
      split at ho <;> simp only [Option.some.injEq, reduceCtorEq] at ho
      next h10 =>
        obtain rfl : offset = 0x010 := BitVec.eq_of_toNat_eq h10
        cases h
        refine ⟨⟨value, .inr rfl⟩, ?_⟩
        unfold whenUp
        split
        · exact .inl rfl
        · exact .inr ⟨value, rfl⟩

theorem clearEvents_quiet (mask : Word32) (s : State) :
    ∀ n, (clearEvents mask s).xu.events.getLsbD n = true → s.xu.events.getLsbD n = true := by
  intro n h
  simp only [clearEvents, modXu_xu, BitVec.getLsbD_and, Bool.and_eq_true] at h
  exact h.1

@[simp] theorem writeScanp_stream (value : Byte) (s : State) : (writeScanp value s).xu.stream = s.xu.stream := by
  simp only [writeScanp]
  split
  · rfl
  · split <;> rfl

@[simp] theorem writeScanp_events (value : Byte) (s : State) : (writeScanp value s).xu.events = s.xu.events := by
  simp only [writeScanp]
  split
  · rfl
  · split <;> rfl

/-- A write of CTRL without RESET: IRQEN is written first, and the rest only adds to the stream and sets events. -/
theorem writeCtrl_grows {value : Word32} (h : value.getLsbD 31 = false) (s : State) :
    ∃ v : State, v.xu.stream = s.xu.stream ∧ v.xu.events = s.xu.events ∧ Grows v (writeCtrl value s) := by
  refine ⟨writeIrqen (value.getLsbD 5) (writeScanp (BitVec.ofNat 8 (value.toNat / 256)) s), by simp [writeIrqen],
    by simp [writeIrqen], ?_⟩
  have hBays : Grows _ _ := (writeBays_device (value := value)
    (s := writeIrqen (value.getLsbD 5) (writeScanp (BitVec.ofNat 8 (value.toNat / 256)) s))).grows (by decide) (by decide)
  have hRun : Grows _ _ := (writeRun_device (value := value)
    (s := forAll allBays (writeBayen value) (writeIrqen (value.getLsbD 5)
      (writeScanp (BitVec.ofNat 8 (value.toNat / 256)) s)))).grows (by decide) (by decide)
  rw [writeCtrl_eq h]
  exact hBays.trans hRun

/-! ### The rules of the stream and the events, over all commands -/

/-- A command either only adds to the stream and sets events, IRQEN being the one before or, in a write of IRQEN or CTRL, the
one written, or it clears events and issues nothing. -/
theorem exec_grows {c : Instr} {s t : State} (hr : resets c = false) (h : exec c s = .next t) :
    (∃ v : State, v.xu.stream = s.xu.stream ∧ v.xu.events = s.xu.events ∧ Grows v t) ∨
      ((∃ mask, c = .eventsClear mask ∨ c = .registerWriteOther 0x010 15 mask) ∧ ∃ mask, t = clearEvents mask s) := by
  by_cases hc : ∃ v, c = .registerWriteOther 0x008 15 v
  · obtain ⟨v, rfl⟩ := hc
    rcases exec_writeCtrl h with ⟨-, rfl⟩ | ⟨-, rfl⟩
    · exact .inl ⟨t, rfl, rfl, .of_eq rfl rfl rfl⟩
    · exact .inl (writeCtrl_grows (by simpa [resets] using hr) s)
  · have hm := exec_device hr (fun v hv => hc ⟨v, hv⟩) h
    by_cases he : owned c = some .events
    · obtain ⟨hmask, rfl | ht⟩ := exec_ownsEvents he h
      · exact .inl ⟨t, rfl, rfl, .of_eq rfl rfl rfl⟩
      · exact .inr ⟨hmask, ht⟩
    · by_cases hi : owned c = some .irqen
      · obtain ⟨on, rfl⟩ := owned_irqen hi
        rcases exec_irqenWrite on s with ht | ht <;> obtain rfl := Host.Outcome.next.inj (ht.symm.trans h)
        · exact .inl ⟨s, rfl, rfl, .of_eq rfl rfl rfl⟩
        · exact .inl ⟨writeIrqen on s, rfl, rfl, .of_eq rfl rfl rfl⟩
      · exact .inl ⟨s, rfl, rfl, hm.grows he hi⟩

/-- Settles O58: every elementary change of the device but the clearing of EVENTS only adds to the stream and sets events. -/
theorem streamAndEventsOnlyGrow : Obligations.StreamAndEventsOnlyGrow := by
  intro c s t hr h
  rcases exec_grows hr h with ⟨v, hs, he, hg⟩ | ⟨⟨mask, hm⟩, m, rfl⟩
  · exact ⟨hs ▸ hg.stream_isPrefix, fun _ _ n hn => hg.events n (by rwa [he])⟩
  · exact ⟨⟨[], by simp [clearEvents]⟩, fun h1 h2 => hm.elim (fun h => absurd h (h1 mask)) fun h => absurd h (h2 mask)⟩

/-- Settles O59: every elementary change that sets an event issues its message, and no other one issues any. -/
theorem interruptPerNewEvent : Obligations.InterruptPerNewEvent := by
  intro c s t hr h
  refine ⟨?_, ?_⟩
  · change _ = if t.xu.irqen then newBits s.xu.events t.xu.events else 0
    rcases exec_grows hr h with ⟨v, hs, he, hg⟩ | ⟨-, m, rfl⟩
    · have hv : issued s t = issued v t := by simp [issued, hs]
      rw [hv, ← he]
      exact hg.interrupts
    · exact interrupts_of_quiet rfl (clearEvents_quiet m s)
  · rintro on rfl
    rcases exec_irqenWrite on s with ht | ht <;> obtain rfl := Host.Outcome.next.inj (ht.symm.trans h) <;>
      simp [issued, writeIrqen]

end Sys2Proof.Machine

namespace Sys2Proof.Machine

open Sys2Proof

/-! ## Isolation of the bays -/

/-- Settles O56: every elementary change that a command of a bay makes leaves everything outside that bay and the scan pass as
it is. -/
theorem baysAreIsolated : Obligations.BaysAreIsolated := by
  intro c b s t hb h
  have hout := (exec_scanMoves hb h).outside_eq
  have keep {α : Type} (g : State → α) (hg : ∀ u, g (outsideScan b u) = g u) : g t = g s := by
    rw [← hg t, hout, hg s]
  refine ⟨fun o ho => keep (·.bay o) fun u => outside_bay ho u, ?_⟩
  exact ⟨keep (·.pending) fun _ => rfl, keep (·.rackTime) fun _ => rfl, keep (·.tick) fun _ => rfl,
    keep (·.xu.xbaseLo) fun _ => rfl, keep (·.xu.xbaseHi) fun _ => rfl, keep (·.xu.run) fun _ => rfl,
    keep (·.xu.irqen) fun _ => rfl, keep (·.xu.scanp) fun _ => rfl, keep (·.xu.scanTimer) fun _ => rfl,
    keep (·.xu.rackSeq) fun _ => rfl, keep (·.xu.rackWrite) fun _ => rfl, keep (·.bus.state) fun _ => rfl,
    keep (·.bus.onBus) fun _ => rfl, keep (·.bus.cause) fun _ => rfl, keep (·.bus.scl) fun _ => rfl,
    keep (·.bus.sda) fun _ => rfl, keep (·.bus.fast) fun _ => rfl⟩

/-! ## The items that commands of their own change -/

/-- The device keeps the items that have commands of their own, but for those of `k`. -/
structure DeviceKeeps (k : Option OwnItem) (s t : State) : Prop where
  time : k ≠ some .lid → t.rackTime = s.rackTime ∧ t.tick = s.tick
  base : k ≠ some .base → t.xu.xbaseLo = s.xu.xbaseLo ∧ t.xu.xbaseHi = s.xu.xbaseHi
  run : k ≠ some .run → t.xu.run = s.xu.run
  irqen : k ≠ some .irqen → t.xu.irqen = s.xu.irqen
  scanp : k ≠ some .scanp → t.xu.scanp = s.xu.scanp
  resetting : k ≠ some .resetting → t.xu.resetting = s.xu.resetting
  bays : ∀ b, Keeps k (s.bay b) (t.bay b)

theorem DeviceKeeps.refl (k : Option OwnItem) (s : State) : DeviceKeeps k s s :=
  ⟨fun _ => ⟨rfl, rfl⟩, fun _ => ⟨rfl, rfl⟩, fun _ => rfl, fun _ => rfl, fun _ => rfl, fun _ => rfl,
    fun _ => .refl _ _⟩

theorem DeviceKeeps.trans {k : Option OwnItem} {s t u : State} (h : DeviceKeeps k s t) (g : DeviceKeeps k t u) :
    DeviceKeeps k s u where
  time hk := ⟨(g.time hk).1.trans (h.time hk).1, (g.time hk).2.trans (h.time hk).2⟩
  base hk := ⟨(g.base hk).1.trans (h.base hk).1, (g.base hk).2.trans (h.base hk).2⟩
  run hk := (g.run hk).trans (h.run hk)
  irqen hk := (g.irqen hk).trans (h.irqen hk)
  scanp hk := (g.scanp hk).trans (h.scanp hk)
  resetting hk := (g.resetting hk).trans (h.resetting hk)
  bays b := (h.bays b).trans (g.bays b)

/-- An operation of a bay changes that bay alone, within what it keeps. -/
theorem Move.bays {k : Option OwnItem} {b : Bay} {s t : State} (h : Move k b s t) (o : Bay) :
    Keeps k (s.bay o) (t.bay o) := by
  cases h with
  | bay f hf =>
    by_cases ho : o = b
    · subst ho
      simpa using hf
    · rw [bay_modBay_of_ne _ ho]
      exact .refl _ _
  | event n => simpa using Keeps.refl k (s.bay o)
  | _ => exact .refl _ _

theorem DeviceMove.keeps {k : Option OwnItem} {s t : State} (h : DeviceMove k s t) : DeviceKeeps k s t := by
  cases h with
  | bay b h =>
    have keep {α : Type} (g : State → α) (hg : ∀ u, g (outside b u) = g u) : g t = g s := by
      rw [← hg t, h.outside_eq, hg s]
    exact ⟨fun _ => ⟨keep (·.rackTime) fun _ => rfl, keep (·.tick) fun _ => rfl⟩,
      fun _ => ⟨keep (·.xu.xbaseLo) fun _ => rfl, keep (·.xu.xbaseHi) fun _ => rfl⟩, fun _ => keep (·.xu.run) fun _ => rfl,
      fun _ => keep (·.xu.irqen) fun _ => rfl, fun _ => keep (·.xu.scanp) fun _ => rfl,
      fun _ => keep (·.xu.resetting) fun _ => rfl, h.bays⟩
  | bus f => exact ⟨fun _ => ⟨rfl, rfl⟩, fun _ => ⟨rfl, rfl⟩, fun _ => rfl, fun _ => rfl, fun _ => rfl, fun _ => rfl,
      fun _ => .refl _ _⟩
  | xu f h => exact ⟨fun _ => ⟨rfl, rfl⟩, h.base, h.run, h.irqen, h.scanp, h.resetting, fun _ => .refl _ _⟩
  | time h =>
    exact ⟨fun hk => absurd h hk, fun _ => ⟨rfl, rfl⟩, fun _ => rfl, fun _ => rfl, fun _ => rfl, fun _ => rfl,
      fun _ => .refl _ _⟩

theorem DeviceMoves.keeps {k : Option OwnItem} {s t : State} (h : DeviceMoves k s t) : DeviceKeeps k s t := by
  induction h with
  | refl => exact .refl k s
  | tail _ hm ih => exact ih.trans hm.keeps

/-- With BAYEN left out, a bay keeps what a change that owns none of its other items keeps. -/
theorem Keeps.but_enabled {k : Option OwnItem} {y z : BayState} (h : Keeps k y z) (hl : k ≠ some .lid)
    (hs : k ≠ some .setup) (hv : k ≠ some .values) (hq : k ≠ some .seq) : Keeps (some .enabled) y z :=
  ⟨fun h => absurd rfl h, fun _ => h.lidOpen hl, fun _ => h.stim hs, fun _ => h.net hs, fun _ => h.supply hs,
    fun _ => h.taps hs, fun _ _ => h.values hs hv, fun _ => h.seq hq⟩

/-- A write of CTRL without RESET keeps of every bay all but BAYEN, and goes on outside a part reset. -/
theorem writeCtrl_keeps {value : Word32} (h : value.getLsbD 31 = false) (s : State) :
    (∀ b, Keeps (some .enabled) (s.bay b) ((writeCtrl value s).bay b)) ∧
      (writeCtrl value s).xu.resetting = s.xu.resetting := by
  rw [writeCtrl_eq h]
  have hScanp := (writeScanp_device (BitVec.ofNat 8 (value.toNat / 256)) (s := s)).keeps
  have hIrqen := (writeIrqen_device (value.getLsbD 5)
    (s := writeScanp (BitVec.ofNat 8 (value.toNat / 256)) s)).keeps
  have hBays := (writeBays_device (value := value)
    (s := writeIrqen (value.getLsbD 5) (writeScanp (BitVec.ofNat 8 (value.toNat / 256)) s))).keeps
  have hRun := (writeRun_device (value := value) (s := forAll allBays (writeBayen value)
    (writeIrqen (value.getLsbD 5) (writeScanp (BitVec.ofNat 8 (value.toNat / 256)) s)))).keeps
  constructor
  · intro b
    have h1 := (hScanp.bays b).but_enabled (by decide) (by decide) (by decide) (by decide)
    have h2 := (hIrqen.bays b).but_enabled (by decide) (by decide) (by decide) (by decide)
    have h4 := (hRun.bays b).but_enabled (by decide) (by decide) (by decide) (by decide)
    exact ((h1.trans h2).trans (hBays.bays b)).trans h4
  · rw [hRun.resetting (by decide), hBays.resetting (by decide), hIrqen.resetting (by decide),
      hScanp.resetting (by decide)]

/-- Which commands own an item. -/
theorem owned_cases (c : Instr) :
    (owned c = some .lid → ∃ i, c = .millisecondBoundary i) ∧
      (owned c = some .run → c = .runSet ∨ c = .runClear) ∧ (owned c = some .scanp → ∃ v, c = .scanpWrite v) ∧
      (owned c = some .base → (∃ h v, c = .xbaseWrite h v) ∨ (∃ v, c = .registerWriteOther 0x000 15 v) ∨
        ∃ v, c = .registerWriteOther 0x004 15 v) ∧
      (owned c = some .enabled → ∃ b, c = .bayenSet b ∨ c = .bayDisable b) ∧
      (owned c = some .setup → ∃ b d, c = .loadingReadComplete b d) ∧
      (owned c = some .values → ∃ b f, c = .receipt b f) ∧
      (owned c = some .resetting → c = .resetComplete) := by
  cases c
  case registerWriteOther offset lanes value =>
    by_cases hl : lanes = 15
    · subst hl
      simp only [owned, ne_eq, not_true_eq_false, if_false]
      split
      · next h =>
        obtain rfl : offset = 0x000 := BitVec.eq_of_toNat_eq h
        simp
      · next h =>
        obtain rfl : offset = 0x004 := BitVec.eq_of_toNat_eq h
        simp
      · simp
      · simp
    · have ho : owned (.registerWriteOther offset lanes value) = none := by
        simp only [owned, ne_eq, hl, not_false_eq_true, if_true]
      rw [ho]
      simp
  all_goals simp [owned]

/-- Outside a bay's own command that bay is left as it is. -/
theorem exec_other_bay {c : Instr} {b o : Bay} {s t : State} (hb : bayOf c = some b) (ho : o ≠ b)
    (h : exec c s = .next t) : t.bay o = s.bay o :=
  (baysAreIsolated c b s t hb h).1 o ho

/-- Settles O60: every elementary change keeps what its command does not own, and a command of another bay keeps the bay. -/
theorem stateChangesOnlyByItsCommands : Obligations.StateChangesOnlyByItsCommands := by
  constructor
  · intro c s t hr hc h
    have hk := (exec_device hr hc h).keeps
    obtain ⟨hLid, hRun, hScanp, hBase, hEnabled, -⟩ := owned_cases c
    refine ⟨fun hi => ?_, fun h1 h2 h3 => ?_, fun h1 h2 => ?_, fun hi => ?_, fun hv => ?_, fun b h1 h2 => ?_⟩
    · have hne : owned c ≠ some .lid := fun ho => (hLid ho).elim hi
      exact ⟨(hk.time hne).1, (hk.time hne).2, fun b => (hk.bays b).lidOpen hne⟩
    · have hne : owned c ≠ some .base := fun ho => by
        rcases hBase ho with ⟨x, v, rfl⟩ | ⟨v, rfl⟩ | ⟨v, rfl⟩
        · exact h1 x v rfl
        · exact h2 v rfl
        · exact h3 v rfl
      simp only [xbase, hk.base hne]
    · exact hk.run fun ho => (hRun ho).elim h1 h2
    · exact hk.irqen fun ho => (owned_irqen ho).elim hi
    · exact hk.scanp fun ho => (hScanp ho).elim hv
    · by_cases ho : owned c = some .enabled
      · obtain ⟨o, rfl | rfl⟩ := hEnabled ho
        · rw [exec_other_bay rfl (fun hb => h1 (by rw [hb])) h]
        · rw [exec_other_bay rfl (fun hb => h2 (by rw [hb])) h]
      · exact (hk.bays b).enabled ho
  · intro c s t b hr hload h
    by_cases hc : ∃ v, c = .registerWriteOther 0x008 15 v
    · obtain ⟨v, rfl⟩ := hc
      have hk : Keeps (some .enabled) (s.bay b) (t.bay b) := by
        rcases exec_writeCtrl h with ⟨-, rfl⟩ | ⟨-, rfl⟩
        · exact .refl _ _
        · exact (writeCtrl_keeps (by simpa [resets] using hr) s).1 b
      exact ⟨hk.stim (by decide), hk.net (by decide), hk.supply (by decide),
        fun i => ⟨hk.taps (by decide) i, fun _ => hk.values (by decide) (by decide) i⟩⟩
    · obtain ⟨-, -, -, -, -, hSetup, hValues, -⟩ := owned_cases c
      have hk := (exec_device hr (fun v hv => hc ⟨v, hv⟩) h).keeps.bays b
      by_cases hs : owned c = some .setup
      · obtain ⟨o, d, rfl⟩ := hSetup hs
        rw [exec_other_bay rfl (fun hb => hload d (by rw [hb])) h]
        exact ⟨rfl, rfl, rfl, fun _ => ⟨rfl, fun _ => rfl⟩⟩
      · refine ⟨hk.stim hs, hk.net hs, hk.supply hs, fun i => ⟨hk.taps hs i, fun hf => ?_⟩⟩
        by_cases hv : owned c = some .values
        · obtain ⟨o, f, rfl⟩ := hValues hv
          rw [exec_other_bay rfl (fun hb => hf f (by rw [hb])) h]
        · exact hk.values hs hv i

/-- A command that is no part reset and no completion of one leaves the part up when it is up. -/
theorem exec_resetting_eq {c : Instr} {s t : State} (hr : resets c = false) (hc : c ≠ .resetComplete)
    (h : exec c s = .next t) : t.xu.resetting = s.xu.resetting := by
  by_cases hctrl : ∃ v, c = .registerWriteOther 0x008 15 v
  · obtain ⟨v, rfl⟩ := hctrl
    rcases exec_writeCtrl h with ⟨-, rfl⟩ | ⟨-, rfl⟩
    · rfl
    · exact (writeCtrl_keeps (by simpa [resets] using hr) s).2
  · exact (exec_device hr (fun v hv => hctrl ⟨v, hv⟩) h).keeps.resetting fun ho => hc ((owned_cases c).2.2.2.2.2.2.2 ho)

/-! ## The law of the register window -/

theorem Move.registerLaw {k : Option OwnItem} {b : Bay} {s t : State} (h : Move k b s t) (l : RegisterLaw s.xu) :
    RegisterLaw t.xu := by
  have hx {x : Exchange} (hx : t.xu = x) (hl : RegisterLaw x) : RegisterLaw t.xu := hx ▸ hl
  cases h with
  | event n hn =>
    have hkeep : ∀ u : State, ∀ i, RegisterLaw u.xu → RegisterLaw (emit i u).xu := fun u i l =>
      ⟨l.base, l.interval, l.events, l.timer, l.follow⟩
    have hset : RegisterLaw (s.modXu fun x => { x with events := x.events ||| BitVec.ofNat 32 (2 ^ n) }).xu := by
      refine ⟨l.base, l.interval, fun m hm => ?_, l.timer, l.follow⟩
      simp only [modXu_xu, getLsbD_setBit _ (show n < 32 by omega), l.events m hm, Bool.false_or, decide_eq_false_iff_not]
      omega
    simp only [setEvent]
    split
    · exact hkeep _ _ hset
    · exact hset
  | error m hm => exact ⟨l.base, by simpa [hm] using l.interval, l.events, l.timer, l.follow⟩
  | _ => exact ⟨l.base, l.interval, l.events, l.timer, l.follow⟩

/-- Every elementary change of the device keeps the law of the register window. -/
theorem DeviceMoves.registerLaw {k : Option OwnItem} {s t : State} (h : DeviceMoves k s t) (l : RegisterLaw s.xu) :
    RegisterLaw t.xu := by
  induction h with
  | refl => exact l
  | tail _ hm ih =>
    cases hm with
    | bay b h => exact h.registerLaw ih
    | bus f => exact ih
    | xu f h => exact h.law ih
    | time => exact ih

theorem reset_registerLaw : RegisterLaw Exchange.reset :=
  ⟨by decide, by decide, fun n _ => by simp [Exchange.reset], rfl, nofun⟩

theorem partReset_registerLaw (s : State) : RegisterLaw (partReset s).xu :=
  ⟨reset_registerLaw.base, reset_registerLaw.interval, reset_registerLaw.events, rfl, nofun⟩

theorem partReset_resetLaw (s : State) : ResetLaw (partReset s) := fun _ => ⟨rfl, rfl, rfl, rfl, rfl⟩

/-- What a part reset does, and a reset during another one nothing at all. -/
theorem exec_resets {c : Instr} {s t : State} (hr : resets c = true) (h : exec c s = .next t) : t = partReset s ∨ t = s := by
  cases c <;> simp only [resets, Bool.false_eq_true] at hr
  case partReset => exact .inl (Host.Outcome.next.inj h).symm
  case reset =>
    cases h
    unfold whenUp
    split
    · exact .inr rfl
    · exact .inl rfl
  case registerWriteOther offset lanes value =>
    simp only [Bool.and_eq_true, decide_eq_true_eq] at hr
    obtain ⟨⟨rfl, rfl⟩, hv⟩ := hr
    rcases exec_writeCtrl h with ⟨-, rfl⟩ | ⟨-, rfl⟩
    · exact .inr rfl
    · exact .inl (by simp [writeCtrl, hv])

theorem exec_registerLaw {c : Instr} {s t : State} (l : RegisterLaw s.xu) (h : exec c s = .next t) : RegisterLaw t.xu := by
  cases hr : resets c with
  | true =>
    rcases exec_resets hr h with rfl | rfl
    · exact partReset_registerLaw s
    · exact l
  | false =>
    by_cases hc : ∃ v, c = .registerWriteOther 0x008 15 v
    · obtain ⟨v, rfl⟩ := hc
      rcases exec_writeCtrl h with ⟨-, rfl⟩ | ⟨-, rfl⟩
      · exact l
      · rw [writeCtrl_eq (by simpa [resets] using hr)]
        exact writeRun_device.registerLaw (writeBays_device.registerLaw ((writeIrqen_device _).registerLaw
          ((writeScanp_device _).registerLaw l)))
    · exact (exec_device hr (fun v hv => hc ⟨v, hv⟩) h).registerLaw l

/-! ### Commands during a part reset (R4) -/

/-- During a part reset the commands with an effect are another part reset, the completion, a read of MERR and the changes of
pins. -/
theorem exec_resetting {c : Instr} {s : State} (hs : s.xu.resetting = true) (h1 : c ≠ .partReset) (h2 : c ≠ .resetComplete)
    (h3 : ∀ lanes, c ≠ .merrRead lanes) (h4 : ∀ b, c ≠ .attentionAsserted b)
    (h5 : ∀ scl sda, c ≠ .fixtureBusLineChange scl sda) : exec c s = .next s := by
  have hw (f : State → State) : Host.Outcome.next (φ := Fault) (ρ := Refusal) (whenUp f s) = .next s := by
    rw [whenUp_resetting hs]
  cases c
  case partReset => exact absurd rfl h1
  case resetComplete => exact absurd rfl h2
  case merrRead lanes => exact absurd rfl (h3 lanes)
  case attentionAsserted b => exact absurd rfl (h4 b)
  case fixtureBusLineChange scl sda => exact absurd rfl (h5 scl sda)
  all_goals exact hw _

/-- The bus but for its lines, of which the law of a part reset says nothing. -/
theorem ResetLaw.of_bus {s t : State} (l : ResetLaw s) (hs : s.xu.resetting = true)
    (hb : t.bus = { s.bus with scl := t.bus.scl, sda := t.bus.sda }) : ResetLaw t := fun _ => by
  rw [hb]
  exact l hs

/-- RESET_COMPLETE ends the part reset, and without one in progress changes nothing. -/
theorem exec_resetComplete (s : State) :
    exec .resetComplete s = .next (if s.xu.resetting then resetDone s else s) := rfl

theorem resetDone_resetting (s : State) : (resetDone s).xu.resetting = false := by
  have h1 : ∀ u : State, u.xu.resetting = false → (enterBusyOther u).xu.resetting = false := fun u hu =>
    (enterBusyOther_device.keeps.resetting (k := none) (by decide)).trans hu
  have h2 : ∀ u : State, u.xu.resetting = false → (forAll allBays pollKeys u).xu.resetting = false := fun u hu =>
    ((forAll_device fun _ _ => pollKeys_moves.device).keeps.resetting (k := none) (by decide)).trans hu
  refine h2 _ ?_
  split
  · rfl
  · exact h1 _ rfl

/-- The bus stays quiet during a part reset. -/
theorem exec_resetLaw {c : Instr} {s t : State} (l : ResetLaw s) (h : exec c s = .next t) : ResetLaw t := by
  intro ht
  by_cases hr : resets c = true
  · rcases exec_resets hr h with rfl | rfl
    · exact partReset_resetLaw s ht
    · exact l ht
  simp only [Bool.not_eq_true] at hr
  by_cases hc : c = .resetComplete
  · subst hc
    obtain rfl := Host.Outcome.next.inj ((exec_resetComplete s).symm.trans h)
    split at ht
    · simp [resetDone_resetting] at ht
    · next hs => exact absurd ht hs
  have hs : s.xu.resetting = true := (exec_resetting_eq hr hc h).symm.trans ht
  refine ResetLaw.of_bus l hs ?_ ht
  by_cases h3 : ∃ lanes, c = .merrRead lanes
  · obtain ⟨lanes, rfl⟩ := h3
    cases h
    rfl
  by_cases h4 : ∃ b, c = .attentionAsserted b
  · obtain ⟨b, rfl⟩ := h4
    cases h
    simp [attentionTo, hs]
  by_cases h5 : ∃ scl sda, c = .fixtureBusLineChange scl sda
  · obtain ⟨scl, sda, rfl⟩ := h5
    simp only [exec, execFixtureBusLineChange, hs, if_true, Host.Outcome.next.injEq] at h
    rw [← h]
    rfl
  have h1 : c ≠ .partReset := by
    rintro rfl
    simp [resets] at hr
  simp only [not_exists] at h3 h4 h5
  obtain rfl := Host.Outcome.next.inj ((exec_resetting hs h1 hc h3 h4 h5).symm.trans h)
  rfl

/-- Settles O50: every elementary change keeps the law of the register window, and during a part reset none touches the bus
but the changes of its lines. -/
theorem registerLawKept : Obligations.RegisterLawKept := by
  intro s t hl h
  unfold step at h
  split at h
  · obtain rfl := Host.Outcome.next.inj h
    exact ⟨hl.register, hl.reset⟩
  · next c rest _ =>
    exact ⟨exec_registerLaw (s := { s with pending := rest }) hl.register h,
      exec_resetLaw (s := { s with pending := rest }) hl.reset h⟩

end Sys2Proof.Machine

namespace Sys2Proof.Machine

open Sys2Proof

/-! ## The status block writes as the statements speak of them -/

/-- A copy of the status block does not show how its own write stands (R17). -/
theorem bayStatusBytes_congr {b : Bay} {w : WriteProgress} {s t : State}
    (hy : t.bay b = { s.bay b with xu := { (s.bay b).xu with write := w } }) (hq : t.bus.queue = s.bus.queue)
    (ht : t.rackTime = s.rackTime) : bayStatusBytes b t = bayStatusBytes b s := by
  unfold bayStatusBytes
  rw [hy, hq, ht]

/-- A write of the status block issued now (R18). -/
theorem issueBayStatus_eq (b : Bay) (s : State) :
    issueBayStatus b (s.modBayXu b fun x => { x with write := .busy }) = { s with
      bays := baySet s.bays b { s.bay b with xu := { (s.bay b).xu with write := .busy } }
      xu := { s.xu with stream := s.xu.stream ++
        [areaItem s (.bayStatus b) (bayStatusOffset b) (bayStatusBytes b s)] } } := by
  have hcopy : bayStatusBytes b (s.modBayXu b fun x => { x with write := .busy }) = bayStatusBytes b s :=
    bayStatusBytes_congr (bay_modBayXu _ _ _) rfl rfl
  simp only [issueBayStatus, hcopy]
  rfl

/-- What the end of a bay status block write does, by the writes in progress and marked (R18). -/
theorem statusWriteEnd_bay (b : Bay) (s : State) :
    statusWriteEnd (some b) s =
      match (s.bay b).xu.write with
      | .idle => s
      | .busy => { s with bays := baySet s.bays b { s.bay b with xu := { (s.bay b).xu with write := .idle } } }
      | .busyMarked => { s with
          bays := baySet s.bays b { s.bay b with xu := { (s.bay b).xu with write := .busy } }
          xu := { s.xu with stream := s.xu.stream ++
            [areaItem s (.bayStatus b) (bayStatusOffset b) (bayStatusBytes b s)] } } := by
  unfold statusWriteEnd
  cases hw : (s.bay b).xu.write
  case idle => simp only [hw]
  case busy =>
    simp only [hw]
    rfl
  case busyMarked =>
    simp only [hw]
    exact issueBayStatus_eq b s

/-- What the end of a rack status block write does (R19). -/
theorem statusWriteEnd_rack (s : State) :
    statusWriteEnd none s =
      match s.xu.rackWrite with
      | .idle => s
      | .busy => { s with xu := { s.xu with rackWrite := .idle } }
      | .busyMarked => { s with xu := { s.xu with
          rackWrite := .busy
          stream := s.xu.stream ++ [areaItem s .rackStatus 0x0010 (rackStatusBytes s)] } } := by
  unfold statusWriteEnd
  cases s.xu.rackWrite
  case idle => rfl
  case busy => rfl
  case busyMarked => rfl

/-- A trigger of a bay status block write (R18). -/
theorem triggerBay_eq (b : Bay) (s : State) :
    triggerBay b s = { s with
      bays := baySet s.bays b { s.bay b with xu := { (s.bay b).xu with
        write := if (s.bay b).xu.write = .idle then .busy else .busyMarked } }
      xu := { s.xu with stream := s.xu.stream ++ bayWrites b s s } } := by
  unfold triggerBay bayWrites
  cases hw : (s.bay b).xu.write
  case idle => exact issueBayStatus_eq b s
  case busy =>
    simp only [reduceCtorEq, if_false, List.append_nil]
    rfl
  case busyMarked =>
    have hbay : { s.bay b with xu := { (s.bay b).xu with write := .busyMarked } } = s.bay b := by rw [← hw]
    simp only [reduceCtorEq, if_false, List.append_nil, hbay]
    simp only [State.bay, baySet_bayGet]

/-- The bay after a trigger of its status block write (R18). -/
theorem triggerBay_self (b : Bay) (s : State) : (triggerBay b s).bay b =
    { s.bay b with xu := { (s.bay b).xu with
      write := if (s.bay b).xu.write = .idle then .busy else .busyMarked } } := by
  rw [triggerBay_eq]
  exact bayGet_baySet ..

theorem triggerBay_xu (b : Bay) (s : State) :
    (triggerBay b s).xu = { s.xu with stream := s.xu.stream ++ bayWrites b s s } := by
  rw [triggerBay_eq]

/-- A change of a bay with one trigger is what the statements call so (R18). -/
theorem bayBecomes_triggerBay {b : Bay} {f : BayState → BayState} {y : BayState} {s : State} (hf : f (s.bay b) = y)
    (hy : y.xu.write = (s.bay b).xu.write) : BayBecomes b y s (triggerBay b (s.modBay b f)) := by
  unfold BayBecomes BayTriggered
  rw [triggerBay_eq]
  simp only [State.modBay, State.bay, bayGet_baySet, baySet_baySet, and_true, bayWrites] at hf hy ⊢
  rw [hf, hy]
  rfl

/-- A bay after triggers of its status block write, but for that write, is as the statements say. -/
theorem BayTriggered.bay {b : Bay} {several : Bool} {first y : BayState} {s t : State}
    (h : BayTriggered several b first y s t) :
    t.bay b = { y with xu := { y.xu with
      write := if (s.bay b).xu.write = .idle ∧ several = false then .busy else .busyMarked } } := by
  rw [h]
  simp only [State.bay, bayGet_baySet]

/-- A further change and trigger after one leave a further write marked (R18). -/
theorem bayTriggered_triggerBay {b : Bay} {several : Bool} {first y z : BayState} {s t : State}
    {f : BayState → BayState} (h : BayTriggered several b first y s t)
    (hf : ∀ w, f { y with xu := { y.xu with write := w } } = { z with xu := { z.xu with write := w } }) :
    BayTriggered true b first z s (triggerBay b (t.modBay b f)) := by
  have hbay : f (t.bay b) = { z with xu := { z.xu with
      write := if (s.bay b).xu.write = .idle ∧ several = false then .busy else .busyMarked } } := by
    rw [h.bay, hf]
  have hw : (if (s.bay b).xu.write = .idle ∧ several = false then WriteProgress.busy else .busyMarked) ≠ .idle := by
    split <;> decide
  unfold BayTriggered
  rw [triggerBay_eq]
  simp only [State.modBay, State.bay, bayGet_baySet, baySet_baySet, bayWrites] at hbay hw ⊢
  simp only [hbay, hw, if_false, List.append_nil]
  rw [h]
  simp [bayWrites, State.bay]

/-- A trigger of the rack status block write (R19). -/
theorem triggerRack_eq (s : State) :
    triggerRack s = { s with xu := { s.xu with
      rackWrite := if s.xu.rackWrite = .idle then .busy else .busyMarked
      stream := s.xu.stream ++
        if s.xu.rackWrite = .idle then [areaItem s .rackStatus 0x0010 (rackStatusBytes s)] else [] } } := by
  unfold triggerRack
  cases hw : s.xu.rackWrite
  case idle => rfl
  case busy =>
    simp only [reduceCtorEq, if_false, List.append_nil]
    rfl
  case busyMarked =>
    simp only [reduceCtorEq, if_false, List.append_nil]
    rw [← hw]

/-- A change of the exchange unit and the bus with one trigger is what the statements call so (R19). -/
theorem rackBecomes_triggerRack {x : Exchange} {u : Bus} {s : State} (hw : x.rackWrite = s.xu.rackWrite)
    (hs : x.stream = s.xu.stream) (ha : ∀ o, areaAddress x o = areaAddress s.xu o) :
    RackBecomes x u s (triggerRack { s with xu := x, bus := u }) := by
  unfold RackBecomes
  rw [triggerRack_eq]
  simp only [hw, hs, areaItem, ha]

/-- Settles O20, by what the end of each write does. -/
theorem statusWritesCoalesce : Obligations.StatusWritesCoalesce := by
  intro s b hs
  have he (target : Option Bay) : exec (.statusBlockWriteComplete target) s = .next (statusWriteEnd target s) := by
    show Host.Outcome.next (whenUp (statusWriteEnd target) s) = _
    rw [whenUp_up hs]
  simp only [he, statusWriteEnd_bay, statusWriteEnd_rack, Host.Outcome.next.injEq]
  refine ⟨fun h => ?_, fun h => ?_, fun h => ?_, fun h => ?_, fun h => ?_, fun h => ?_⟩ <;> rw [h]

/-! ## The requests -/

/-- A bay request that is not new, or of a bay whose blocks are not read, changes nothing (R8, R13). -/
theorem bayRequest_old {b : Bay} {seq : Word16} {s : State}
    (h : seq = 0 ∨ seq = (s.bay b).xu.lastSeq ∨ (s.bay b).xu.enabled = false) (f : State → State) :
    bayRequest b seq f s = s := by
  have hc : ((s.bay b).xu.enabled && freshSeq (s.bay b).xu.lastSeq seq) = false := by
    rcases h with h | h | h <;> simp [freshSeq, h]
  rw [bayRequest, hc, whenever_false]

theorem freshSeq_iff {last seq : Word16} : freshSeq last seq = true ↔ seq ≠ 0 ∧ seq ≠ last := by
  simp only [freshSeq, Bool.and_eq_true, decide_eq_true_eq]

/-- A request acted on (R13). -/
theorem bayRequest_new {b : Bay} {seq : Word16} {s : State} (h0 : seq ≠ 0) (h1 : seq ≠ (s.bay b).xu.lastSeq)
    (he : (s.bay b).xu.enabled = true) (f : State → State) : bayRequest b seq f s = f s := by
  have hc : ((s.bay b).xu.enabled && freshSeq (s.bay b).xu.lastSeq seq) = true := by
    rw [he, freshSeq_iff.2 ⟨h0, h1⟩, Bool.and_self]
  rw [bayRequest, hc, whenever_true]

theorem rackRequest_old {seq : Word16} {s : State} (h : seq = 0 ∨ seq = s.xu.rackSeq) (f : State → State) :
    rackRequest seq f s = s := by
  have hc : freshSeq s.xu.rackSeq seq = false := by rcases h with h | h <;> simp [freshSeq, h]
  rw [rackRequest, hc, whenever_false]

theorem rackRequest_new {seq : Word16} {s : State} (h0 : seq ≠ 0) (h1 : seq ≠ s.xu.rackSeq) (f : State → State) :
    rackRequest seq f s = f s := by
  have hc : freshSeq s.xu.rackSeq seq = true := freshSeq_iff.2 ⟨h0, h1⟩
  rw [rackRequest, hc, whenever_true]

/-- A request answered with an echo and nothing else (R13, R14). -/
theorem answered_echoBay (b : Bay) (seq : Word16) (result : EchoResult) (s : State) :
    Answered b seq result s (echoBay b seq result (actSeq b seq s)) := by
  have he : echoBay b seq result (actSeq b seq s) = triggerBay b (s.modBay b fun y => { y with
      xu := { y.xu with lastSeq := seq }
      status := { y.status with echoSeq := seq, echo := result } }) := by
    simp only [echoBay, actSeq, State.modStatus, State.modBayXu, modBay_modBay]
  rw [he]
  exact bayBecomes_triggerBay rfl rfl

end Sys2Proof.Machine

namespace Sys2Proof.Machine

open Sys2Proof

/-! ## The register window read -/

/-- A field of a word made of a number (section 11.1). -/
theorem extractLsb'_ofNat {n i k c : Nat} (hn : n < 4294967296) (h : n / 2 ^ i % 2 ^ k = c % 2 ^ k) :
    (BitVec.ofNat 32 n).extractLsb' i k = BitVec.ofNat k c := by
  apply BitVec.eq_of_toNat_eq
  have hmod : n % 2 ^ 32 = n := Nat.mod_eq_of_lt hn
  rw [BitVec.extractLsb'_toNat, BitVec.toNat_ofNat, BitVec.toNat_ofNat, Nat.shiftRight_eq_div_pow, hmod, h]

/-- A flag of a word made of a number (section 11.1). -/
theorem getLsbD_ofNat {n i : Nat} {f : Bool} (hi : i < 32) (h : n / 2 ^ i % 2 = f.toNat) :
    (BitVec.ofNat 32 n).getLsbD i = f := by
  rw [BitVec.getLsbD_ofNat, Nat.testBit_eq_decide_div_mod_eq, h]
  cases f <;> simp [hi]

theorem flagBit_eq (f : Bool) (k : Nat) : flagBit f k = 2 ^ k * f.toNat := by
  cases f <;> simp [flagBit]

theorem phaseCode_le (p : Phase) : phaseCode p ≤ 8 := by cases p <;> decide

theorem busStateCode_le (u : BusState) : busStateCode u ≤ 4 := by cases u <;> decide

theorem partStateCode_le (x : Exchange) : partStateCode x ≤ 2 := by
  unfold partStateCode
  split
  · decide
  · split <;> decide

/-- Settles O7: STATUS is a sum of codes, each within its field. -/
theorem statusReadsPresentState : Obligations.StatusReadsPresentState := by
  intro s
  have hx := partStateCode_le s.xu
  have h0 := phaseCode_le s.bays.bay0.phase
  have h1 := phaseCode_le s.bays.bay1.phase
  have h2 := phaseCode_le s.bays.bay2.phase
  have h3 := phaseCode_le s.bays.bay3.phase
  have hu := busStateCode_le s.bus.state
  refine ⟨?_, fun b => ?_, ?_, fun lanes v => ?_⟩
  · have hfield : (readRegister s 0x00C).extractLsb' 0 4 = BitVec.ofNat 4 (partStateCode s.xu) :=
      extractLsb'_ofNat (by omega) (by omega)
    rw [hfield, partStateCode]
    split
    · rfl
    · split <;> rfl
  · have hfield : (readRegister s 0x00C).extractLsb' (4 + 4 * bayNum b) 4 = BitVec.ofNat 4 (phaseCode (s.bay b).phase) := by
      cases b <;> simp only [bayNum, State.bay, bayGet] <;> exact extractLsb'_ofNat (by omega) (by omega)
    rw [hfield]
    cases (s.bay b).phase <;> rfl
  · have hfield : (readRegister s 0x00C).extractLsb' 20 4 = BitVec.ofNat 4 (busStateCode s.bus.state) :=
      extractLsb'_ofNat (by omega) (by omega)
    rw [hfield]
    cases s.bus.state <;> rfl
  · have hw : registerWrite 0x00C lanes v s = s := by
      unfold registerWrite
      split <;> rfl
    show Host.Outcome.next (whenUp (registerWrite 0x00C lanes v) s) = _
    unfold whenUp
    rw [hw, ite_self]

theorem errorKindCode_le (k : ErrorKind) : errorKindCode k ≤ 3 := by cases k <;> decide

theorem merrBayCode_le (o : Option Bay) : merrBayCode o ≤ 4 := by
  rcases o with _ | b
  · decide
  · cases b <;> decide

/-- Settles O8: CTRL and MERR are sums of flags and codes, each within its field. -/
theorem ctrlAndMerrReadTheirFields : Obligations.CtrlAndMerrReadTheirFields := by
  intro s
  have hctrl : readRegister s 0x008 = BitVec.ofNat 32 (s.xu.run.toNat + 2 * s.bays.bay0.xu.enabled.toNat +
      4 * s.bays.bay1.xu.enabled.toNat + 8 * s.bays.bay2.xu.enabled.toNat + 16 * s.bays.bay3.xu.enabled.toNat +
      32 * s.xu.irqen.toNat + 256 * s.xu.scanp.toNat + 2147483648 * s.xu.resetting.toNat) := by
    simp [readRegister, ctrlWord, flagBit_eq]
  have hmerr : readRegister s 0x014 = BitVec.ofNat 32 (errorKindCode s.xu.merr.kind +
      16 * merrBayCode s.xu.merr.bay + 128 * s.xu.merr.multi.toNat + 256 * s.xu.merr.interval.toNat) := by
    simp [readRegister, merrWord, flagBit_eq]
  have hr := s.xu.run.toNat_le
  have h0 := s.bays.bay0.xu.enabled.toNat_le
  have h1 := s.bays.bay1.xu.enabled.toNat_le
  have h2 := s.bays.bay2.xu.enabled.toNat_le
  have h3 := s.bays.bay3.xu.enabled.toNat_le
  have hi := s.xu.irqen.toNat_le
  have hp := s.xu.scanp.isLt
  have hz := s.xu.resetting.toNat_le
  have hk := errorKindCode_le s.xu.merr.kind
  have hb := merrBayCode_le s.xu.merr.bay
  have hm := s.xu.merr.multi.toNat_le
  have hv := s.xu.merr.interval.isLt
  rw [hctrl, hmerr]
  refine ⟨getLsbD_ofNat (by decide) (by omega), fun b => ?_, getLsbD_ofNat (by decide) (by omega), ?_,
    getLsbD_ofNat (by decide) (by omega), ?_, ?_, getLsbD_ofNat (by decide) (by omega), ?_, ?_⟩
  · cases b <;> exact getLsbD_ofNat (by decide) (by simp only [bayNum, State.bay, bayGet]; omega)
  · exact (extractLsb'_ofNat (c := s.xu.scanp.toNat) (by omega) (by omega)).trans (by simp)
  · rw [extractLsb'_ofNat (c := errorKindCode s.xu.merr.kind) (by omega) (by omega)]
    cases s.xu.merr.kind <;> rfl
  · rw [extractLsb'_ofNat (c := merrBayCode s.xu.merr.bay) (by omega) (by omega)]
    rcases s.xu.merr.bay with _ | b
    · rfl
    · cases b <;> rfl
  · exact (extractLsb'_ofNat (c := s.xu.merr.interval.toNat) (by omega) (by omega)).trans (by simp)
  · intro offset n0 n4 n8 nC n10 n14
    unfold readRegister
    split
    · exact absurd rfl n0
    · exact absurd rfl n4
    · exact absurd rfl n8
    · exact absurd rfl nC
    · exact absurd rfl n10
    · exact absurd rfl n14
    · rfl

/-! ## The part reset -/

/-- Settles O3: a part reset is written as its reset values. -/
theorem partResetLeavesResetValues : Obligations.PartResetLeavesResetValues := by
  intro s
  refine ⟨partReset s, rfl, fun hs => ?_, rfl, rfl, rfl, rfl, rfl, rfl, fun b => ?_, rfl, rfl, ?_, ?_, rfl, ?_⟩
  · show Host.Outcome.next (whenUp partReset s) = _
    rw [whenUp_up hs]
  · cases b <;> rfl
  · simp [readRegister, ctrlWord, partReset, State.reset, Exchange.reset, bayAtReset, BayState.reset, BayExchange.reset,
      flagBit]
  · simp [readRegister, statusWord, partReset, State.reset, Exchange.reset, Bus.reset, bayAtReset, BayState.reset,
      partStateCode, phaseCode, busStateCode]
  · show merrWord ⟨.none, none, false, 16⟩ = _
    decide

end Sys2Proof.Machine

namespace Sys2Proof.Machine

open Sys2Proof

/-! ## The reset values meet the laws -/

theorem reset_busLaw : BusLaw Bus.reset where
  total := by decide
  perBay b := by cases b <;> decide
  onBus := nofun
  waiting h := absurd rfl h
  failed := nofun
  losses := nofun
  unheld := nofun

theorem reset_safeLaw : SafeLaw BayState.reset where
  off _ := rfl
  paused := nofun
  pulses _ := by decide
  levels _ := by decide
  lines _ := rfl
  network _ := rfl
  silent _ := ⟨rfl, rfl⟩
  supplied := nofun
  retrying h := absurd rfl h
  settling _ := nofun

theorem reset_queueLaw : QueueLaw Network.reset where
  total := by decide
  single := List.nodup_nil
  attempt := nofun
  failures := by decide
  late := by decide
  probing := by decide

theorem reset_runLaw : RunLaw BayState.reset where
  held := by decide
  taken := nofun
  four := by decide
  flight h := absurd rfl h
  started := nofun
  ordered := nofun
  distinctFlight := List.nodup_nil
  distinctResults := List.nodup_nil
  apart := nofun
  ended _ := nofun
  reads := by decide
  fresh _ := ⟨rfl, rfl⟩

theorem reset_retryLaw : RetryLaw BayState.reset where
  bounded := by decide
  loading := nofun
  fault := by decide
  settle := nofun

theorem reset_promptLaw : PromptLaw BayState.reset where
  running h := absurd rfl h
  started := nofun
  flight := nofun
  single := List.nodup_nil
  shown := by decide

theorem reset_actions (i : Fin 14) : BayState.reset.stim.actions[i] = none := by
  revert i
  decide

theorem reset_stopped (i : Fin 14) : BayState.reset.stim.stopped[i] = [] := by
  revert i
  decide

theorem reset_valueLaw : ValueLaw BayState.reset where
  inRange := by decide
  ends i a h := nomatch (reset_actions i).symm.trans h
  between i a h := nomatch (reset_actions i).symm.trans h
  left i a d h := nomatch (reset_actions i).symm.trans h
  driven i h := absurd (reset_actions i) h
  handed i h hh := by
    rcases hh with hh | ⟨a, ha, -⟩
    · rw [reset_stopped] at hh
      exact absurd hh List.not_mem_nil
    · exact nomatch (reset_actions i).symm.trans ha

theorem reset_frequency (i : Fin 2) : Stimulus.reset.frequency[i] = none := by
  revert i
  decide

theorem reset_generators (i : Fin 2) : Stimulus.reset.generators[i] = .stopped := by
  revert i
  decide

theorem reset_pulseLaw : PulseLaw Stimulus.reset where
  duty := by decide
  frequency i f h := nomatch (reset_frequency i).symm.trans h
  generator i p g h := nomatch (reset_generators i).symm.trans h

theorem reset_bay (b : Bay) : State.reset.bay b = BayState.reset := by cases b <;> rfl

/-- Settles O2, law by law: nothing is queued, held, driven, counted or in flight after a reset. -/
theorem resetMeetsEveryLaw : Obligations.ResetMeetsEveryLaw where
  register := reset_registerLaw
  reset := nofun
  bus := reset_busLaw
  safe b := reset_bay b ▸ reset_safeLaw
  queue b := reset_bay b ▸ reset_queueLaw
  run b := reset_bay b ▸ reset_runLaw
  retry b := reset_bay b ▸ reset_retryLaw
  prompt b := reset_bay b ▸ reset_promptLaw
  value b := reset_bay b ▸ reset_valueLaw
  pulse b := reset_bay b ▸ reset_pulseLaw

end Sys2Proof.Machine

namespace Sys2Proof.Machine

open Sys2Proof

/-! ## Register accesses -/

/-- A command that a part reset holds off has its effect outside one (R4). -/
theorem exec_up {c : Instr} {s : State} {f : State → State} (hs : Up s) (h : exec c s = .next (whenUp f s)) :
    exec c s = .next (f s) := by
  rw [h, whenUp_up hs]

/-- The interval field of a word written (R21). -/
theorem byteOne_eq (v : Word32) : BitVec.ofNat 8 (v.toNat / 256) = v.extractLsb' 8 8 := by
  apply BitVec.eq_of_toNat_eq
  simp [Nat.shiftRight_eq_div_pow]

/-- The scan pass and the timer's own changes of the exchange unit (R7, R8). -/
theorem startPass_eq (s : State) : startPass s = { s with xu := { s.xu with pass := some (firstPass s) } } := rfl

theorem scanp_period {v : Byte} (hv : v ≠ 0) : max 1 v.toNat = v.toNat := by
  have h : v.toNat ≠ 0 := fun h => hv (BitVec.eq_of_toNat_eq h)
  omega

/-- A BAYEN bit written 1 is set (R3). -/
theorem enableBay_enabled (b : Bay) (s : State) : ((enableBay b s).bay b).xu.enabled = true := by
  unfold enableBay
  dsimp only
  split
  · assumption
  · split
    · rw [((setPhase_moves (k := none) (b := b) .idle).device.keeps.bays b).enabled (by decide)]
      simp
    · simp

/-- A BAYEN bit written 0 is cleared (R3). -/
theorem disableBay_enabled (b : Bay) (s : State) : ((disableBay b s).bay b).xu.enabled = false := by
  unfold disableBay
  split
  · rw [((disableByPhase_moves (k := none) (b := b)).device.keeps.bays b).enabled (by decide)]
    simp [modPass]
  · next h => simpa using h

theorem writeBayen_enabled (v : Word32) (b : Bay) (s : State) :
    ((writeBayen v b s).bay b).xu.enabled = v.getLsbD (1 + bayNum b) := by
  unfold writeBayen
  split
  · next h => rw [enableBay_enabled, h]
  · next h => rw [disableBay_enabled, Bool.eq_false_of_not_eq_true h]

/-- The BAYEN bit of one bay written leaves the other bays as they are (R3). -/
theorem writeBayen_other (v : Word32) {b o : Bay} (h : o ≠ b) (s : State) : (writeBayen v b s).bay o = s.bay o := by
  have ho := (writeBayen_moves (b := b) v (s := s)).outside_eq
  have hb := congrArg (fun u : State => u.bay o) ho
  simpa [outsideScan, outside, State.bay, bayGet_baySet_of_ne _ h] using hb

/-- The BAYEN bits after all four have been written (R3). -/
theorem writeBays_enabled (v : Word32) (s : State) (b : Bay) :
    ((forAll allBays (writeBayen v) s).bay b).xu.enabled = v.getLsbD (1 + bayNum b) := by
  show ((writeBayen v .bay3 (writeBayen v .bay2 (writeBayen v .bay1 (writeBayen v .bay0 s)))).bay b).xu.enabled = _
  cases b
  case bay0 =>
    rw [writeBayen_other _ (by decide), writeBayen_other _ (by decide), writeBayen_other _ (by decide), writeBayen_enabled]
  case bay1 => rw [writeBayen_other _ (by decide), writeBayen_other _ (by decide), writeBayen_enabled]
  case bay2 => rw [writeBayen_other _ (by decide), writeBayen_enabled]
  case bay3 => rw [writeBayen_enabled]

/-- RUN after a write of CTRL.RUN (R3). -/
theorem writeRun_run (f : Bool) (s : State) : ((if f then setRun else clearRun) s).xu.run = f := by
  cases f
  · simp only [Bool.false_eq_true, if_false, clearRun]
    split
    · rfl
    · next h => simpa using h
  · simp only [if_true, setRun]
    split
    · assumption
    · rfl

theorem writeScanp_scanp (v : Byte) (s : State) : (writeScanp v s).xu.scanp = scanpStored v := by
  unfold writeScanp
  dsimp only
  split
  · assumption
  · split <;> rfl

/-- A whole write of CTRL without RESET sets each of its fields (R3). -/
theorem writeCtrl_fields {v : Word32} (h : v.getLsbD 31 = false) (s : State) :
    (writeCtrl v s).xu.run = v.getLsbD 0 ∧
      (∀ b, ((writeCtrl v s).bay b).xu.enabled = v.getLsbD (1 + bayNum b)) ∧ (writeCtrl v s).xu.irqen = v.getLsbD 5 ∧
      (writeCtrl v s).xu.scanp = (if v.extractLsb' 8 8 = 0 then 1 else v.extractLsb' 8 8) := by
  rw [writeCtrl_eq h]
  have hBays := (writeBays_device (value := v)
    (s := writeIrqen (v.getLsbD 5) (writeScanp (BitVec.ofNat 8 (v.toNat / 256)) s))).keeps
  have hRun := (writeRun_device (value := v) (s := forAll allBays (writeBayen v)
    (writeIrqen (v.getLsbD 5) (writeScanp (BitVec.ofNat 8 (v.toNat / 256)) s)))).keeps
  refine ⟨writeRun_run _ _, fun b => ?_, ?_, ?_⟩
  · rw [(hRun.bays b).enabled (by decide), writeBays_enabled]
  · rw [hRun.irqen (by decide), hBays.irqen (by decide)]
    rfl
  · rw [hRun.scanp (by decide), hBays.scanp (by decide)]
    show (writeScanp _ s).xu.scanp = _
    rw [writeScanp_scanp, byteOne_eq, scanpStored]

/-- A write of an offset without a register is ignored (R1). -/
theorem registerWrite_elsewhere {offset : BitVec 12} (h0 : offset ≠ 0x000) (h4 : offset ≠ 0x004) (h8 : offset ≠ 0x008)
    (h10 : offset ≠ 0x010) (h14 : offset ≠ 0x014) (h18 : offset ≠ 0x018) (v : Word32) (s : State) :
    registerWrite offset 15 v s = s := by
  have hn {o : BitVec 12} {n : Nat} (ho : offset ≠ o) (hon : o.toNat = n) : offset.toNat ≠ n :=
    fun h => ho (BitVec.eq_of_toNat_eq (h.trans hon.symm))
  unfold registerWrite
  rw [if_neg (by decide)]
  split
  · exact absurd ‹_› (hn h0 rfl)
  · exact absurd ‹_› (hn h4 rfl)
  · exact absurd ‹_› (hn h8 rfl)
  · exact absurd ‹_› (hn h10 rfl)
  · exact absurd ‹_› (hn h14 rfl)
  · exact absurd ‹_› (hn h18 rfl)
  · rfl

/-- XBASE writes (R2). -/
theorem exec_xbaseWrite_fields (s : State) (v : Word32) (hs : Up s) :
    (s.xu.run = false →
      exec (.xbaseWrite .low v) s = .next { s with xu := { s.xu with xbaseLo := v &&& 0xFFFFF000#32 } } ∧
      exec (.xbaseWrite .high v) s = .next { s with xu := { s.xu with xbaseHi := v } }) ∧
    (s.xu.run = true → ∀ half, exec (.xbaseWrite half v) s = .next s) := by
  have he (half : XbaseHalf) : exec (.xbaseWrite half v) s = .next (writeXbase half v s) := exec_up hs rfl
  constructor
  · intro hr
    simp [he, writeXbase, hr, State.modXu]
  · intro hr half
    simp [he, writeXbase, hr]

/-- Writes of IRQEN, SCANP and EVENTS (R3, R25, R26). -/
theorem exec_controls (s : State) (hs : Up s) :
    (∀ on, exec (.irqenWrite on) s = .next { s with xu := { s.xu with irqen := on } }) ∧
    (∀ v : Byte, v ≠ 0 → s.xu.scanp ≠ v →
      (s.xu.run = false → exec (.scanpWrite v) s = .next { s with xu := { s.xu with scanp := v } }) ∧
      (s.xu.run = true →
        exec (.scanpWrite v) s = .next { s with xu := { s.xu with scanp := v, scanTimer := some (v.toNat * 50) } })) ∧
    (∀ v : Byte, v ≠ 0 → s.xu.scanp = v → exec (.scanpWrite v) s = .next s) ∧
    exec (.scanpWrite 0) s = exec (.scanpWrite 1) s ∧
    ∀ mask : Word32, ∃ t, exec (.eventsClear mask) s = .next t ∧ t = { s with xu := { s.xu with events := t.xu.events } } ∧
      ∀ n, t.xu.events.getLsbD n = (s.xu.events.getLsbD n && !mask.getLsbD n) := by
  have hp (v : Byte) : exec (.scanpWrite v) s = .next (writeScanp v s) := exec_up hs rfl
  have hv {v : Byte} (h0 : v ≠ 0) : scanpStored v = v := if_neg h0
  have hq (on : Bool) : exec (.irqenWrite on) s = .next (writeIrqen on s) := exec_up hs rfl
  refine ⟨fun on => hq on, fun v h0 hne => ⟨fun hr => ?_, fun hr => ?_⟩, fun v h0 he => ?_, ?_, fun mask =>
    ⟨clearEvents mask s, exec_up hs rfl, rfl, fun n => ?_⟩⟩
  · simp [hp, writeScanp, hv h0, hne, hr, State.modXu]
  · simp [hp, writeScanp, hv h0, hne, hr, State.modXu, scanPeriod, scanp_period h0]
  · simp [hp, writeScanp, hv h0, he]
  · rw [hp, hp]
    rfl
  · by_cases hn : n < 32
    · simp [clearEvents, hn]
    · simp [clearEvents, BitVec.getLsbD_of_ge _ _ (Nat.le_of_not_lt hn)]

/-- Reads and writes of MERR (R21). -/
theorem exec_merr (s : State) :
    (∀ lanes, exec (.merrRead lanes) s = .next { s with xu := { s.xu with
      readData := readRegister s 0x014 &&& laneMask lanes
      merr := ⟨.none, none, false, s.xu.merr.interval⟩ } }) ∧
    (Up s → ∀ v : Word32, exec (.merrWrite v) s = .next { s with xu := { s.xu with
      merr := { s.xu.merr with interval := if v.extractLsb' 8 8 = 0 then 1 else v.extractLsb' 8 8 } } }) := by
  refine ⟨fun lanes => rfl, fun hs v => ?_⟩
  have he : exec (.merrWrite v) s = .next (writeMerr v s) := exec_up hs rfl
  rw [he, writeMerr, intervalStored, byteOne_eq]
  rfl

/-- RUN set and cleared (R3, R7). -/
theorem exec_run (s : State) (hs : Up s) :
    (s.xu.run = false →
      exec .runSet s = .next { s with xu := { s.xu with run := true, scanTimer := some (max 1 s.xu.scanp.toNat * 50) } } ∧
      exec .runClear s = .next s) ∧
    (s.xu.run = true →
      exec .runSet s = .next s ∧
      exec .runClear s = .next { s with xu := { s.xu with
        run := false
        scanTimer := none
        follow := false
        pass := s.xu.pass.map fun p => { p with ending := true } } }) := by
  have hSet : exec .runSet s = .next (setRun s) := exec_up hs rfl
  have hClear : exec .runClear s = .next (clearRun s) := exec_up hs rfl
  constructor
  · intro hr
    simp [hSet, hClear, setRun, clearRun, hr, State.modXu, scanPeriod]
  · intro hr
    simp [hSet, hClear, setRun, clearRun, hr, State.modXu]

/-- The scan timer and NUDGE (R7). -/
theorem exec_scan (s : State) (v : Word32) (hs : Up s) :
    (s.xu.scanTimer = none → exec .scanTimerExpiry s = .next s) ∧
    (s.xu.scanTimer ≠ none → s.xu.pass = none →
      exec .scanTimerExpiry s = .next { s with xu := { s.xu with
        scanTimer := some (max 1 s.xu.scanp.toNat * 50)
        pass := some (firstPass s) } }) ∧
    (s.xu.scanTimer ≠ none → s.xu.pass ≠ none →
      exec .scanTimerExpiry s = .next { s with xu := { s.xu with scanTimer := some (max 1 s.xu.scanp.toNat * 50) } }) ∧
    (s.xu.run = false → exec (.nudge v) s = .next s) ∧
    (s.xu.run = true → s.xu.pass = none →
      exec (.nudge v) s = .next { s with xu := { s.xu with pass := some (firstPass s) } }) ∧
    (s.xu.run = true → s.xu.pass ≠ none →
      exec (.nudge v) s = .next { s with xu := { s.xu with follow := true } }) := by
  have hTimer : exec .scanTimerExpiry s = .next (whenever s.xu.scanTimer.isSome timerExpiry s) := exec_up hs rfl
  have hNudge : exec (.nudge v) s = .next (nudge s) := exec_up hs rfl
  have hRuns (ht : s.xu.scanTimer ≠ none) : s.xu.scanTimer.isSome = true := Option.isSome_iff_ne_none.2 ht
  refine ⟨fun ht => ?_, fun ht hp => ?_, fun ht hp => ?_, fun hr => ?_, fun hr hp => ?_, fun hr hp => ?_⟩
  · rw [hTimer, ht]
    rfl
  · rw [hTimer, hRuns ht, whenever_true, timerExpiry, hp]
    rfl
  · rw [hTimer, hRuns ht, whenever_true, timerExpiry, Option.isNone_eq_false_iff.2 (Option.isSome_iff_ne_none.2 hp)]
    rfl
  · simp [hNudge, nudge, hr]
  · simp [hNudge, nudge, hr, hp, startPass_eq]
  · simp [hNudge, nudge, hr, hp, State.modXu]

/-- Settles O5, register by register. -/
theorem registerAccessesSetTheirFields : Obligations.RegisterAccessesSetTheirFields := by
  refine ⟨exec_xbaseWrite_fields, fun x o h => Nat.mod_eq_of_lt h, exec_controls, exec_merr, exec_run, exec_scan,
    fun s v hs => ?_⟩
  have he (offset : BitVec 12) (lanes : BitVec 4) :
      exec (.registerWriteOther offset lanes v) s = .next (registerWrite offset lanes v s) := exec_up hs rfl
  refine ⟨fun offset lanes hl => ?_, fun offset h0 h4 h8 h10 h14 h18 => ?_, rfl, rfl, rfl, rfl, rfl, fun hv => ?_,
    fun hv => ⟨writeCtrl v s, he 0x008 15, writeCtrl_fields hv s⟩⟩
  · rw [he, registerWrite, if_pos hl]
  · rw [he, registerWrite_elsewhere h0 h4 h8 h10 h14 h18]
  · rw [he, exec_up (c := .reset) hs rfl]
    show Host.Outcome.next (writeCtrl v s) = _
    rw [writeCtrl, if_pos hv]

end Sys2Proof.Machine

namespace Sys2Proof.Machine

open Sys2Proof

/-! ## The bus state and the lines -/

/-- A change of the bus state, which triggers the rack status block once (R19). -/
theorem setBusState_becomes {st : BusState} {f : Exchange → Exchange} {g : Bus → Bus} {s : State}
    (hst : (g s.bus).state ≠ st) (hw : (f s.xu).rackWrite = s.xu.rackWrite) (hs : (f s.xu).stream = s.xu.stream)
    (ha : ∀ o, areaAddress (f s.xu) o = areaAddress s.xu o) :
    RackBecomes (f s.xu) { g s.bus with state := st } s (setBusState st ((s.modXu f).modBus g)) := by
  have he : setBusState st ((s.modXu f).modBus g) =
      triggerRack { s with xu := f s.xu, bus := { g s.bus with state := st } } := if_neg hst
  rw [he]
  exact rackBecomes_triggerRack hw hs ha

/-- The counts start again, which the rack status block does not show (R19). -/
theorem RackBecomes.restartCounts {x : Exchange} {u : Bus} {s t : State} (h : RackBecomes x u s t) :
    RackBecomes x { u with countsFrom := s.rackTime } s (restartCounts t) := by
  unfold RackBecomes at h ⊢
  rw [h]
  rfl

/-- The lines at new levels, from which the counts start again (R171, R172). -/
def linesMoved (scl sda : Bool) (s : State) : State := restartCounts (s.modBus (setLines scl sda))

theorem linesMoved_eq (scl sda : Bool) (s : State) :
    linesMoved scl sda s = { s with bus := { s.bus with scl := scl, sda := sda, countsFrom := s.rackTime } } := rfl

section
variable {s : State} {scl sda : Bool}

/-- Levels that are held are no change. -/
theorem lineChange_held : lineChange s.bus.scl s.bus.sda s = s := by simp [lineChange]

/-- A change of a line, by the bus state (R165, R171, R172, R176, R177). -/
theorem lineChange_moved (hne : scl ≠ s.bus.scl ∨ sda ≠ s.bus.sda) {st : BusState} (hst : s.bus.state = st) :
    lineChange scl sda s = match st with
      | .idle => if s.bus.scl && (!scl || (s.bus.sda && !sda)) then enterBusyOther (linesMoved scl sda s)
          else linesMoved scl sda s
      | .busyOther => if s.bus.scl && scl && !s.bus.sda && sda then enterIdle (linesMoved scl sda s)
          else linesMoved scl sda s
      | .active => if s.bus.waitScl.isSome && scl then sclRise sda (linesMoved scl sda s) else linesMoved scl sda s
      | .recovering | .failed => linesMoved scl sda s := by
  have hmoved : (decide (scl = s.bus.scl) && decide (sda = s.bus.sda)) = false := by
    rcases hne with h | h <;> simp [h]
  cases st <;> simp only [lineChange, hmoved, Bool.false_eq_true, if_false, hst] <;> rfl

/-- The lines moved again to the same levels are moved once. -/
theorem sclRise_linesMoved (hst : s.bus.state = .active) :
    sclRise sda (linesMoved true sda s) = sclRise sda s := by
  have hne : s.bus.state ≠ .idle := by simp [hst]
  simp only [sclRise, enterIdle, setBusState, linesMoved, restartCounts, setLines, modBus_bus, hne, if_false,
    triggerRack_eq]
  rfl

/-- Another master's START or clock takes the bus (R171). -/
theorem enterBusyOther_moved (hst : s.bus.state = .idle) :
    RackBecomes s.xu { s.bus with state := .busyOther, scl := scl, sda := sda, countsFrom := s.rackTime } s
      (enterBusyOther (linesMoved scl sda s)) :=
  (setBusState_becomes (st := .busyOther) (f := id) (s := s)
    (g := fun u => { u with scl := scl, sda := sda, countsFrom := s.rackTime }) (by simp [hst]) rfl rfl
    fun _ => rfl).restartCounts

/-- Another master's STOP leaves the bus idle (R172). -/
theorem enterIdle_moved (hst : s.bus.state = .busyOther) :
    RackBecomes s.xu { s.bus with state := .idle, scl := true, sda := true, countsFrom := s.rackTime } s
      (enterIdle (linesMoved true true s)) := by
  have h := (setBusState_becomes (st := .idle) (f := id) (s := s)
    (g := fun u => { u with scl := true, sda := true, countsFrom := s.rackTime }) (by simp [hst]) rfl rfl
    fun _ => rfl).restartCounts
  have hscl : (restartCounts (setBusState .idle (linesMoved true true s))).bus.scl = true := congrArg (·.bus.scl) h
  unfold enterIdle
  dsimp only
  rw [if_pos hscl]
  exact h

end

/-- Settles O47, by the bus state and the lines of before. -/
theorem lineChangesMoveTheBus : Obligations.LineChangesMoveTheBus := by
  intro s scl sda
  have hUp (hs : Up s) : exec (.fixtureBusLineChange scl sda) s = .next (lineChange scl sda s) :=
    congrArg Host.Outcome.next (if_neg (Bool.eq_false_iff.1 hs))
  refine ⟨fun hs => congrArg Host.Outcome.next (if_pos hs), fun hs h1 h2 => ?_, fun hs hne => ⟨fun hst => ?_,
    fun hst hw hscl => ?_, fun hst h1 h2 => ⟨_, hUp hs, ?_⟩, fun hst h1 h2 h3 h4 => ⟨_, hUp hs, ?_⟩⟩⟩
  · rw [hUp hs, h1, h2, lineChange_held]
  · rw [hUp hs, ← linesMoved_eq]
    rcases hst with hst | hst | ⟨hst, h⟩ | ⟨hst, h⟩ | ⟨hst, h⟩
    · rw [lineChange_moved hne hst]
    · rw [lineChange_moved hne hst]
    · rw [lineChange_moved hne hst]
      rcases h with h | h <;> simp [h]
    · rw [lineChange_moved hne hst]
      rcases h with h | ⟨hscl, h | h⟩
      · simp [h]
      · simp [hscl, h]
      · simp [hscl, h]
    · rw [lineChange_moved hne hst]
      rcases h with h | h | h | h <;> simp [h]
  · have hw' : s.bus.waitScl.isSome = true := Option.isSome_iff_ne_none.2 hw
    rw [hUp hs, lineChange_moved hne hst, exec_up (c := .sclRiseAfterTimeout sda) hs rfl, hw', hscl]
    exact congrArg Host.Outcome.next (sclRise_linesMoved hst)
  · rw [lineChange_moved hne hst]
    have hc : (s.bus.scl && (!scl || (s.bus.sda && !sda))) = true := by
      rcases h2 with h | ⟨h, g⟩
      · simp [h1, h]
      · simp [h1, h, g]
    simp only [hc, if_true]
    exact enterBusyOther_moved hst
  · subst h3 h4
    rw [lineChange_moved hne hst]
    simp only [h1, h2, Bool.not_false, Bool.and_self, if_true]
    exact enterIdle_moved hst

/-! ## Requests acted on -/

/-- The sequence number last acted on after a bay request acted on (R13). -/
theorem bayCode_lastSeq (b : Bay) (code : Nat) (seq : Word16) (argument : Word32) (s : State) :
    ((bayCode b code seq argument s).bay b).xu.lastSeq = seq := by
  rw [((bayCode_after (k := none) (b := b) (s := s) code seq argument).device.keeps.bays b).seq (by decide)]
  simp [actSeq]

/-- What a bay request acted on does, whichever it is (R13, section 11.3). -/
theorem exec_bayRequests {s : State} (hs : Up s) (b : Bay) (seq : Word16) (argument : Word32) :
    exec (.abortRun b seq) s = .next (bayRequest b seq (abortRequest b seq) s) ∧
      exec (.withdraw b seq argument) s = .next (bayRequest b seq (withdrawRequest b seq argument) s) ∧
      exec (.clearFaults b seq) s = .next (bayRequest b seq (clearRequest b seq) s) ∧
      exec (.unknownRequest (some b) seq) s = .next (bayRequest b seq (unknownBay b seq) s) :=
  ⟨exec_up hs rfl, exec_up hs rfl, exec_up hs rfl, exec_up hs rfl⟩

/-- A bay request with a new sequence number of a bay whose blocks are read is acted on (R8, R13). -/
theorem exec_bayRequests_new {s : State} {b : Bay} {seq : Word16} (hs : Up s) (h0 : seq ≠ 0)
    (h1 : seq ≠ (s.bay b).xu.lastSeq) (he : (s.bay b).xu.enabled = true) (argument : Word32) :
    exec (.abortRun b seq) s = .next (abortRequest b seq s) ∧
      exec (.withdraw b seq argument) s = .next (withdrawRequest b seq argument s) ∧
      exec (.clearFaults b seq) s = .next (clearRequest b seq s) ∧
      exec (.unknownRequest (some b) seq) s = .next (unknownBay b seq s) := by
  obtain ⟨hAbort, hWithdraw, hClear, hUnknown⟩ := exec_bayRequests hs b seq argument
  rw [bayRequest_new h0 h1 he] at hAbort hWithdraw hClear hUnknown
  exact ⟨hAbort, hWithdraw, hClear, hUnknown⟩

theorem exec_rackRequests {s : State} (hs : Up s) (seq : Word16) :
    exec (.recoverBus seq) s = .next (rackRequest seq (recoverRequest seq) s) ∧
      exec (.unknownRequest none seq) s = .next (rackRequest seq (unknownRack seq) s) :=
  ⟨exec_up hs rfl, exec_up hs rfl⟩

theorem exec_rackRequests_new {s : State} {seq : Word16} (hs : Up s) (h0 : seq ≠ 0) (h1 : seq ≠ s.xu.rackSeq) :
    exec (.recoverBus seq) s = .next (recoverRequest seq s) ∧
      exec (.unknownRequest none seq) s = .next (unknownRack seq s) := by
  obtain ⟨hRecover, hRack⟩ := exec_rackRequests hs seq
  rw [rackRequest_new h0 h1] at hRecover hRack
  exact ⟨hRecover, hRack⟩

/-- A rack request answered (R13, R14). -/
theorem echoRack_becomes (seq : Word16) (result : EchoResult) (s : State) :
    RackBecomes { s.xu with rackSeq := seq, rackEchoSeq := seq, rackEcho := result } s.bus s
      (echoRack seq result (s.modXu fun x => { x with rackSeq := seq })) :=
  rackBecomes_triggerRack (x := { s.xu with rackSeq := seq, rackEchoSeq := seq, rackEcho := result }) rfl rfl
    fun _ => rfl

/-- RECOVER_BUS with the bus FAILED: the attempt and the echo (R16, R178). -/
theorem recoverRequest_failed {seq : Word16} {s : State} (hf : s.bus.state = .failed) :
    RackBecomes { s.xu with rackSeq := seq, rackEchoSeq := seq, rackEcho := .done }
      { s.bus with state := .recovering, fastInUse := s.bus.fast } s (recoverRequest seq s) := by
  have he : recoverRequest seq s = beginRecovery (s.modXu fun x =>
      { x with rackSeq := seq, rackEchoSeq := seq, rackEcho := .done }) := if_pos hf
  rw [he]
  exact setBusState_becomes (f := fun x => { x with rackSeq := seq, rackEchoSeq := seq, rackEcho := .done })
    (g := fun u => { u with fastInUse := u.fast }) (s := s) (by simp [hf]) rfl rfl fun _ => rfl

theorem recoverRequest_ignored {seq : Word16} {s : State} (hf : s.bus.state ≠ .failed) :
    RackBecomes { s.xu with rackSeq := seq, rackEchoSeq := seq, rackEcho := .ignored } s.bus s
      (recoverRequest seq s) := by
  have he : recoverRequest seq s = echoRack seq .ignored (s.modXu fun x => { x with rackSeq := seq }) := if_neg hf
  rw [he]
  exact echoRack_becomes ..

/-- A rack status block write shows in the exchange unit nothing but itself. -/
theorem RackBecomes.rackSeq {x : Exchange} {u : Bus} {s t : State} (h : RackBecomes x u s t) :
    t.xu.rackSeq = x.rackSeq := by
  rw [h]

/-- Settles O15: an old sequence number stops a request at its gate, and one acted on is taken down first. -/
theorem requestsActOncePerSequence : Obligations.RequestsActOncePerSequence := by
  intro s b seq argument hs
  obtain ⟨hAbort, hWithdraw, hClear, hUnknown⟩ := exec_bayRequests hs b seq argument
  obtain ⟨hRecover, hRack⟩ := exec_rackRequests hs seq
  refine ⟨fun h => ?_, fun h => ?_, fun h0 h1 he c hc => ?_, fun h0 h1 c hc => ?_⟩
  · simp only [hAbort, hWithdraw, hClear, hUnknown, bayRequest_old h, and_self]
  · simp only [hRecover, hRack, rackRequest_old h, and_self]
  · obtain ⟨hAbort, hWithdraw, hClear, hUnknown⟩ := exec_bayRequests_new hs h0 h1 he argument
    rcases hc with rfl | rfl | rfl | rfl
    · exact ⟨_, hAbort, bayCode_lastSeq b 1 seq argument s⟩
    · exact ⟨_, hWithdraw, bayCode_lastSeq b 2 seq argument s⟩
    · exact ⟨_, hClear, bayCode_lastSeq b 3 seq argument s⟩
    · exact ⟨_, hUnknown, bayCode_lastSeq b 0 seq argument s⟩
  · obtain ⟨hRecover, hRack⟩ := exec_rackRequests_new hs h0 h1
    rcases hc with rfl | rfl
    · refine ⟨_, hRecover, ?_⟩
      by_cases hf : s.bus.state = .failed
      · exact (recoverRequest_failed hf).rackSeq
      · exact (recoverRequest_ignored hf).rackSeq
    · exact ⟨_, hRack, (echoRack_becomes seq .ignored s).rackSeq⟩

/-- CLEAR_FAULTS in HALTED: the set emptied, the state changed and the request answered, each with its trigger (R48, R156). -/
theorem clearRequest_halted {b : Bay} {seq : Word16} {s : State} (hp : (s.bay b).phase = .halted) :
    BayTriggered true b
      (if (s.bay b).supply.latched = 0 then
        { s.bay b with phase := .idle, xu := { (s.bay b).xu with lastSeq := seq } }
      else
        { s.bay b with
          supply := { (s.bay b).supply with latched := 0 }
          xu := { (s.bay b).xu with lastSeq := seq } })
      { s.bay b with
        phase := .idle
        supply := { (s.bay b).supply with latched := 0 }
        xu := { (s.bay b).xu with lastSeq := seq }
        status := { (s.bay b).status with echoSeq := seq, echo := .done } } s (clearRequest b seq s) := by
  have hp' : ((actSeq b seq s).bay b).phase = .halted := by simp [actSeq, hp]
  have he : clearRequest b seq s = echoBay b seq .done (setPhase b .idle (clearLatched b (actSeq b seq s))) :=
    if_pos hp'
  have hl : ((actSeq b seq s).bay b).supply.latched = (s.bay b).supply.latched := by simp [actSeq]
  rw [he, clearLatched, hl]
  split
  · next h0 =>
    have hPhase : BayBecomes b { s.bay b with phase := .idle, xu := { (s.bay b).xu with lastSeq := seq } } s
        (setPhase b .idle (actSeq b seq s)) := by
      simp only [setPhase, actSeq, State.modBayXu, modBay_modBay]
      exact bayBecomes_triggerBay rfl rfl
    refine bayTriggered_triggerBay hPhase fun w => ?_
    rw [← h0]
  · have hClear : BayBecomes b { s.bay b with
        supply := { (s.bay b).supply with latched := 0 }
        xu := { (s.bay b).xu with lastSeq := seq } } s
        (triggerBay b ((actSeq b seq s).modSupply b fun p => { p with latched := 0 })) := by
      simp only [actSeq, State.modBayXu, State.modSupply, modBay_modBay]
      exact bayBecomes_triggerBay rfl rfl
    have hPhase := bayTriggered_triggerBay hClear (f := fun y => { y with phase := .idle })
      (z := { s.bay b with
        phase := .idle
        supply := { (s.bay b).supply with latched := 0 }
        xu := { (s.bay b).xu with lastSeq := seq } }) fun _ => rfl
    exact bayTriggered_triggerBay hPhase fun _ => rfl

/-- Settles O18, request by request. -/
theorem clearRecoverAndUnknownRequests : Obligations.ClearRecoverAndUnknownRequests := by
  refine ⟨fun s b seq hs h0 => ?_, fun s seq hs h0 h1 => ?_⟩
  · refine ⟨fun h1 he => ?_, fun h1 => ⟨_, (exec_rackRequests_new hs h0 h1).2, echoRack_becomes seq .ignored s⟩⟩
    obtain ⟨-, -, hClear, hUnknown⟩ := exec_bayRequests_new hs h0 h1 he 0
    refine ⟨fun hp => ⟨_, hClear, clearRequest_halted hp⟩, fun hp => ⟨_, hClear, ?_⟩, _, hUnknown,
      answered_echoBay b seq .ignored s⟩
    have he' : clearRequest b seq s = echoBay b seq .ignored (actSeq b seq s) := if_neg (by simpa [actSeq] using hp)
    rw [he']
    exact answered_echoBay ..
  · have hRecover := (exec_rackRequests_new hs h0 h1).1
    exact ⟨fun hf => ⟨_, hRecover, recoverRequest_failed hf⟩, fun hf => ⟨_, hRecover, recoverRequest_ignored hf⟩⟩

end Sys2Proof.Machine

namespace Sys2Proof.Machine

open Sys2Proof

/-! ## The scan pass -/

theorem endPass_eq (s : State) : endPass s = passEnds s := by
  unfold endPass passEnds
  dsimp only
  split <;> rfl

/-- No withdrawal is outstanding, in the model's word for it. -/
theorem withdrawing_of_none {s : State} (h : NoWithdrawal s) : withdrawing s = false := withdrawing_eq_false.2 h

theorem withdrawing_of_some {s : State} (h : ∃ b, (s.bay b).xu.withdrawal ≠ none) : withdrawing s = true := by
  obtain ⟨b, hb⟩ := h
  exact Bool.of_not_eq_false fun hf => hb (withdrawing_eq_false.1 hf b)

section
variable {s : State} {p : Pass}

theorem modPass_eq (h : s.xu.pass = some p) (f : Pass → Pass) :
    modPass f s = { s with xu := { s.xu with pass := some (f p) } } := by
  simp [modPass, State.modXu, h]

/-- A pass goes on only with no withdrawal outstanding, and waits otherwise (R15). -/
theorem passOn_waits (h : s.xu.pass = some p) (hw : ∃ b, (s.bay b).xu.withdrawal ≠ none) (r : PassRead) :
    passOn r s = { s with xu := { s.xu with pass := some { p with waits := true } } } := by
  rw [passOn, withdrawing_of_some hw, if_pos rfl, modPass_eq h]

theorem passOn_goes (hw : NoWithdrawal s) (r : PassRead) : passOn r s = passAfter r s := by
  rw [passOn, withdrawing_of_none hw]
  exact if_neg Bool.false_ne_true

/-- A pass whose CTRL.RUN has been cleared ends (R3, R8). -/
theorem passAfter_ending (h : s.xu.pass = some p) (he : p.ending = true) (r : PassRead) : passAfter r s = passEnds s := by
  have hEnds : ((s.xu.pass.map fun p => p.ending).getD false) = true := by simp [h, he]
  rw [← endPass_eq]
  unfold passAfter passFirstWord passWord passBay
  split <;> exact if_pos hEnds

section
variable (h : s.xu.pass = some p) (he : p.ending = false)
include h he

theorem passWord_goes (b : Bay) (x : Slot) (second : Bool) :
    passWord b x second s = { s with xu := { s.xu with
      pass := some (passReads s p (.word b x second) (slotOffset b x)) } } := by
  rw [passWord, if_neg (by simp [h, he]), passRead_pass h]
  rfl

theorem passBay_ends {bays : List Bay} (hn : bays.find? (fun b => (s.bay b).xu.enabled) = none) :
    passBay bays s = passEnds s := by
  rw [passBay, if_neg (by simp [h, he]), firstEnabled, hn]
  exact endPass_eq s

theorem passBay_reads {bays : List Bay} {b : Bay} (hb : bays.find? (fun b => (s.bay b).xu.enabled) = some b) :
    passBay bays s = { s with xu := { s.xu with
      pass := some { passReads s p (.bayBlock b) (0x0040 + 16 * bayNum b) with posted := [], discard := false } } } := by
  rw [passBay, if_neg (by simp [h, he]), firstEnabled, hb, modPass_eq h]
  dsimp only
  rw [passRead_pass rfl]
  rfl

theorem goesToBays {bays : List Bay} {r : PassRead} (hr : passOn r s = passBay bays s) : GoesToBays bays r p s :=
  ⟨fun _ hb => hr.trans (passBay_reads h he hb), fun hn => hr.trans (passBay_ends h he hn)⟩

end

end

/-- A read of a command block completes only while the pass waits for one (R8, R13). -/
theorem blockRead_idle {d : List Byte} {s : State}
    (h : ∀ p, s.xu.pass = some p → p.waits = false → ∃ b x second, p.read = .word b x second) : blockRead d s = s := by
  unfold blockRead
  split
  · rfl
  · next p hp =>
    obtain ⟨hp, hw⟩ := passWaits_eq_some.1 hp
    obtain ⟨b, x, second, hr⟩ := h p hp hw
    rw [hr]

theorem blockRead_rack {d : List Byte} {s : State} {p : Pass} (hp : s.xu.pass = some p) (hw : p.waits = false)
    (hr : p.read = .rackBlock) : blockRead d s = passOn .rackBlock (rackBlockRead d s) := by
  rw [blockRead, passWaits_eq_some.2 ⟨hp, hw⟩]
  simp only [hr]

theorem blockRead_bay {d : List Byte} {s : State} {p : Pass} {b : Bay} (hp : s.xu.pass = some p) (hw : p.waits = false)
    (hr : p.read = .bayBlock b) : blockRead d s = passOn (.bayBlock b) (bayBlockRead b p.discard d s) := by
  rw [blockRead, passWaits_eq_some.2 ⟨hp, hw⟩]
  simp only [hr]

/-- A bay command block with nothing new, or whose findings are discarded (R8, R13). -/
theorem bayBlockRead_old {b : Bay} {discard : Bool} {d : List Byte} {s : State}
    (h : discard = true ∨ (s.bay b).xu.enabled = false ∨ BitVec.ofNat 16 (u16At d 2) = 0 ∨
      BitVec.ofNat 16 (u16At d 2) = (s.bay b).xu.lastSeq) : bayBlockRead b discard d s = s := by
  unfold bayBlockRead
  dsimp only
  split
  · rfl
  · next hd => exact bayRequest_old (by tauto) _

/-- A bay command block with a new request (R8, R13). -/
theorem bayBlockRead_new (b : Bay) (d : List Byte) (s : State) :
    bayBlockRead b false d s = bayRequest b (BitVec.ofNat 16 (u16At d 2))
      (bayCode b (u16At d 0) (BitVec.ofNat 16 (u16At d 2)) (BitVec.ofNat 32 (u32At d 4))) s := rfl

/-- The rack command block read completes (R13, R160). -/
theorem exec_rackBlockRead {s : State} {d : List Byte} {p : Pass} (hs : Up s) (hp : s.xu.pass = some p)
    (hw : p.waits = false) (hr : p.read = .rackBlock) :
    let seq : Word16 := BitVec.ofNat 16 (u16At d 2)
    let s1 := { s with bus := { s.bus with fast := decide (u32At d 4 % 4 = 1) } }
    (seq = 0 ∨ seq = s.xu.rackSeq → exec (.commandBlockReadComplete d) s = .next (passOn .rackBlock s1)) ∧
    (seq ≠ 0 → seq ≠ s.xu.rackSeq →
      (u16At d 0 = 1 → ∃ t, exec (.recoverBus seq) s1 = .next t ∧
        exec (.commandBlockReadComplete d) s = .next (passOn .rackBlock t)) ∧
      (u16At d 0 ≠ 1 → ∃ t, exec (.unknownRequest none seq) s1 = .next t ∧
        exec (.commandBlockReadComplete d) s = .next (passOn .rackBlock t))) := by
  intro seq s1
  have hUp1 : Up s1 := hs
  have he : exec (.commandBlockReadComplete d) s = .next (passOn .rackBlock (rackRequest seq
      (if u16At d 0 = 1 then recoverRequest seq else unknownRack seq) s1)) :=
    (exec_up hs rfl).trans (congrArg _ (blockRead_rack hp hw hr))
  obtain ⟨hRecover, hUnknown⟩ := exec_rackRequests hUp1 seq
  rw [he]
  refine ⟨fun h => ?_, fun _ _ => ⟨fun hc => ⟨_, hRecover, ?_⟩, fun hc => ⟨_, hUnknown, ?_⟩⟩⟩
  · rw [rackRequest_old (s := s1) h]
  · rw [if_pos hc]
  · rw [if_neg hc]

/-- A bay command block read completes (R8, R13). -/
theorem exec_bayBlockRead {s : State} {d : List Byte} {p : Pass} {b : Bay} (hs : Up s) (hp : s.xu.pass = some p)
    (hw : p.waits = false) (hr : p.read = .bayBlock b) :
    let seq : Word16 := BitVec.ofNat 16 (u16At d 2)
    (p.discard = true ∨ (s.bay b).xu.enabled = false ∨ seq = 0 ∨ seq = (s.bay b).xu.lastSeq →
      exec (.commandBlockReadComplete d) s = .next (passOn (.bayBlock b) s)) ∧
    (p.discard = false → (s.bay b).xu.enabled = true → seq ≠ 0 → seq ≠ (s.bay b).xu.lastSeq →
      (u16At d 0 = 1 → ∃ t, exec (.abortRun b seq) s = .next t ∧
        exec (.commandBlockReadComplete d) s = .next (passOn (.bayBlock b) t)) ∧
      (u16At d 0 = 2 → ∃ t, exec (.withdraw b seq (BitVec.ofNat 32 (u32At d 4))) s = .next t ∧
        exec (.commandBlockReadComplete d) s = .next (passOn (.bayBlock b) t)) ∧
      (u16At d 0 = 3 → ∃ t, exec (.clearFaults b seq) s = .next t ∧
        exec (.commandBlockReadComplete d) s = .next (passOn (.bayBlock b) t)) ∧
      (u16At d 0 ≠ 1 → u16At d 0 ≠ 2 → u16At d 0 ≠ 3 → ∃ t, exec (.unknownRequest (some b) seq) s = .next t ∧
        exec (.commandBlockReadComplete d) s = .next (passOn (.bayBlock b) t))) := by
  intro seq
  have he : exec (.commandBlockReadComplete d) s = .next (passOn (.bayBlock b) (bayBlockRead b p.discard d s)) :=
    (exec_up hs rfl).trans (congrArg _ (blockRead_bay hp hw hr))
  obtain ⟨hAbort, hWithdraw, hClear, hUnknown⟩ := exec_bayRequests hs b seq (BitVec.ofNat 32 (u32At d 4))
  rw [he]
  refine ⟨fun h => by rw [bayBlockRead_old h], fun hd _ _ _ => ?_⟩
  rw [hd, bayBlockRead_new]
  refine ⟨fun hc => ⟨_, hAbort, ?_⟩, fun hc => ⟨_, hWithdraw, ?_⟩, fun hc => ⟨_, hClear, ?_⟩,
    fun h1 h2 h3 => ⟨_, hUnknown, ?_⟩⟩
  · rw [hc]
    rfl
  · rw [hc]
    rfl
  · rw [hc]
    rfl
  · have hc : bayCode b (u16At d 0) seq (BitVec.ofNat 32 (u32At d 4)) = unknownBay b seq := by
      funext u
      unfold bayCode
      split
      · exact absurd ‹_› h1
      · exact absurd ‹_› h2
      · exact absurd ‹_› h3
      · rfl
    rw [hc]

/-- Settles O14: the request of the block by its own command, then the pass, which waits, ends or reads on. -/
theorem commandBlocksReadInOrder : Obligations.CommandBlocksReadInOrder := by
  constructor
  · intro s d hs
    have he : exec (.commandBlockReadComplete d) s = .next (blockRead d s) := exec_up hs rfl
    refine ⟨fun hn => ?_, fun p hp hw => ?_, fun p hp h1 h2 => ?_, fun p => exec_rackBlockRead hs,
      fun b p => exec_bayBlockRead hs⟩
    · rw [he, blockRead_idle fun p hp => absurd (hn.symm.trans hp) nofun]
    · rw [he, blockRead_idle fun q hq hf => ?_]
      obtain rfl : p = q := Option.some.inj (hp.symm.trans hq)
      exact absurd (hw.symm.trans hf) nofun
    · rw [he, blockRead_idle fun q hq _ => ?_]
      obtain rfl : p = q := Option.some.inj (hp.symm.trans hq)
      cases hr : p.read with
      | rackBlock => exact absurd hr h1
      | bayBlock b => exact absurd hr (h2 b)
      | word b x second => exact ⟨b, x, second, rfl⟩
  · intro s p hp
    refine ⟨passOn_waits hp, fun hw => ⟨fun he r => ?_, fun he => ⟨?_, fun b => ?_, fun b x => ?_, fun b x => ?_⟩⟩⟩
    · rw [passOn_goes hw, passAfter_ending hp he]
    · exact goesToBays hp he (passOn_goes hw _)
    · exact (passOn_goes hw _).trans (passWord_goes hp he ..)
    · exact (passOn_goes hw _).trans (passWord_goes hp he ..)
    · exact goesToBays hp he (passOn_goes hw _)

end Sys2Proof.Machine

namespace Sys2Proof.Machine

open Sys2Proof

/-! ## The completion of a part reset -/

/-- No key to read (R201). -/
theorem pollKeys_quiet {b : Bay} {s : State} (h : (s.bay b).panel.attention = false) : pollKeys b s = s := by
  simp [pollKeys, h]

/-- A key read requested (R201). -/
theorem pollKeys_asks {b : Bay} {s : State} (ha : (s.bay b).panel.attention = true)
    (hk : (s.bay b).panel.keyRead = .none) (hp : (s.bay b).phase ≠ .closing) (hf : s.bus.state ≠ .failed) :
    ((pollKeys b s).bay b).panel.keyRead = .outstanding := by
  have hc : ((s.bay b).panel.attention && (s.bay b).panel.keyRead = .none && (s.bay b).phase ≠ .closing) = true := by
    simp [ha, hk, hp]
  unfold pollKeys
  dsimp only
  rw [if_pos hc]
  split
  · simp
  · next hr =>
    unfold busRequest at hr
    rw [if_neg hf] at hr
    split at hr <;> cases hr

/-- An operation of one bay after the other, each of its own bay alone: every bay comes out as its own leaves it. -/
theorem forAll_ownBay {f : Bay → State → State} (hf : ∀ b s, Moves none b s (f b s)) {bays : List Bay} (hn : bays.Nodup)
    {b : Bay} (hb : b ∈ bays) (s : State) :
    ∃ u, u.bay b = s.bay b ∧ u.bus.state = s.bus.state ∧ (forAll bays f s).bay b = (f b u).bay b := by
  have hOther {o c : Bay} (h : o ≠ c) (u : State) : (f c u).bay o = u.bay o := by
    rw [← outside_bay h, (hf c u).outside_eq, outside_bay h]
  have hBus (c : Bay) (u : State) : (f c u).bus.state = u.bus.state := by
    have h := congrArg (fun v : State => v.bus.state) (hf c u).outside_eq
    exact h
  induction bays generalizing s with
  | nil => exact absurd hb List.not_mem_nil
  | cons c rest ih =>
    obtain ⟨hc, hn⟩ := List.nodup_cons.1 hn
    by_cases hbc : b = c
    · subst hbc
      refine ⟨s, rfl, rfl, ?_⟩
      have hRest : ∀ (l : List Bay) (u : State), b ∉ l → (forAll l f u).bay b = u.bay b := by
        intro l
        induction l with
        | nil => exact fun _ _ => rfl
        | cons d l ih =>
          intro u hl
          rw [List.mem_cons, not_or] at hl
          exact (ih (f d u) hl.2).trans (hOther hl.1 u)
      exact hRest rest (f b s) hc
    · obtain ⟨u, hu, hs, he⟩ := ih hn ((List.mem_cons.1 hb).resolve_left hbc) (f c s)
      exact ⟨u, hu.trans (hOther hbc s), hs.trans (hBus c s), he⟩

theorem forAll_id {α : Type} {f : α → State → State} {xs : List α} {s : State} (h : ∀ x ∈ xs, f x s = s) :
    forAll xs f s = s := by
  induction xs with
  | nil => rfl
  | cons x xs ih =>
    show forAll xs f (f x s) = s
    rw [h x List.mem_cons_self]
    exact ih fun y hy => h y (List.mem_cons_of_mem x hy)

theorem mem_allBays (b : Bay) : b ∈ allBays := by cases b <;> decide

theorem setBusState_bays (st : BusState) (s : State) : (setBusState st s).bays = s.bays := by
  unfold setBusState
  split
  · rfl
  · rw [triggerRack_eq]
    rfl

theorem enterBusyOther_bays (s : State) : (enterBusyOther s).bays = s.bays := setBusState_bays _ _

theorem setBusState_state (st : BusState) (s : State) : (setBusState st s).bus.state = st := by
  unfold setBusState
  split
  · assumption
  · simp

/-- The part as the completion of a reset first watches the bus (R4, R180). -/
def resetWatched (s : State) : State :=
  let s1 := s.modXu fun x => { x with resetting := false }
  if s1.bus.scl then s1 else enterBusyOther s1

theorem resetDone_eq (s : State) : resetDone s = forAll allBays pollKeys (resetWatched s) := rfl

theorem resetWatched_high {s : State} (h : s.bus.scl = true) :
    resetWatched s = { s with xu := { s.xu with resetting := false } } := if_pos h

theorem resetWatched_low {s : State} (h : s.bus.scl = false) :
    resetWatched s = enterBusyOther (s.modXu fun x => { x with resetting := false }) := if_neg (by simp [h])

theorem resetWatched_bays (s : State) : (resetWatched s).bays = s.bays := by
  cases h : s.bus.scl
  · rw [resetWatched_low h, enterBusyOther_bays]
    rfl
  · rw [resetWatched_high h]

theorem resetWatched_state {s : State} (h : s.bus.state ≠ .failed) : (resetWatched s).bus.state ≠ .failed := by
  cases hl : s.bus.scl
  · rw [resetWatched_low hl]
    exact ne_of_eq_of_ne (setBusState_state _ _) (by decide)
  · rw [resetWatched_high hl]
    exact h

/-- With no attention line asserted no key is read at the completion (R197). -/
theorem resetDone_quiet {s : State} (h : ∀ b, (s.bay b).panel.attention = false) : resetDone s = resetWatched s := by
  rw [resetDone_eq]
  refine forAll_id fun b _ => pollKeys_quiet ?_
  simpa [State.bay, resetWatched_bays] using h b

/-- Settles O4: the gate of a part reset, and its completion stage by stage. -/
theorem partResetHoldsOffThenCompletes : Obligations.PartResetHoldsOffThenCompletes := by
  refine ⟨fun c s => exec_resetting, fun s => ⟨fun hs => ?_, fun hs => ?_⟩⟩
  · rw [exec_resetComplete, if_neg (Bool.eq_false_iff.1 hs)]
  have he : exec .resetComplete s = .next (resetDone s) := by rw [exec_resetComplete, if_pos hs]
  refine ⟨fun hscl hq => ?_, fun hscl hst hq => ⟨_, he, ?_⟩, fun hst => ⟨_, he, resetDone_resetting s, fun b ha hk hp => ?_⟩⟩
  · rw [he, resetDone_quiet hq, resetWatched_high hscl]
  · rw [resetDone_quiet hq, resetWatched_low hscl]
    exact (setBusState_becomes (st := .busyOther) (f := fun x => { x with resetting := false }) (g := id) (s := s)
      (by simp [hst]) rfl rfl fun _ => rfl).restartCounts
  · obtain ⟨u, hu, hState, hBay⟩ := forAll_ownBay (f := pollKeys) (fun _ _ => pollKeys_moves) (by decide)
      (mem_allBays b) (resetWatched s)
    have hb : u.bay b = s.bay b := hu.trans (by simp only [State.bay, resetWatched_bays])
    rw [resetDone_eq, hBay]
    exact pollKeys_asks (by rw [hb, ha]) (by rw [hb, hk]) (by rwa [hb]) (by rw [hState]; exact resetWatched_state hst)

end Sys2Proof.Machine

namespace Sys2Proof.Machine

open Sys2Proof

/-! ## What has been issued, item by item -/

/-- From one state to another only items that satisfy a test have been issued. -/
def Issues (test : StreamItem → Prop) (s t : State) : Prop :=
  ∃ l, t.xu.stream = s.xu.stream ++ l ∧ ∀ i ∈ l, test i

section
variable {test : StreamItem → Prop} {s t u : State}

theorem Issues.issued (h : Issues test s t) : ∀ i ∈ issued s t, test i := by
  obtain ⟨l, hl, ht⟩ := h
  rwa [issued_of_append hl]

theorem Issues.trans (h : Issues test s t) (g : Issues test t u) : Issues test s u := by
  obtain ⟨l, hl, ht⟩ := h
  obtain ⟨m, hm, gt⟩ := g
  exact ⟨l ++ m, by rw [hm, hl, List.append_assoc], fun i hi => (List.mem_append.1 hi).elim (ht i) (gt i)⟩

theorem Issues.of_eq (h : t.xu.stream = s.xu.stream) : Issues test s t :=
  ⟨[], by simp [h], fun _ hi => absurd hi List.not_mem_nil⟩

theorem writeArea_issues {k : WriteKind} {o : Nat} {d : List Byte} (h : test (areaItem s k o d)) :
    Issues test s (writeArea k o d s) :=
  ⟨[areaItem s k o d], rfl, fun _ hi => List.mem_singleton.1 hi ▸ h⟩

theorem setEvent_issues (h : test .interrupt) (n : Nat) (s : State) : Issues test s (setEvent n s) := by
  refine ⟨_, setEvent_stream n s, fun i hi => ?_⟩
  split at hi
  · exact List.mem_singleton.1 hi ▸ h
  · exact absurd hi List.not_mem_nil

theorem recordError_issues (h : test .interrupt) (k : ErrorKind) (o : Option Bay) (s : State) :
    Issues test s (recordError k o s) :=
  .trans (.of_eq rfl) (setEvent_issues h _ _)

theorem triggerBay_issues {b : Bay} (h : test (areaItem s (.bayStatus b) (bayStatusOffset b) (bayStatusBytes b s))) :
    Issues test s (triggerBay b s) := by
  rw [triggerBay_eq]
  refine ⟨_, rfl, fun i hi => ?_⟩
  unfold bayWrites at hi
  split at hi
  · exact List.mem_singleton.1 hi ▸ h
  · exact absurd hi List.not_mem_nil

end

/-! ## A memory error recorded (R21) -/

theorem setEvent_merr (n : Nat) (s : State) : (setEvent n s).xu.merr = s.xu.merr := by
  simp only [setEvent]
  split <;> rfl

theorem errorRecorded_recordError (kind : ErrorKind) (o : Option Bay) (s : State) :
    ErrorRecorded kind o s (recordError kind o s) := by
  constructor
  · rw [recordError, setEvent_merr]
    rfl
  · rw [recordError, setEvent_events, getLsbD_setBit _ (by decide)]
    simp [xfaultBit]

/-- Later events take nothing from a recorded error. -/
theorem ErrorRecorded.later {kind : ErrorKind} {o : Option Bay} {s t u : State} (h : ErrorRecorded kind o s t)
    (hm : u.xu.merr = t.xu.merr) (he : ∀ n, t.xu.events.getLsbD n = true → u.xu.events.getLsbD n = true) :
    ErrorRecorded kind o s u :=
  ⟨hm.trans h.1, he 9 h.2⟩

/-! ## Requests for a withdrawal (R15) -/

/-- WITHDRAW acted on where the bay can withdraw the slot it names. -/
theorem withdrawRequest_reads {b : Bay} {seq : Word16} {argument : Word32} {x : Slot} {s : State}
    (ha : argSlot argument = some x) (hp : canWithdraw (s.bay b) = true) :
    withdrawRequest b seq argument s = { s with bays := baySet s.bays b { s.bay b with
      xu := { (s.bay b).xu with
        lastSeq := seq
        withdrawal := some ⟨x, seq, areaRead s (slotOffset b x)⟩ } } } := by
  have hc : canWithdraw ((actSeq b seq s).bay b) = true := by simpa [canWithdraw, actSeq] using hp
  simp only [withdrawRequest, ha, hc, if_true]
  simp only [actSeq, State.modBayXu, modBay_modBay]
  rfl

/-- WITHDRAW acted on elsewhere, or for an argument that names no slot. -/
theorem withdrawRequest_ignored {b : Bay} {seq : Word16} {argument : Word32} {s : State}
    (h : argSlot argument = none ∨ canWithdraw (s.bay b) = false) :
    Answered b seq .ignored s (withdrawRequest b seq argument s) := by
  have he : withdrawRequest b seq argument s = echoBay b seq .ignored (actSeq b seq s) := by
    unfold withdrawRequest
    dsimp only
    split
    · rfl
    · next x hx =>
      have hc : canWithdraw ((actSeq b seq s).bay b) = false := by
        simpa [canWithdraw, actSeq, hx] using h
      rw [hc]
      rfl
  rw [he]
  exact answered_echoBay ..

/-- A withdrawal finds its slot POSTED in a bay that can withdraw it, or it does not. -/
theorem posted_or (word : Word32) (y : BayState) :
    (word = 1 ∧ canWithdraw y = true) ∨ word ≠ 1 ∨ canWithdraw y = false := by
  cases canWithdraw y
  · exact .inr (.inr rfl)
  · by_cases h : word = 1
    · exact .inl ⟨h, rfl⟩
    · exact .inr (.inl h)

theorem canWithdraw_iff {y : BayState} : canWithdraw y = true ↔ y.phase = .idle ∨ y.phase = .halted := by
  simp [canWithdraw]

/-! ## The read of a withdrawal, apart from the pass -/

/-- The scan pass put in place of the one in progress. -/
def withPass (q : Option Pass) (s : State) : State := { s with xu := { s.xu with pass := q } }

theorem triggerBay_withPass (b : Bay) (q : Option Pass) (s : State) :
    triggerBay b (withPass q s) = withPass q (triggerBay b s) := by
  rw [triggerBay_eq, triggerBay_eq]
  rfl

theorem echoBay_withPass (b : Bay) (seq : Word16) (r : EchoResult) (q : Option Pass) (s : State) :
    echoBay b seq r (withPass q s) = withPass q (echoBay b seq r s) :=
  triggerBay_withPass b q (s.modStatus b fun t => { t with echoSeq := seq, echo := r })

theorem recordError_withPass (k : ErrorKind) (o : Option Bay) (q : Option Pass) (s : State) :
    recordError k o (withPass q s) = withPass q (recordError k o s) := by
  unfold recordError setEvent
  dsimp only [State.modXu, withPass]
  split <;> rfl

/-- A slot withdrawn, but for the echo: FINISHED, the counter and the slots (R12, R15, R17). -/
def slotWithdrawn (b : Bay) (w : Withdrawal) (s : State) : State :=
  (writeArea (.finished b) (slotOffset b w.slot) (leBytes 4 3) s).modBay b fun y =>
    { y with
      run := { y.run with lastTaken := some w.slot }
      xu := { y.xu with
        next := otherSlot w.slot
        waiting := if y.xu.waiting = some w.slot then none else y.xu.waiting }
      status := { y.status with finished := y.status.finished + 1 } }

/-- A pass in progress disregards a slot from its withdrawal on (R10). -/
theorem withdrawn_withPass (b : Bay) (w : Withdrawal) (q : Option Pass) (s : State) :
    withdrawn b w (withPass q s) =
      withPass (q.map fun p => { p with withdrawn := p.withdrawn ++ [(b, w.slot)] })
        (echoBay b w.seq .done (slotWithdrawn b w s)) := by
  rw [← echoBay_withPass]
  rfl

/-- What the read of a withdrawal does, before a pass that has waited for it goes on (R15). -/
def withdrawTaken (b : Bay) (w : Withdrawal) (word : Word32) (accepted : Bool) (s : State) : State :=
  let s' := s.modBayXu b fun u => { u with withdrawal := none }
  if word = 1 && canWithdraw (s'.bay b) then
    if accepted then withdrawn b w (withdrawnHeader b w.slot s')
    else echoBay b w.seq .ignored (recordError .writeError (some b) (withdrawnHeader b w.slot s'))
  else echoBay b w.seq .ignored s'

theorem withdrawRead_eq (b : Bay) (w : Withdrawal) (word : Word32) (accepted : Bool) (s : State) :
    withdrawRead b w word accepted s = passResume (withdrawTaken b w word accepted s) := rfl

section
variable {b : Bay} {w : Withdrawal} {word : Word32} {s : State}

/-- A withdrawal whose slot is not found POSTED, or whose bay has left IDLE and HALTED (R15). -/
theorem withdrawTaken_ignored (h : word ≠ 1 ∨ canWithdraw (s.bay b) = false) (accepted : Bool) :
    withdrawTaken b w word accepted s =
      echoBay b w.seq .ignored (s.modBayXu b fun u => { u with withdrawal := none }) := by
  refine if_neg ?_
  have hc : canWithdraw ((s.modBayXu b fun u => { u with withdrawal := none }).bay b) = canWithdraw (s.bay b) := by
    simp [canWithdraw]
  rw [hc]
  rcases h with h | h
  · simp only [h, decide_false, Bool.false_and, Bool.false_eq_true, not_false_eq_true]
  · simp only [h, Bool.and_false, Bool.false_eq_true, not_false_eq_true]

/-- A withdrawal of a slot found POSTED (R15). -/
theorem withdrawTaken_posted (h : word = 1) (hp : canWithdraw (s.bay b) = true) (accepted : Bool) :
    withdrawTaken b w word accepted s =
      if accepted then withdrawn b w (withdrawnHeader b w.slot (s.modBayXu b fun u => { u with withdrawal := none }))
      else echoBay b w.seq .ignored (recordError .writeError (some b)
        (withdrawnHeader b w.slot (s.modBayXu b fun u => { u with withdrawal := none }))) := by
  refine if_pos ?_
  have hc : canWithdraw ((s.modBayXu b fun u => { u with withdrawal := none }).bay b) = canWithdraw (s.bay b) := by
    simp [canWithdraw]
  rw [hc, hp, h]
  rfl

/-- The pass takes part in a withdrawal only by the slot it disregards from then on (R10). -/
theorem withdrawTaken_withPass (w : Withdrawal) (word : Word32) (accepted : Bool) (p : Pass) (s : State) :
    withdrawTaken b w word accepted (withPass (some p) s) =
      withPass (some { p with withdrawn :=
        if word = 1 ∧ accepted = true ∧ ((s.bay b).phase = .idle ∨ (s.bay b).phase = .halted) then
          p.withdrawn ++ [(b, w.slot)] else p.withdrawn })
        (withdrawTaken b w word accepted (withPass none s)) := by
  let u := withdrawnHeader b w.slot (s.modBayXu b fun x => { x with withdrawal := none })
  rcases posted_or word (s.bay b) with h | h'
  · obtain ⟨hw, hp⟩ := h
    rw [withdrawTaken_posted (s := withPass (some p) s) hw hp, withdrawTaken_posted (s := withPass none s) hw hp]
    cases accepted
    · simp only [Bool.false_eq_true, false_and, and_false, if_false]
      show echoBay b w.seq .ignored (recordError .writeError (some b) (withPass (some p) u)) =
        withPass (some p) (echoBay b w.seq .ignored (recordError .writeError (some b) (withPass none u)))
      rw [recordError_withPass, recordError_withPass, echoBay_withPass, echoBay_withPass]
      rfl
    · rw [if_pos rfl, if_pos rfl, if_pos ⟨hw, rfl, canWithdraw_iff.1 hp⟩]
      show withdrawn b w (withPass (some p) u) = withPass _ (withdrawn b w (withPass none u))
      rw [withdrawn_withPass, withdrawn_withPass]
      rfl
  · have hc : ¬(word = 1 ∧ accepted = true ∧ ((s.bay b).phase = .idle ∨ (s.bay b).phase = .halted)) :=
      fun ⟨hw, _, hp⟩ => h'.elim (absurd hw) fun hf => absurd (hf.symm.trans (canWithdraw_iff.2 hp)) nofun
    rw [withdrawTaken_ignored (s := withPass (some p) s) h', withdrawTaken_ignored (s := withPass none s) h', if_neg hc]
    show echoBay b w.seq .ignored (withPass (some p) (s.modBayXu b fun x => { x with withdrawal := none })) =
      withPass (some p) (echoBay b w.seq .ignored
        (withPass none (s.modBayXu b fun x => { x with withdrawal := none })))
    rw [echoBay_withPass, echoBay_withPass]
    rfl

end

/-- A pass that has waited for the end of the last withdrawal goes on (R15). -/
theorem passResume_goes {s : State} {p : Pass} (hp : s.xu.pass = some p) (hw : p.waits = true)
    (hn : withdrawing s = false) : passResume s = passOn p.read s := by
  rw [passOn_goes (withdrawing_eq_false.1 hn)]
  simp only [passResume, hp, hw, hn, Bool.not_false, Bool.and_self, if_true]

/-- A pass that does not wait, or waits for another withdrawal too, is left as it is (R15). -/
theorem passResume_stays {s : State} (h : (∀ p, s.xu.pass = some p → p.waits = false) ∨ withdrawing s = true) :
    passResume s = s := by
  unfold passResume
  split
  · rfl
  · next p hp =>
    have hc : (p.waits && !withdrawing s) = false := by
      rcases h with h | h
      · rw [h p hp, Bool.false_and]
      · rw [h, Bool.not_true, Bool.and_false]
    rw [hc]
    rfl

theorem passResume_none {s : State} (hp : s.xu.pass = none) : passResume s = s :=
  passResume_stays (.inl fun _ h => absurd (hp.symm.trans h) nofun)

/-- A status block's trigger leaves a bay's withdrawal as it is. -/
theorem echoBay_withdrawal (b : Bay) (seq : Word16) (r : EchoResult) (s : State) :
    ((echoBay b seq r s).bay b).xu.withdrawal = (s.bay b).xu.withdrawal := by
  obtain ⟨w, hw⟩ := triggerBay_bay b (s.modStatus b fun t => { t with echoSeq := seq, echo := r })
  rw [echoBay, hw]
  simp

section
variable {b : Bay} {w : Withdrawal} {word : Word32} {s : State}

/-- A withdrawal of a slot found POSTED whose header write is accepted (R15). -/
theorem withdrawTaken_accepted (h : word = 1) (hp : canWithdraw (s.bay b) = true) :
    withdrawTaken b w word true s =
      withPass (s.xu.pass.map fun p => { p with withdrawn := p.withdrawn ++ [(b, w.slot)] })
        (echoBay b w.seq .done (slotWithdrawn b w
          (withdrawnHeader b w.slot (s.modBayXu b fun u => { u with withdrawal := none })))) := by
  rw [withdrawTaken_posted h hp, if_pos rfl]
  exact withdrawn_withPass b w s.xu.pass
    (withdrawnHeader b w.slot (s.modBayXu b fun u => { u with withdrawal := none }))

/-- The read of a withdrawal ends it (R15). -/
theorem withdrawTaken_withdrawal (accepted : Bool) : ((withdrawTaken b w word accepted s).bay b).xu.withdrawal = none := by
  rcases posted_or word (s.bay b) with h | h'
  · cases accepted
    · rw [withdrawTaken_posted h.1 h.2, if_neg (by decide), echoBay_withdrawal]
      simp [withdrawnHeader]
    · rw [withdrawTaken_accepted h.1 h.2]
      show ((echoBay b w.seq .done _).bay b).xu.withdrawal = none
      rw [echoBay_withdrawal]
      simp [slotWithdrawn, withdrawnHeader]
  · rw [withdrawTaken_ignored h', echoBay_withdrawal]
    simp

theorem withdrawTaken_moves (accepted : Bool) : ScanMoves none b s (withdrawTaken b w word accepted s) := by
  refine .trans (b := s.modBayXu b fun u => { u with withdrawal := none }) (modBayXu_moves rfl rfl).scan ?_
  refine iteScan_moves (fun _ => ?_) fun _ => (echoBay_moves ..).scan
  refine .trans (b := withdrawnHeader b w.slot _) (writeArea_moves ..).scan ?_
  exact iteScan_moves (fun _ => withdrawn_moves _) fun _ =>
    Moves.scan ((recordError_moves ..).trans (echoBay_moves ..))

end

/-- The header fields of a slot withdrawn as they are issued (R15, R28). -/
def withdrawnHeaderItem (b : Bay) (x : Slot) (s : State) : StreamItem :=
  areaItem s (.header b) (slotOffset b x + 0x80) (headerBytes 5 1 0 0 0 0 s.rackTime 0 s.rackTime 0 0)

theorem withdrawnHeader_eq (b : Bay) (x : Slot) (s : State) : withdrawnHeader b x s = emit (withdrawnHeaderItem b x s) s := rfl

/-- The bay after a withdrawal, but for the write of its status block (R12, R15, R17). -/
def bayWithdrawn (w : Withdrawal) (y : BayState) : BayState :=
  { y with
    run := { y.run with lastTaken := some w.slot }
    xu := { y.xu with
      withdrawal := none
      next := otherSlot w.slot
      waiting := if y.xu.waiting = some w.slot then none else y.xu.waiting }
    status := { y.status with finished := y.status.finished + 1, echoSeq := w.seq, echo := .done } }

/-- The slot withdrawn with its echo (R12, R15, R17). -/
theorem echoBay_slotWithdrawn (b : Bay) (w : Withdrawal) (s : State) :
    echoBay b w.seq .done (slotWithdrawn b w
      (withdrawnHeader b w.slot (s.modBayXu b fun u => { u with withdrawal := none }))) = { s with
        bays := baySet s.bays b { bayWithdrawn w (s.bay b) with xu := { (bayWithdrawn w (s.bay b)).xu with
          write := if (s.bay b).xu.write = .idle then .busy else .busyMarked } }
        xu := { s.xu with
          stream := s.xu.stream ++ withdrawnHeaderItem b w.slot s ::
            areaItem s (.finished b) (slotOffset b w.slot) [3, 0, 0, 0] ::
            bayWrites b { s with bays := baySet s.bays b (bayWithdrawn w (s.bay b)) } s } } := by
  let u : State := { s with xu := { s.xu with stream := s.xu.stream ++
    [withdrawnHeaderItem b w.slot s, areaItem s (.finished b) (slotOffset b w.slot) [3, 0, 0, 0]] } }
  have hu : echoBay b w.seq .done (slotWithdrawn b w
      (withdrawnHeader b w.slot (s.modBayXu b fun u => { u with withdrawal := none }))) =
      triggerBay b (u.modBay b (bayWithdrawn w)) := by
    have hBay : ((slotWithdrawn b w (withdrawnHeader b w.slot
        (s.modBayXu b fun u => { u with withdrawal := none }))).modStatus b fun t =>
          { t with echoSeq := w.seq, echo := .done }) = u.modBay b (bayWithdrawn w) := by
      simp only [slotWithdrawn, withdrawnHeader, writeArea, emit, State.modBayXu, State.modStatus, State.modBay,
        State.modXu, State.bay, bayGet_baySet, baySet_baySet, List.append_assoc, List.singleton_append, u]
      rfl
    rw [echoBay, hBay]
  rw [hu]
  have h := bayBecomes_triggerBay (b := b) (s := u) (f := bayWithdrawn w) rfl rfl
  rw [BayBecomes, BayTriggered] at h
  rw [h]
  simp only [and_true, List.append_assoc, List.cons_append, List.nil_append, u]
  rfl

/-- A withdrawal that is answered IGNORED without a write into the slot (R15). -/
theorem withdrawTaken_becomes {b : Bay} {w : Withdrawal} {word : Word32} {s : State}
    (h : word ≠ 1 ∨ canWithdraw (s.bay b) = false) (accepted : Bool) :
    BayBecomes b { s.bay b with
      xu := { (s.bay b).xu with withdrawal := none }
      status := { (s.bay b).status with echoSeq := w.seq, echo := .ignored } } s
      (withdrawTaken b w word accepted s) := by
  rw [withdrawTaken_ignored h, echoBay]
  simp only [State.modBayXu, State.modStatus, modBay_modBay]
  exact bayBecomes_triggerBay rfl rfl

/-- A withdrawal whose header write the card does not accept (R15, R20 to R22). -/
theorem withdrawTaken_refused {b : Bay} {w : Withdrawal} {s : State} (hp : canWithdraw (s.bay b) = true) :
    let t := withdrawTaken b w 1 false s
    ErrorRecorded .writeError (some b) s t ∧ (t.bay b).status.echo = .ignored ∧ (t.bay b).status.echoSeq = w.seq ∧
      (t.bay b).run = (s.bay b).run ∧ (t.bay b).xu.next = (s.bay b).xu.next ∧ (t.bay b).xu.withdrawal = none ∧
      ∀ i ∈ issued s t, ∀ a d, i ≠ .write (.finished b) a d := by
  let u := withdrawnHeader b w.slot (s.modBayXu b fun x => { x with withdrawal := none })
  have ht : withdrawTaken b w 1 false s = echoBay b w.seq .ignored (recordError .writeError (some b) u) := by
    rw [withdrawTaken_posted rfl hp, if_neg Bool.false_ne_true]
  have hu : u.bay b = { s.bay b with xu := { (s.bay b).xu with withdrawal := none } } := by
    simp [u, withdrawnHeader]
  obtain ⟨v, hv⟩ := triggerBay_bay b
    ((recordError .writeError (some b) u).modStatus b fun t => { t with echoSeq := w.seq, echo := .ignored })
  have hBay : (withdrawTaken b w 1 false s).bay b = { s.bay b with
      xu := { (s.bay b).xu with withdrawal := none, write := v }
      status := { (s.bay b).status with echoSeq := w.seq, echo := .ignored } } := by
    rw [ht, echoBay, hv]
    simp [hu]
  refine ⟨?_, by rw [hBay], by rw [hBay], by rw [hBay], by rw [hBay], by rw [hBay], ?_⟩
  · have hError : ErrorRecorded .writeError (some b) s (recordError .writeError (some b) u) :=
      errorRecorded_recordError .writeError (some b) u
    rw [ht, echoBay]
    exact hError.later (by rw [triggerBay_xu]; rfl) fun n hn => by rw [triggerBay_xu]; exact hn
  · have hIssues : Issues (fun i => ∀ a d, i ≠ .write (.finished b) a d) s (withdrawTaken b w 1 false s) := by
      have h1 : Issues (fun i => ∀ a d, i ≠ .write (.finished b) a d) s u := writeArea_issues (by simp [areaItem])
      rw [ht, echoBay]
      exact (h1.trans (recordError_issues (by simp) _ _ _)).trans
        (.trans (.of_eq rfl) (triggerBay_issues (by simp [areaItem])))
    exact hIssues.issued

/-- An operation of a bay takes no part in the scan pass. -/
theorem Moves.pass {k : Option OwnItem} {b : Bay} {s t : State} (h : Moves k b s t) : t.xu.pass = s.xu.pass := by
  have ho := congrArg (fun u : State => u.xu.pass) h.outside_eq
  exact ho

theorem withdrawTaken_pass {b : Bay} {w : Withdrawal} {word : Word32} {accepted : Bool} {s : State}
    (hn : s.xu.pass = none) : (withdrawTaken b w word accepted s).xu.pass = none := by
  have hMove : Moves none b s (s.modBayXu b fun u => { u with withdrawal := none }) := modBayXu_moves rfl rfl
  rcases posted_or word (s.bay b) with h | h'
  · cases accepted
    · rw [withdrawTaken_posted h.1 h.2, if_neg Bool.false_ne_true, ← hn]
      exact Moves.pass (hMove.trans (.trans (writeArea_moves (k := none) ..)
        ((recordError_moves ..).trans (echoBay_moves ..))))
    · rw [withdrawTaken_accepted h.1 h.2, hn]
      rfl
  · rw [withdrawTaken_ignored h', ← hn]
    exact Moves.pass (hMove.trans (echoBay_moves ..))

/-- The withdrawals that are still outstanding after the end of one (R15). -/
theorem withdrawing_after {b : Bay} {s t : State} (ho : ∀ o, o ≠ b → t.bay o = s.bay o)
    (hb : (t.bay b).xu.withdrawal = none) :
    withdrawing t = false ↔ ∀ o, o ≠ b → (s.bay o).xu.withdrawal = none := by
  rw [withdrawing_eq_false]
  constructor
  · intro h o hne
    rw [← ho o hne]
    exact h o
  · intro h o
    by_cases hne : o = b
    · rw [hne, hb]
    · rw [ho o hne]
      exact h o hne

theorem withdrawing_withdrawTaken {b : Bay} {w : Withdrawal} {word : Word32} {accepted : Bool} {s : State} :
    withdrawing (withdrawTaken b w word accepted s) = false ↔ ∀ o, o ≠ b → (s.bay o).xu.withdrawal = none := by
  refine withdrawing_after (fun o ho => ?_) (withdrawTaken_withdrawal accepted)
  have h := congrArg (fun u : State => u.bay o) (withdrawTaken_moves (b := b) (w := w) (word := word) (s := s)
    accepted).outside_eq
  simpa [outsideScan, outside, State.bay, bayGet_baySet_of_ne _ ho] using h

/-- Settles O17: the request, the read apart from the pass, and the pass that goes on. -/
theorem withdrawalReadsAndHandsBack : Obligations.WithdrawalReadsAndHandsBack := by
  have hRead {s : State} {b : Bay} {w : Withdrawal} (hs : Up s) (hw : (s.bay b).xu.withdrawal = some w) (word : Word32)
      (accepted : Bool) : exec (.withdrawReadComplete b word accepted) s =
        .next (passResume (withdrawTaken b w word accepted s)) := by
    refine (exec_up hs rfl).trans (congrArg _ ?_)
    rw [hw]
    exact withdrawRead_eq ..
  refine ⟨fun s b seq argument hs h0 h1 he => ?_, fun s b word hs hn w hw => ?_, fun s b word accepted hs => ?_⟩
  · obtain ⟨-, hWithdraw, -, -⟩ := exec_bayRequests_new hs h0 h1 he argument
    refine ⟨fun x hx hp => ?_, fun hi hh => ⟨_, hWithdraw, withdrawRequest_ignored (.inr ?_)⟩, fun ha hb =>
      ⟨_, hWithdraw, withdrawRequest_ignored (.inl ?_)⟩⟩
    · rw [hWithdraw, withdrawRequest_reads (x := x) (by cases x <;> subst hx <;> rfl) (canWithdraw_iff.2 hp)]
    · exact Bool.eq_false_iff.2 fun hc => (canWithdraw_iff.1 hc).elim hi hh
    · rw [argSlot, if_neg ha, if_neg hb]
  · simp only [hRead hs hw, passResume_none (withdrawTaken_pass hn)]
    refine ⟨fun accepted h => ⟨_, rfl, withdrawTaken_becomes (h.imp id fun h => ?_) accepted⟩, fun h1 hp => ⟨?_, _, rfl, ?_⟩⟩
    · exact Bool.eq_false_iff.2 fun hc => (canWithdraw_iff.1 hc).elim h.1 h.2
    · rw [withdrawTaken_accepted h1 (canWithdraw_iff.2 hp), echoBay_slotWithdrawn,
        show s.xu.pass.map _ = s.xu.pass by rw [hn]; rfl]
      rfl
    · subst h1
      exact withdrawTaken_refused (canWithdraw_iff.2 hp)
  · refine ⟨fun hn => ?_, fun w hw p hp => ?_⟩
    · refine (exec_up hs rfl).trans (congrArg _ ?_)
      rw [hn]
    · have hRest := hRead (s := withPass none s) hs hw word accepted
      rw [passResume_none (withdrawTaken_pass rfl)] at hRest
      refine ⟨_, hRest, ?_⟩
      have hs' : s = withPass (some p) s := by rw [withPass, ← hp]
      have hTaken : withdrawTaken b w word accepted s = _ :=
        (congrArg _ hs').trans (withdrawTaken_withPass w word accepted p s)
      have hPass := congrArg (fun u : State => u.xu.pass) hTaken
      rw [hRead hs hw]
      refine ⟨fun hWaits hRest => ?_, fun hStays => ?_⟩
      · rw [passResume_goes (p := { p with withdrawn := _ }) hPass hWaits (withdrawing_withdrawTaken.2 hRest), hTaken]
        rfl
      · rw [passResume_stays, hTaken]
        · rfl
        · refine hStays.imp (fun h q hq => ?_) fun ⟨o, ho, h⟩ =>
            Bool.of_not_eq_false fun hf => h (withdrawing_withdrawTaken.1 hf o ho)
          obtain rfl := Option.some.inj (hPass.symm.trans hq)
          exact h

end Sys2Proof.Machine

namespace Sys2Proof.Machine

open Sys2Proof

/-! ## Requests of the panel handler -/

/-- Only the panel handler of a bay but for its prompts, its lamp flag and the fixture bus have changed. -/
structure PanelAsks (b : Bay) (s t : State) : Prop where
  xu : t.xu = s.xu
  time : t.rackTime = s.rackTime
  bay : ∃ p f, p.prompts = (s.bay b).panel.prompts ∧
    t.bay b = { s.bay b with panel := p, status := { (s.bay b).status with lampFailed := f } }

section
variable {b : Bay} {s t u : State}

theorem PanelAsks.refl (b : Bay) (s : State) : PanelAsks b s s := ⟨rfl, rfl, _, _, rfl, rfl⟩

theorem PanelAsks.trans (h : PanelAsks b s t) (g : PanelAsks b t u) : PanelAsks b s u := by
  obtain ⟨p, f, hp, ht⟩ := h.bay
  obtain ⟨q, e, hq, hu⟩ := g.bay
  refine ⟨g.xu.trans h.xu, g.time.trans h.time, q, e, ?_, ?_⟩
  · rw [hq, ht, hp]
  · rw [hu, ht]

theorem modPanel_asks {f : Panel → Panel} (h : (f (s.bay b).panel).prompts = (s.bay b).panel.prompts) :
    PanelAsks b s (s.modPanel b f) :=
  ⟨rfl, rfl, _, (s.bay b).status.lampFailed, h, bay_modPanel s b f⟩

theorem busRequest_asks {e : BusEntry} (h : busRequest e s = some t) : PanelAsks b s t := by
  obtain ⟨-, hb, hx, -⟩ := busRequest_cases h
  have ht : t.rackTime = s.rackTime := by
    unfold busRequest at h
    split at h
    · cases h
    · split at h <;> cases h <;> rfl
  exact ⟨hx, ht, _, _, rfl, by rw [State.bay, hb]; rfl⟩

theorem flagLampFailed_asks : PanelAsks b s (flagLampFailed b s) := ⟨rfl, rfl, _, true, rfl, by simp [flagLampFailed]⟩

theorem wantLamp_asks (lamps : Byte) : PanelAsks b s (wantLamp b lamps s) := by
  unfold wantLamp
  split
  · exact modPanel_asks rfl
  · split
    · exact (busRequest_asks ‹_›).trans (modPanel_asks rfl)
    · exact flagLampFailed_asks

theorem requestFixed_asks (x : FixedText) : PanelAsks b s (requestFixed b x s) := by
  unfold requestFixed
  split
  · exact (busRequest_asks ‹_›).trans (modPanel_asks rfl)
  · exact .refl b s

theorem wantText_asks (x : FixedText) : PanelAsks b s (wantText b x s) := by
  unfold wantText
  split
  · exact requestFixed_asks x
  · exact modPanel_asks rfl

theorem pollKeys_asks_only : PanelAsks b s (pollKeys b s) := by
  unfold pollKeys
  dsimp only
  split
  · split
    · exact (busRequest_asks ‹_›).trans (modPanel_asks rfl)
    · exact modPanel_asks rfl
  · exact .refl b s

end

/-! ## The take of a slot -/

/-- The bay as a take sets it before the panel is asked and the state changes (R39, R142). -/
def bayTaken (b : Bay) (x : Slot) (s : State) (y : BayState) : BayState :=
  { y with
    run := { RunEngine.reset with
      slot := some x
      lastTaken := some x
      load := some ⟨.header, areaRead s (slotOffset b x), none, none⟩
      takeTime := s.rackTime }
    supply := supplyAtTake y.supply
    status := statusAtTake y.status }

theorem slotTaken_eq (b : Bay) (x : Slot) (s : State) : slotTaken b x s =
    { s with
      bays := baySet s.bays b (bayTaken b x s (s.bay b))
      xu := { s.xu with stream := s.xu.stream ++ [areaItem s (.active b) (slotOffset b x) [2, 0, 0, 0]] } } := rfl

/-- A bay as a statement about a take sees it: with the panel, the lamp flag and the write of the status block left open. -/
theorem taken_of_bay {b : Bay} {x : Slot} {s t : State} {p : Panel} {f : Bool} {w : WriteProgress}
    (hb : t.bay b = { bayTaken b x s (s.bay b) with
      phase := .loading
      panel := p
      status := { statusAtTake (s.bay b).status with lampFailed := f }
      xu := { (s.bay b).xu with
        waiting := if (s.bay b).xu.waiting = some x then none else (s.bay b).xu.waiting
        write := w } })
    (hw : w = if (s.bay b).xu.write = .idle ∧ (s.bay b).xu.waiting ≠ some x then .busy else .busyMarked)
    (hi : ∃ d, issued s t = areaItem s (.active b) (slotOffset b x) [2, 0, 0, 0] ::
        (if (s.bay b).xu.write = .idle then [areaItem s (.bayStatus b) (bayStatusOffset b) d] else []) ∧
      ((s.bay b).xu.waiting ≠ some x → d = bayStatusBytes b t)) : Taken b x s t := by
  refine ⟨hi, ?_, ?_, ?_, ?_, ?_, ?_, ?_, ?_, ?_, ?_⟩ <;> rw [hb]
  · exact hw
  all_goals rfl

theorem slotTaken_bay (b : Bay) (x : Slot) (s : State) : (slotTaken b x s).bay b = bayTaken b x s (s.bay b) := by
  simp only [slotTaken_eq, State.bay, bayGet_baySet]

theorem waitingTaken_other {b : Bay} {x : Slot} {s : State} (h : (s.bay b).xu.waiting ≠ some x) :
    waitingTaken b x (slotTaken b x s) = slotTaken b x s :=
  if_neg (by rwa [slotTaken_bay])

theorem waitingTaken_same {b : Bay} {x : Slot} {s : State} (h : (s.bay b).xu.waiting = some x) :
    waitingTaken b x (slotTaken b x s) = triggerBay b ((slotTaken b x s).modBayXu b fun u => { u with waiting := none }) := by
  have hw : ((slotTaken b x s).bay b).xu.waiting = some x := by rwa [slotTaken_bay]
  rw [waitingTaken, if_pos hw, setWaiting, if_neg (by rw [hw]; exact nofun)]

/-- What the last stage of a take does: the panel asked, the bay in LOADING, and the write of its block triggered. -/
theorem setPhase_asked {b : Bay} {u v : State} (h : PanelAsks b u v) :
    ∃ p f, (setPhase b .loading v).bay b = { u.bay b with
        phase := .loading
        panel := p
        status := { (u.bay b).status with lampFailed := f }
        xu := { (u.bay b).xu with write := if (u.bay b).xu.write = .idle then .busy else .busyMarked } } ∧
      (setPhase b .loading v).xu.stream = u.xu.stream ++
        if (u.bay b).xu.write = .idle then
          [areaItem u (.bayStatus b) (bayStatusOffset b) (bayStatusBytes b (setPhase b .loading v))] else [] := by
  obtain ⟨p, f, -, hb⟩ := h.bay
  have hw : ((v.modBay b fun y => { y with phase := .loading }).bay b).xu.write = (u.bay b).xu.write := by
    simp [hb]
  refine ⟨p, f, ?_, ?_⟩
  · rw [setPhase, triggerBay_self, hw, bay_modBay, hb]
  · have hcopy : bayStatusBytes b (setPhase b .loading v) =
        bayStatusBytes b (v.modBay b fun y => { y with phase := .loading }) := by
      rw [setPhase]
      refine bayStatusBytes_congr (triggerBay_self _ _) ?_ ?_
      · rw [triggerBay_bus]
      · rw [triggerBay_eq]
    rw [hcopy, setPhase, triggerBay_xu, bayWrites, hw, areaItem, areaItem]
    simp only [modBay_xu, h.xu]

/-- The take of a slot (R9, R10, R18, R39, R142). -/
theorem take_taken (b : Bay) (x : Slot) (s : State) :
    Taken b x s (take b x s) ∧ ((take b x s).bay b).xu.backToBack = (s.bay b).xu.backToBack := by
  have hAsks : PanelAsks b (waitingTaken b x (slotTaken b x s))
      (wantText b .clear (wantLamp b 0x00 (waitingTaken b x (slotTaken b x s)))) :=
    (wantLamp_asks _).trans (wantText_asks _)
  obtain ⟨p, f, hb, hs⟩ := setPhase_asked hAsks
  rw [← take_eq] at hb hs
  by_cases hx : (s.bay b).xu.waiting = some x
  · let u := (slotTaken b x s).modBayXu b fun u => { u with waiting := none }
    have hu : u.bay b = { bayTaken b x s (s.bay b) with xu := { (s.bay b).xu with waiting := none } } := by
      simp only [u, bay_modBayXu, slotTaken_bay]
      rfl
    have hne : (if (s.bay b).xu.write = .idle then WriteProgress.busy else .busyMarked) ≠ .idle := by split <;> decide
    have hwrite : (u.bay b).xu.write = (s.bay b).xu.write := by rw [hu]
    rw [waitingTaken_same hx, triggerBay_self, hwrite] at hb hs
    simp only [hne, if_false, List.append_nil, triggerBay_xu] at hb hs
    refine ⟨taken_of_bay (p := p) (f := f) (w := .busyMarked) ?_ (by simp [hx])
      ⟨bayStatusBytes b u, ?_, fun h => absurd hx h⟩, ?_⟩
    · rw [hb, hu, hx, if_pos rfl]
      rfl
    · refine issued_of_append (hs.trans ?_)
      have hWrites : bayWrites b u u = if (s.bay b).xu.write = .idle then
          [areaItem s (.bayStatus b) (bayStatusOffset b) (bayStatusBytes b u)] else [] := by
        rw [bayWrites, hwrite]
        rfl
      show (s.xu.stream ++ [_]) ++ bayWrites b u u = _
      rw [hWrites, List.append_assoc]
      rfl
    · rw [hb, hu]
  · rw [waitingTaken_other hx, slotTaken_bay] at hb hs
    refine ⟨taken_of_bay (p := p) (f := f) (w := if (s.bay b).xu.write = .idle then .busy else .busyMarked) ?_ ?_
      ⟨bayStatusBytes b (take b x s), ?_, fun _ => rfl⟩, ?_⟩
    · rw [hb, if_neg hx]
      rfl
    · simp [hx]
    · refine issued_of_append (hs.trans ?_)
      show (s.xu.stream ++ [_]) ++ _ = _
      rw [List.append_assoc]
      rfl
    · rw [hb]
      rfl

/-! ## Ownership words (R6, R8 to R11) -/

theorem setWaiting_same {b : Bay} {w : Option Slot} {s : State} (h : (s.bay b).xu.waiting = w) : setWaiting b w s = s :=
  if_pos h

theorem setWaiting_becomes {b : Bay} {w : Option Slot} {s : State} (h : (s.bay b).xu.waiting ≠ w) :
    BayBecomes b { s.bay b with xu := { (s.bay b).xu with waiting := w } } s (setWaiting b w s) := by
  rw [setWaiting, if_neg h]
  exact bayBecomes_triggerBay rfl rfl

theorem holdsSlot_eq (y : BayState) (x : Slot) : holdsSlot y x = decide (y.run.slot = some x) := rfl

/-- A POSTED finding that the pass disregards (R9, R10). -/
theorem passFinding_disregarded {b : Bay} {x : Slot} {gone : List (Bay × Slot)} {s : State}
    (h : (s.bay b).run.slot = some x ∨ (b, x) ∈ gone) : passFinding b x gone s = s := by
  refine if_pos ?_
  rcases h with h | h
  · simp [holdsSlot, h]
  · simp [h]

/-- A POSTED finding in IDLE is a take (R9). -/
theorem passFinding_idle {b : Bay} {x : Slot} {gone : List (Bay × Slot)} {s : State}
    (h1 : (s.bay b).run.slot ≠ some x) (h2 : (b, x) ∉ gone) (hp : (s.bay b).phase = .idle) :
    passFinding b x gone s = take b x s := by
  rw [passFinding, if_neg (by simp [holdsSlot, h1, h2]), if_pos hp]

/-- A POSTED finding elsewhere counts toward the waiting slot (R9). -/
theorem passFinding_posted {b : Bay} {x : Slot} {gone : List (Bay × Slot)} {s : State} {p : Pass}
    (h1 : (s.bay b).run.slot ≠ some x) (h2 : (b, x) ∉ gone) (hp : (s.bay b).phase ≠ .idle) (hs : s.xu.pass = some p) :
    passFinding b x gone s = { s with xu := { s.xu with pass := some { p with posted := p.posted ++ [x] } } } := by
  rw [passFinding, if_neg (by simp [holdsSlot, h1, h2]), if_neg hp, modPass_eq hs]

/-- The waiting slot after both words: the first finding that the bay does not hold (R9). -/
theorem updateWaiting_eq {b : Bay} {s : State} {p : Pass} (h : s.xu.pass = some p) :
    updateWaiting b s = setWaiting b (p.posted.find? fun z => (s.bay b).run.slot ≠ some z) s := by
  unfold updateWaiting
  rw [h]
  simp only [holdsSlot_eq, decide_not]

/-- What an ownership word of the pass does before the pass goes on (R8 to R10). -/
def wordFound (b : Bay) (x : Slot) (word : Word32) (p : Pass) (s : State) : State :=
  if word = 1 && !p.discard then passFinding b x p.withdrawn s else s

theorem wordRead_eq {s : State} {p : Pass} {b : Bay} {x : Slot} {second : Bool} {word : Word32}
    (hp : s.xu.pass = some p) (hw : p.waits = false) (hr : p.read = .word b x second) :
    wordRead word s = passOn p.read (if second && !p.discard then updateWaiting b (wordFound b x word p s)
      else wordFound b x word p s) := by
  rw [wordRead, passWaits_eq_some.2 ⟨hp, hw⟩]
  simp only [hr, wordFound]

/-- An ownership word is read only while the pass waits for one (R8). -/
theorem wordRead_idle {s : State} {word : Word32}
    (h : ∀ p, s.xu.pass = some p → p.waits = true ∨ p.read = .rackBlock ∨ ∃ b, p.read = .bayBlock b) :
    wordRead word s = s := by
  unfold wordRead
  split
  · rfl
  · next p hp =>
    obtain ⟨hp, hw⟩ := passWaits_eq_some.1 hp
    rcases h p hp with h | h | ⟨b, h⟩
    · exact absurd (h.symm.trans hw) nofun
    · rw [h]
    · rw [h]

/-- An ownership word of a pass whose findings count (R8 to R10). -/
theorem wordRead_counts {s : State} {p : Pass} {b : Bay} {x : Slot} {second : Bool} {word : Word32}
    (hp : s.xu.pass = some p) (hw : p.waits = false) (hr : p.read = .word b x second) (hd : p.discard = false) :
    ∃ u t, wordRead word s = passOn p.read t ∧
      (word ≠ 1 ∨ (s.bay b).run.slot = some x ∨ (b, x) ∈ p.withdrawn → u = s) ∧
      (word = 1 → (s.bay b).run.slot ≠ some x → (b, x) ∉ p.withdrawn →
        ((s.bay b).phase = .idle → Taken b x s u ∧ u.xu.pass = s.xu.pass) ∧
        ((s.bay b).phase ≠ .idle →
          u = { s with xu := { s.xu with pass := some { p with posted := p.posted ++ [x] } } })) ∧
      (second = false → t = u) ∧
      (second = true → ∀ q, u.xu.pass = some q →
        ∀ w, w = q.posted.find? (fun z => (u.bay b).run.slot ≠ some z) →
        ((u.bay b).xu.waiting = w → t = u) ∧
        ((u.bay b).xu.waiting ≠ w →
          BayBecomes b { u.bay b with xu := { (u.bay b).xu with waiting := w } } u t)) := by
  have hFound (h1 : word = 1) : wordFound b x word p s = passFinding b x p.withdrawn s := by
    rw [wordFound, hd, h1]
    rfl
  refine ⟨wordFound b x word p s, _, wordRead_eq hp hw hr, fun h => ?_, fun h1 h2 h3 => ⟨fun hi => ?_, fun hi => ?_⟩,
    fun h => ?_, fun h q hq w hW => ?_⟩
  · by_cases h1 : word = 1
    · rw [hFound h1, passFinding_disregarded (h.resolve_left (absurd h1))]
    · rw [wordFound, if_neg (by simp only [h1, decide_false, Bool.false_and, Bool.false_eq_true, not_false_eq_true])]
  · rw [hFound h1, passFinding_idle h2 h3 hi]
    exact ⟨(take_taken b x s).1, (take_moves (k := none) x).pass⟩
  · rw [hFound h1, passFinding_posted h2 h3 hi hp]
  · rw [h]
    rfl
  · rw [h, hd, updateWaiting_eq hq, ← hW]
    exact ⟨setWaiting_same, setWaiting_becomes⟩

/-- The back-to-back read ended (R11). -/
def backEnded (b : Bay) (s : State) : State := s.modBayXu b fun u => { u with backToBack := none }

theorem backEnded_bay (b : Bay) (s : State) :
    (backEnded b s).bay b = { s.bay b with xu := { (s.bay b).xu with backToBack := none } } := bay_modBayXu ..

/-- A take that follows the end of a back-to-back read is a take. -/
theorem Taken.of_backEnded {b : Bay} {x : Slot} {s t : State} (h : Taken b x (backEnded b s) t) : Taken b x s t := by
  unfold Taken at h
  rw [backEnded_bay] at h
  exact h

/-- A back-to-back read completes, by what it finds and the bay's state (R11). -/
theorem exec_backToBack {s : State} {b : Bay} {r : Slot × ReadIssue} (hs : Up s)
    (hr : (s.bay b).xu.backToBack = some r) :
    (∀ word : Word32, word ≠ 1 → exec (.backToBackReadComplete b word) s = .next { s with bays := baySet s.bays b { s.bay b with
      xu := { (s.bay b).xu with backToBack := none } } }) ∧
    ((s.bay b).phase = .idle → ∃ t, exec (.backToBackReadComplete b 1) s = .next t ∧ Taken b r.1 s t ∧
      (t.bay b).xu.backToBack = none) ∧
    ((s.bay b).phase ≠ .idle → (s.bay b).run.slot = some (otherSlot r.1) → (s.bay b).xu.waiting ≠ some r.1 →
      ∃ t, exec (.backToBackReadComplete b 1) s = .next t ∧
        BayBecomes b { s.bay b with
          xu := { (s.bay b).xu with backToBack := none, waiting := some r.1 } } s t) ∧
    ((s.bay b).phase ≠ .idle → (s.bay b).run.slot ≠ some (otherSlot r.1) ∨ (s.bay b).xu.waiting = some r.1 →
      exec (.backToBackReadComplete b 1) s = .next { s with bays := baySet s.bays b { s.bay b with
        xu := { (s.bay b).xu with backToBack := none } } }) := by
  have he (word : Word32) : exec (.backToBackReadComplete b word) s =
      .next (if word = 1 then backFinding b r.1 (backEnded b s) else backEnded b s) := by
    refine (exec_up hs rfl).trans (congrArg _ ?_)
    rw [hr]
    rfl
  have hFinding : backFinding b r.1 (backEnded b s) =
      if (s.bay b).phase = .idle then take b r.1 (backEnded b s)
      else if (s.bay b).run.slot.isSome && !holdsSlot (s.bay b) r.1 then setWaiting b (some r.1) (backEnded b s)
      else backEnded b s := by
    simp only [backFinding, backEnded_bay]
    rfl
  refine ⟨fun word h => ?_, fun hp => ?_, fun hp hslot hw => ?_, fun hp h => ?_⟩
  · rw [he, if_neg h]
    rfl
  · obtain ⟨hTaken, hBack⟩ := take_taken b r.1 (backEnded b s)
    rw [he, if_pos rfl, hFinding, if_pos hp]
    exact ⟨_, rfl, hTaken.of_backEnded, hBack.trans (by rw [backEnded_bay])⟩
  · have hc : ((s.bay b).run.slot.isSome && !holdsSlot (s.bay b) r.1) = true := by
      rw [holdsSlot_eq, hslot]
      cases r.1 <;> decide
    rw [he, if_pos rfl, hFinding, if_neg hp, hc, if_pos rfl, setWaiting, backEnded_bay, if_neg hw]
    refine ⟨_, rfl, ?_⟩
    simp only [backEnded, State.modBayXu, modBay_modBay]
    exact bayBecomes_triggerBay rfl rfl
  · rw [he, if_pos rfl, hFinding, if_neg hp]
    split
    · next hc =>
      rw [Bool.and_eq_true, holdsSlot_eq, Bool.not_eq_true', decide_eq_false_iff_not, Option.isSome_iff_exists] at hc
      obtain ⟨⟨y, hy⟩, hne⟩ := hc
      have hother : (s.bay b).run.slot = some (otherSlot r.1) := by
        rw [hy] at hne ⊢
        revert hne
        cases y <;> cases r.1 <;> decide
      rw [setWaiting_same (by rw [backEnded_bay]; exact h.resolve_left (absurd hother))]
      rfl
    · rfl

/-- Settles O19: the word of the pass, its findings, and the back-to-back read. -/
theorem ownershipFindings : Obligations.OwnershipFindings := by
  have he {s : State} (hs : Up s) (word : Word32) : exec (.ownershipWordReadComplete word) s = .next (wordRead word s) :=
    exec_up hs rfl
  refine ⟨fun s word hs => ⟨fun hn => ?_, fun p hp h => ?_⟩, fun s b x second word hs p hp hw hr => ⟨fun hd => ?_, fun hd => ?_⟩,
    fun s b hs => ⟨fun hn word => ?_, fun r hr => exec_backToBack hs hr⟩⟩
  · rw [he hs, wordRead_idle fun p hp => absurd (hn.symm.trans hp) nofun]
  · rw [he hs, wordRead_idle fun q hq => ?_]
    obtain rfl : p = q := Option.some.inj (hp.symm.trans hq)
    exact h
  · rw [he hs, wordRead_eq hp hw hr, wordFound, hd]
    simp only [Bool.not_true, Bool.and_false, Bool.false_eq_true, if_false]
  · obtain ⟨u, t, ht, h⟩ := wordRead_counts (word := word) hp hw hr hd
    exact ⟨u, t, by rw [he hs, ht], h⟩
  · refine (exec_up hs rfl).trans (congrArg _ ?_)
    rw [hn]

end Sys2Proof.Machine

namespace Sys2Proof.Machine

open Sys2Proof

/-! ## What the way on through CLOSING keeps -/

/-- A bay but for what its way on through CLOSING changes: the slot, the marks and the hand-back, the sets of faults, the
panel but for its prompts, the exchange unit's items, and the counters and flags of the status block. -/
def settled (y : BayState) : BayState :=
  { y with
    phase := .closing
    run := { y.run with
      slot := none, closing := .none, inFlight := [], claims := Vector.replicate 14 none, lost := false, cycleAfter := 0 }
    supply := { y.supply with watches := Supply.reset.watches, latched := 0, reported := 0 }
    panel := { Panel.reset with prompts := y.panel.prompts }
    xu := { y.xu with next := .a, write := .idle, backToBack := none, refused := none }
    status := { y.status with
      runLost := false, lostLabel := 0, cycleFailed := false, lampFailed := false, identCycles := 0
      finished := 0, passed := 0, failed := 0 } }

/-- What the status block says of lost runs and of runs handed back. -/
def handedBack (u : BayStatus) : Bool × Word32 × Word32 × Word32 × Word32 :=
  (u.runLost, u.lostLabel, u.finished, u.passed, u.failed)

/-- A bay on its way through CLOSING and out of it. -/
structure BayGoesOn (y z : BayState) : Prop where
  settled : settled z = settled y
  inFlight : y.run.inFlight = [] → z.run.inFlight = []
  unfinished : oldestUnfinished y.run = 0xFF → oldestUnfinished z.run = 0xFF
  phase : z.phase = y.phase ∨ y.phase = .closing ∧
    (y.xu.enabled = false ∧ z.phase = .offline ∨
      y.xu.enabled = true ∧ (z.phase = .halted ∨ z.phase = .idle ∧ y.supply.latched = 0))
  latched : z.phase ≠ .offline → ∀ f, y.supply.latched &&& f = f → z.supply.latched &&& f = f
  refused : y.xu.refused = none → z.xu.refused = none
  lost : y.run.lost = true → z.run.lost = true ∧ handedBack z.status = handedBack y.status

theorem BayGoesOn.refl (y : BayState) : BayGoesOn y y :=
  ⟨rfl, id, id, .inl rfl, fun _ _ => id, id, fun h => ⟨h, rfl⟩⟩

theorem settled_enabled {y z : BayState} (h : Machine.settled z = Machine.settled y) : z.xu.enabled = y.xu.enabled := by
  have he := congrArg (fun x : BayState => x.xu.enabled) h
  exact he

theorem BayGoesOn.enabled {y z : BayState} (h : BayGoesOn y z) : z.xu.enabled = y.xu.enabled :=
  settled_enabled h.settled

theorem BayGoesOn.trans {x y z : BayState} (h : BayGoesOn x y) (g : BayGoesOn y z) : BayGoesOn x z where
  settled := g.settled.trans h.settled
  inFlight hx := g.inFlight (h.inFlight hx)
  unfinished hx := g.unfinished (h.unfinished hx)
  phase := by
    rcases g.phase with gp | ⟨gy, gp⟩
    · rw [gp]
      exact h.phase
    · have hx : x.phase = .closing := by
        rcases h.phase with hp | ⟨hx, -⟩
        · exact hp ▸ gy
        · exact hx
      refine .inr ⟨hx, ?_⟩
      rw [h.enabled] at gp
      refine gp.imp id fun ⟨he, hz⟩ => ⟨he, hz.imp id fun ⟨hz, hl⟩ => ⟨hz, ?_⟩⟩
      have := h.latched (by rw [gy]; decide) x.supply.latched (BitVec.and_self)
      rw [hl] at this
      simpa using this.symm
  latched hz f hf := by
    refine g.latched hz f (h.latched (fun hy => hz ?_) f hf)
    rcases g.phase with gp | ⟨gy, -⟩
    · rw [gp, hy]
    · exact absurd (hy.symm.trans gy) nofun
  refused hx := g.refused (h.refused hx)
  lost hx := by
    obtain ⟨hy, hs⟩ := h.lost hx
    obtain ⟨hz, gs⟩ := g.lost hy
    exact ⟨hz, gs.trans hs⟩

/-- Items that show of the bay no step in flight and no unfinished step, or are no copy of its status block (R17). -/
def ShowsDone (b : Bay) (i : StreamItem) : Prop :=
  ∀ a d, i = .write (.bayStatus b) a d → byteAt d 3 = 0xFF ∧ byteAt d 4 = 0

/-- Items that hand back no run of the bay (R23). -/
def NoHandBack (b : Bay) (i : StreamItem) : Prop :=
  ∀ a d, i ≠ .write (.header b) a d ∧ i ≠ .write (.finished b) a d

/-- A bay's way on through CLOSING and out of it, with what is issued. -/
structure GoesOn (b : Bay) (s t : State) : Prop where
  bay : BayGoesOn (s.bay b) (t.bay b)
  merr : (s.bay b).xu.refused = none ∨ (s.bay b).run.lost = true → t.xu.merr = s.xu.merr
  shown : (s.bay b).run.inFlight = [] → oldestUnfinished (s.bay b).run = 0xFF → Issues (ShowsDone b) s t
  handed : (s.bay b).run.lost = true → Issues (NoHandBack b) s t

theorem GoesOn.refl (b : Bay) (s : State) : GoesOn b s s := ⟨.refl _, fun _ => rfl, fun _ _ => .of_eq rfl, fun _ => .of_eq rfl⟩

theorem GoesOn.trans {b : Bay} {s t u : State} (h : GoesOn b s t) (g : GoesOn b t u) : GoesOn b s u where
  bay := h.bay.trans g.bay
  merr hs := (g.merr (hs.imp h.bay.refused fun hl => (h.bay.lost hl).1)).trans (h.merr hs)
  shown hf ho := (h.shown hf ho).trans (g.shown (h.bay.inFlight hf) (h.bay.unfinished ho))
  handed hl := (h.handed hl).trans (g.handed (h.bay.lost hl).1)

/-- What a copy of the status block shows of the run (section 11.4). -/
theorem bayStatusBytes_shown (b : Bay) (s : State) :
    byteAt (bayStatusBytes b s) 0 = phaseCode (s.bay b).phase % 256 ∧
      byteAt (bayStatusBytes b s) 3 = oldestUnfinished (s.bay b).run % 256 ∧
      byteAt (bayStatusBytes b s) 4 = (s.bay b).run.inFlight.length % 256 := by
  unfold bayStatusBytes
  simp only [leBytes, List.append_assoc, List.cons_append, List.nil_append, byteAt, List.getD_cons_zero,
    List.getD_cons_succ, BitVec.toNat_ofNat, Nat.reducePow, and_self]

/-- A bay's way on that leaves its state. -/
structure StaysOn (b : Bay) (s t : State) : Prop where
  goesOn : GoesOn b s t
  phase : (t.bay b).phase = (s.bay b).phase

theorem StaysOn.refl (b : Bay) (s : State) : StaysOn b s s := ⟨.refl b s, rfl⟩

theorem StaysOn.trans {b : Bay} {s t u : State} (h : StaysOn b s t) (g : StaysOn b t u) : StaysOn b s u :=
  ⟨h.goesOn.trans g.goesOn, g.phase.trans h.phase⟩

theorem or_and_of_and {l g : FaultSet} (f : FaultSet) (h : l &&& g = g) : (l ||| f) &&& g = g := by
  rw [BitVec.and_comm, BitVec.and_or_distrib_left, BitVec.and_comm, h]
  ext i hi
  simp only [BitVec.getElem_or, BitVec.getElem_and]
  cases g[i] <;> simp

section
variable {b : Bay} {s t : State}

/-! ### The elementary changes -/

theorem modBay_stays {f : BayState → BayState} (h : BayGoesOn (s.bay b) (f (s.bay b)))
    (hp : (f (s.bay b)).phase = (s.bay b).phase) : StaysOn b s (s.modBay b f) :=
  ⟨⟨by simpa using h, fun _ => rfl, fun _ _ => .of_eq rfl, fun _ => .of_eq rfl⟩, by simpa using hp⟩

theorem PanelAsks.stays (h : PanelAsks b s t) : StaysOn b s t := by
  obtain ⟨p, f, hp, hb⟩ := h.bay
  refine ⟨⟨?_, fun _ => by rw [h.xu], fun _ _ => .of_eq (by rw [h.xu]), fun _ => .of_eq (by rw [h.xu])⟩, by rw [hb]⟩
  rw [hb]
  exact ⟨by simp only [settled, hp], id, id, .inl rfl, fun _ _ => id, id, fun h => ⟨h, rfl⟩⟩

theorem triggerBay_shown (hf : (s.bay b).run.inFlight = []) (ho : oldestUnfinished (s.bay b).run = 0xFF) :
    Issues (ShowsDone b) s (triggerBay b s) := by
  refine triggerBay_issues fun a d hi => ?_
  obtain ⟨-, h3, h4⟩ := bayStatusBytes_shown b s
  rw [areaItem, StreamItem.write.injEq] at hi
  rw [← hi.2.2, h3, h4, ho, hf]
  exact ⟨rfl, rfl⟩

theorem triggerBay_handed : Issues (NoHandBack b) s (triggerBay b s) :=
  triggerBay_issues fun a d => by simp [areaItem]

theorem triggerBay_stays : StaysOn b s (triggerBay b s) where
  goesOn := by
    refine ⟨?_, fun _ => by rw [triggerBay_xu], triggerBay_shown, fun _ => triggerBay_handed⟩
    rw [triggerBay_self]
    exact ⟨rfl, id, id, .inl rfl, fun _ _ => id, id, fun h => ⟨h, rfl⟩⟩
  phase := by rw [triggerBay_self]

theorem writeArea_stays {kind : WriteKind} {o : Nat} {d : List Byte} (hk : kind ≠ .bayStatus b)
    (hh : (s.bay b).run.lost = true → kind ≠ .header b ∧ kind ≠ .finished b) : StaysOn b s (writeArea kind o d s) where
  goesOn :=
    { bay := by simpa using BayGoesOn.refl (s.bay b)
      merr := fun _ => rfl
      shown := fun _ _ => writeArea_issues fun a d hi => absurd (StreamItem.write.inj hi).1 hk
      handed := fun hl => writeArea_issues fun a d =>
        ⟨fun hi => (hh hl).1 (StreamItem.write.inj hi).1, fun hi => (hh hl).2 (StreamItem.write.inj hi).1⟩ }
  phase := by simp

theorem setEvent_stays (n : Nat) : StaysOn b s (setEvent n s) where
  goesOn :=
    { bay := by simpa using BayGoesOn.refl (s.bay b)
      merr := fun _ => setEvent_merr n s
      shown := fun _ _ => setEvent_issues nofun n s
      handed := fun _ => setEvent_issues (fun _ _ => ⟨nofun, nofun⟩) n s }
  phase := by simp

/-- An error is recorded on the way on through CLOSING only for a write that is refused, of a run that is not lost (R23). -/
theorem recordError_stays {kind : ErrorKind} {o : Option Bay}
    (h : ¬((s.bay b).xu.refused = none ∨ (s.bay b).run.lost = true)) : StaysOn b s (recordError kind o s) where
  goesOn :=
    { bay := by simpa using BayGoesOn.refl (s.bay b)
      merr := fun hs => absurd hs h
      shown := fun _ _ => recordError_issues nofun ..
      handed := fun _ => recordError_issues (fun _ _ => ⟨nofun, nofun⟩) .. }
  phase := by simp

/-! ### The operations -/

theorem addLatched_stays (f : FaultSet) : StaysOn b s (addLatched b f s) := by
  unfold addLatched
  split
  · exact .refl b s
  · exact .trans (modBay_stays ⟨rfl, id, id, .inl rfl, fun _ _ => or_and_of_and f, id, fun h => ⟨h, rfl⟩⟩ rfl)
      triggerBay_stays

theorem addReported_stays (f : FaultSet) : StaysOn b s (addReported b f s) := by
  unfold addReported
  split
  · exact .refl b s
  · exact .trans (modBay_stays ⟨rfl, id, id, .inl rfl, fun _ _ => id, id, fun h => ⟨h, rfl⟩⟩ rfl) triggerBay_stays

theorem settlePending_stays (c : Condition) : StaysOn b s (settlePending b c s) := by
  unfold settlePending
  dsimp only
  split
  · have h : StaysOn b s (s.modSupply b fun p =>
        { p with watches := condSet p.watches c { condGet p.watches c with pending := false } }) :=
      modBay_stays ⟨rfl, id, id, .inl rfl, fun _ _ => id, id, fun h => ⟨h, rfl⟩⟩ rfl
    split
    · exact h.trans (addLatched_stays _)
    · exact h.trans (addLatched_stays _)
    · exact h.trans (addReported_stays _)
    · exact h
  · exact .refl b s

theorem forAll_stays {α : Type} {xs : List α} {f : α → State → State} (h : ∀ x u, StaysOn b u (f x u)) :
    StaysOn b s (forAll xs f s) :=
  forAll_keeps (P := fun u => StaysOn b s u) xs f s (.refl b s) fun x _ u hu => hu.trans (h x u)

theorem free_stays (n : Nat) : StaysOn b s { s with freeIndex := n } :=
  ⟨⟨.refl _, fun _ => rfl, fun _ _ => .of_eq rfl, fun _ => .of_eq rfl⟩, rfl⟩

/-- A run is lost once (R23). -/
theorem loseRun_stays : StaysOn b s (loseRun b s) := by
  unfold loseRun
  split
  · exact .refl b s
  · next hl =>
    refine .trans (.trans (modBay_stays (f := fun y => { y with
        run := { y.run with lost := true }
        status := { y.status with runLost := true, lostLabel := lostLabelOf y.run (Config.freeWord s.freeIndex) } })
      ⟨rfl, id, id, .inl rfl, fun _ _ => id, id, fun h => absurd h hl⟩ rfl) (free_stays _)) triggerBay_stays

/-- A run whose write was refused is lost, and is no longer one whose error is still to come (R23). -/
theorem handBackFails_stays (h : ¬((s.bay b).xu.refused = none ∨ (s.bay b).run.lost = true)) :
    StaysOn b s (handBackFails b s) :=
  (recordError_stays h).trans (loseRun_stays.trans (addLatched_stays _))

theorem writeFinished_stays (hl : (s.bay b).run.lost = false) : StaysOn b s (writeFinished b s) := by
  have h : StaysOn b s (writeArea (.finished b) (heldOffset b (s.bay b).run) (leBytes 4 3) s) :=
    writeArea_stays (by simp) (fun h => absurd (hl.symm.trans h) nofun)
  unfold writeFinished
  dsimp only
  split
  · exact h.trans (setEvent_stays _)
  · exact h

theorem countRun_stays (hl : (s.bay b).run.lost = false) : StaysOn b s (countRun b s) := by
  unfold countRun
  exact modBay_stays ⟨rfl, id, id, .inl rfl, fun _ _ => id, id, fun h => absurd (hl.symm.trans h) nofun⟩ rfl

/-- Writes and events leave the bay as it is. -/
theorem writeFinished_bay (b : Bay) (s : State) (o : Bay) : (writeFinished b s).bay o = s.bay o := by
  unfold writeFinished
  dsimp only
  split <;> simp

theorem handBack_stays (hl : (s.bay b).run.lost = false) : StaysOn b s (handBack b s) := by
  let s1 := writeArea (.header b) (heldOffset b (s.bay b).run + 0x80) (runHeaderBytes (s.bay b).run) s
  have h1 : StaysOn b s s1 := writeArea_stays (by simp) (fun h => absurd (hl.symm.trans h) nofun)
  have hs1 : s1.bay b = s.bay b := writeArea_bay ..
  have hl1 : (s1.bay b).run.lost = false := by rw [hs1, hl]
  have hFinished : StaysOn b s (writeFinished b s1) := h1.trans (writeFinished_stays hl1)
  have hBay : (writeFinished b s1).bay b = s.bay b := (writeFinished_bay ..).trans hs1
  have hOpen {w : HandBackWrite} (hr : (s.bay b).xu.refused = some w) :
      ¬((s.bay b).xu.refused = none ∨ (s.bay b).run.lost = true) := by
    simp [hr, hl]
  unfold handBack
  dsimp only
  split
  · next hr => exact h1.trans (handBackFails_stays (by rw [hs1]; exact hOpen hr))
  · next hr => exact hFinished.trans (handBackFails_stays (by rw [hBay]; exact hOpen hr))
  · exact hFinished.trans (countRun_stays (by rw [hBay, hl]))
  · exact hFinished.trans (countRun_stays (by rw [hBay, hl]))

theorem handBackUnlessLost_stays : StaysOn b s (handBackUnlessLost b s) := by
  unfold handBackUnlessLost
  split
  · exact .refl b s
  · next h => exact handBack_stays (by simpa using h)

theorem slotFreed_stays (held : Option Slot) : StaysOn b s (slotFreed b held s) :=
  modBay_stays ⟨rfl, fun _ => rfl, fun _ => rfl, .inl rfl, fun _ _ => id, fun _ => rfl, fun h => ⟨h, rfl⟩⟩ rfl

/-! ### The end of CLOSING -/

theorem setPhase_self (p : Phase) : (setPhase b p s).bay b = { s.bay b with
    phase := p
    xu := { (s.bay b).xu with write := if (s.bay b).xu.write = .idle then .busy else .busyMarked } } := by
  rw [setPhase, triggerBay_self, bay_modBay]

theorem setPhase_merr (p : Phase) : (setPhase b p s).xu.merr = s.xu.merr := by
  rw [setPhase, triggerBay_xu]
  rfl

/-- A change of state on the way through CLOSING, as far as what it issues. -/
theorem setPhase_goesOn {p : Phase} (hb : BayGoesOn (s.bay b) ((setPhase b p s).bay b)) :
    GoesOn b s (setPhase b p s) where
  bay := hb
  merr _ := setPhase_merr p
  shown hf ho := .trans (.of_eq rfl) (triggerBay_shown (by simpa using hf) (by simpa using ho))
  handed _ := .trans (.of_eq rfl) triggerBay_handed

theorem clearLatched_bay : ∃ w, (clearLatched b s).bay b = { s.bay b with
    supply := { (s.bay b).supply with latched := 0 }
    xu := { (s.bay b).xu with write := w } } := by
  unfold clearLatched
  split
  · next h => exact ⟨(s.bay b).xu.write, by rw [← h]⟩
  · exact ⟨_, by rw [triggerBay_self, bay_modSupply]⟩

/-- OFFLINE from CLOSING (R45, R47). -/
theorem goOffline_goesOn (hp : (s.bay b).phase = .closing) (he : (s.bay b).xu.enabled = false) :
    GoesOn b s (goOffline b s) := by
  obtain ⟨w, hw⟩ := clearLatched_bay (b := b) (s := s)
  have hIssued (hf : (s.bay b).run.inFlight = []) (ho : oldestUnfinished (s.bay b).run = 0xFF) :
      Issues (ShowsDone b) s (clearLatched b s) := by
    unfold clearLatched
    split
    · exact .of_eq rfl
    · exact .trans (.of_eq rfl) (triggerBay_shown (by simpa using hf) (by simpa using ho))
  have hHanded : Issues (NoHandBack b) s (clearLatched b s) := by
    unfold clearLatched
    split
    · exact .of_eq rfl
    · exact .trans (.of_eq rfl) triggerBay_handed
  refine ⟨?_, fun _ => ?_, fun hf ho => (hIssued hf ho).trans (.trans (.of_eq rfl) (triggerBay_shown ?_ ?_)),
    fun _ => hHanded.trans (.trans (.of_eq rfl) triggerBay_handed)⟩
  · rw [goOffline, setPhase_self, hw]
    exact ⟨rfl, id, id, .inr ⟨hp, .inl ⟨he, rfl⟩⟩, fun h => absurd rfl h, id, fun h => ⟨h, rfl⟩⟩
  · rw [goOffline, setPhase_merr, clearLatched]
    split
    · rfl
    · rw [triggerBay_xu]
      rfl
  · simpa [hw] using hf
  · simpa [hw] using ho

/-- HALTED from CLOSING (R47, R48). -/
theorem goHalted_goesOn (hp : (s.bay b).phase = .closing) (he : (s.bay b).xu.enabled = true) :
    GoesOn b s (goHalted b s) := by
  refine .trans (setPhase_goesOn ?_) (setEvent_stays _).goesOn
  rw [setPhase_self]
  exact ⟨rfl, id, id, .inr ⟨hp, .inr ⟨he, .inl rfl⟩⟩, fun _ _ => id, id, fun h => ⟨h, rfl⟩⟩

theorem readBackToBack_stays : StaysOn b s (readBackToBack b s) := by
  unfold readBackToBack
  split
  · exact modBay_stays ⟨rfl, id, id, .inl rfl, fun _ _ => id, id, fun h => ⟨h, rfl⟩⟩ rfl
  · exact .refl b s

theorem leaveClosing_goesOn (hp : (s.bay b).phase = .closing) : GoesOn b s (leaveClosing b s) := by
  unfold leaveClosing
  split
  · next h => exact goOffline_goesOn hp (by simpa using h)
  · next h =>
    have he : (s.bay b).xu.enabled = true := by simpa using h
    split
    · exact goHalted_goesOn hp he
    · next hl =>
      refine .trans (setPhase_goesOn ?_) readBackToBack_stays.goesOn
      rw [setPhase_self]
      exact ⟨rfl, id, id, .inr ⟨hp, .inr ⟨he, .inr ⟨rfl, by simpa using hl⟩⟩⟩, fun _ _ => id, id, fun h => ⟨h, rfl⟩⟩

theorem closingEnd_goesOn (hp : (s.bay b).phase = .closing) : GoesOn b s (closingEnd b s) := by
  rw [closingEnd_eq]
  have h : StaysOn b s (slotFreed b ((forAll allConditions (settlePending b) s).bay b).run.slot
      (handBackUnlessLost b (forAll allConditions (settlePending b) s))) :=
    (forAll_stays fun _ _ => settlePending_stays _).trans (handBackUnlessLost_stays.trans (slotFreed_stays _))
  exact h.goesOn.trans ((leaveClosing_goesOn (h.phase.trans hp)).trans pollKeys_asks_only.stays.goesOn)

end

end Sys2Proof.Machine

namespace Sys2Proof.Machine

open Sys2Proof

section
variable {b : Bay} {s t : State}

/-! ## CLOSING, from the results handed over on -/

theorem verdictLampWanted_stays (v : Option Verdict) : StaysOn b s (verdictLampWanted b v s) := by
  unfold verdictLampWanted
  split
  · exact (wantLamp_asks _).stays
  · exact .refl b s

theorem verdictTextWanted_stays (text : Option (List Byte)) : StaysOn b s (verdictTextWanted b text s) := by
  unfold verdictTextWanted
  split
  · exact .refl b s
  · split
    · exact ((busRequest_asks ‹_›).trans (modPanel_asks rfl)).stays
    · exact flagLampFailed_asks.stays

theorem closingPanel_goesOn (hp : (s.bay b).phase = .closing) : GoesOn b s (closingPanel b s) := by
  rw [closingPanel_eq]
  have hMark : StaysOn b s (s.modRun b fun r => { r with closing := .panel }) :=
    modBay_stays ⟨rfl, id, id, .inl rfl, fun _ _ => id, id, fun h => ⟨h, rfl⟩⟩ rfl
  have h := hMark.trans ((verdictLampWanted_stays (s.bay b).run.verdict).trans
    (verdictTextWanted_stays (verdictText (s.bay b).run)))
  unfold closingPanelDone
  dsimp only
  split
  · exact h.goesOn.trans (closingEnd_goesOn (h.phase.trans hp))
  · exact h.goesOn

theorem cycleEnded_goesOn (hp : (s.bay b).phase = .closing) (o : BusOutcome) : GoesOn b s (cycleEnded b o s) := by
  unfold cycleEnded
  dsimp only
  split
  · have h : StaysOn b s ((s.modRun b fun r => { r with cycleAfter := cycleValue (s.bay b).run }).modStatus b fun t =>
        { t with identCycles := cycleValue (s.bay b).run }) :=
      .trans (modBay_stays ⟨rfl, id, id, .inl rfl, fun _ _ => id, id, fun h => ⟨h, rfl⟩⟩ rfl)
        (modBay_stays ⟨rfl, id, id, .inl rfl, fun _ _ => id, id, fun h => ⟨h, rfl⟩⟩ rfl)
    exact h.goesOn.trans (closingPanel_goesOn (h.phase.trans hp))
  · have h : StaysOn b s (s.modStatus b fun t => { t with cycleFailed := true }) :=
      modBay_stays ⟨rfl, id, id, .inl rfl, fun _ _ => id, id, fun h => ⟨h, rfl⟩⟩ rfl
    exact h.goesOn.trans (closingPanel_goesOn (h.phase.trans hp))

theorem closingMark_stays (c : ClosingStage) : StaysOn b s (s.modRun b fun r => { r with closing := c }) :=
  modBay_stays ⟨rfl, id, id, .inl rfl, fun _ _ => id, id, fun h => ⟨h, rfl⟩⟩ rfl

theorem closingCycle_goesOn (hp : (s.bay b).phase = .closing) : GoesOn b s (closingCycle b s) := by
  unfold closingCycle
  dsimp only
  split
  · split
    · exact ((busRequest_asks ‹_›).stays.trans (closingMark_stays _)).goesOn
    · exact cycleEnded_goesOn hp _
  · exact closingPanel_goesOn hp

theorem closingBus_goesOn (hp : (s.bay b).phase = .closing) : GoesOn b s (closingBus b s) := by
  unfold closingBus
  split
  · exact (closingMark_stays _).goesOn
  · exact closingCycle_goesOn hp

theorem writeResult_stays (x : StepResult) : StaysOn b s (writeResult b x s) := by
  unfold writeResult
  dsimp only
  split
  · exact .refl b s
  · exact writeArea_stays (by simp) fun _ => ⟨by simp, by simp⟩

theorem handOver_stays (results : List StepResult) : StaysOn b s (handOver b results s) :=
  forAll_stays fun _ _ => (writeResult_stays _).trans triggerBay_stays

theorem recordsRefused_stays (results : List StepResult) : StaysOn b s (recordsRefused b results s) := by
  unfold recordsRefused
  split
  · next h =>
    refine handBackFails_stays ?_
    simp only [Bool.and_eq_true, decide_eq_true_eq, Bool.not_eq_true'] at h
    obtain ⟨⟨hr, -⟩, hl⟩ := h
    simp [hr, hl]
  · exact .refl b s

/-! ## The entry to CLOSING -/

/-- A bay brought to rest: its run, panel and status block items stay, and of the exchange unit's items only the write of the
status block may change. -/
structure Rests (b : Bay) (s t : State) : Prop where
  run : (t.bay b).run = (s.bay b).run
  panel : (t.bay b).panel = (s.bay b).panel
  status : (t.bay b).status = (s.bay b).status
  latched : (t.bay b).supply.latched = (s.bay b).supply.latched
  xu : ∃ w, (t.bay b).xu = { (s.bay b).xu with write := w }
  merr : t.xu.merr = s.xu.merr
  shown : (s.bay b).run.inFlight = [] → oldestUnfinished (s.bay b).run = 0xFF → Issues (ShowsDone b) s t
  handed : Issues (NoHandBack b) s t

theorem Rests.refl (b : Bay) (s : State) : Rests b s s :=
  ⟨rfl, rfl, rfl, rfl, ⟨(s.bay b).xu.write, rfl⟩, rfl, fun _ _ => .of_eq rfl, .of_eq rfl⟩

theorem Rests.trans {u : State} (h : Rests b s t) (g : Rests b t u) : Rests b s u where
  run := g.run.trans h.run
  panel := g.panel.trans h.panel
  status := g.status.trans h.status
  latched := g.latched.trans h.latched
  xu := by
    obtain ⟨w, hw⟩ := g.xu
    obtain ⟨v, hv⟩ := h.xu
    exact ⟨w, by rw [hw, hv]⟩
  merr := g.merr.trans h.merr
  shown hf ho := (h.shown hf ho).trans (g.shown (by rw [h.run, hf]) (by rw [h.run, ho]))
  handed := h.handed.trans g.handed

theorem modBay_rests {f : BayState → BayState} (hr : (f (s.bay b)).run = (s.bay b).run)
    (hp : (f (s.bay b)).panel = (s.bay b).panel) (hs : (f (s.bay b)).status = (s.bay b).status)
    (hl : (f (s.bay b)).supply.latched = (s.bay b).supply.latched) (hx : (f (s.bay b)).xu = (s.bay b).xu) :
    Rests b s (s.modBay b f) :=
  ⟨by simpa using hr, by simpa using hp, by simpa using hs, by simpa using hl,
    ⟨(s.bay b).xu.write, by simpa using hx⟩, rfl, fun _ _ => .of_eq rfl, .of_eq rfl⟩

theorem triggerBay_rests : Rests b s (triggerBay b s) := by
  have hb := triggerBay_self b s
  exact ⟨by rw [hb], by rw [hb], by rw [hb], by rw [hb], ⟨_, by rw [hb]⟩, by rw [triggerBay_xu], triggerBay_shown,
    triggerBay_handed⟩

theorem changeNet_rests (f : Network → Network) : Rests b s (changeNet b f s) := by
  have h : Rests b s (s.modNet b f) := modBay_rests rfl rfl rfl rfl rfl
  unfold changeNet
  dsimp only
  split
  · exact h
  · exact h.trans triggerBay_rests

theorem changeNet_bay (f : Network → Network) :
    ∃ w, (changeNet b f s).bay b = { s.bay b with
      net := f (s.bay b).net
      xu := { (s.bay b).xu with write := w } } := by
  unfold changeNet
  dsimp only
  split
  · exact ⟨(s.bay b).xu.write, bay_modNet ..⟩
  · exact ⟨_, by rw [triggerBay_self, bay_modNet]⟩

theorem enterSafe_rests : Rests b s (enterSafe b s) :=
  .trans (modBay_rests rfl rfl rfl rfl rfl) (changeNet_rests _)

theorem enterSafe_bay : ∃ w, (enterSafe b s).bay b = { s.bay b with
    stim := stimSafe (s.bay b).stim
    net := netStopped (s.bay b).net
    xu := { (s.bay b).xu with write := w } } := by
  obtain ⟨w, hw⟩ := changeNet_bay (b := b) (s := s.modStim b stimSafe) netStopped
  exact ⟨w, by rw [enterSafe, hw, bay_modStim]⟩

theorem switchOff_rests (keep : Bool) : Rests b s (switchOff b keep s) := by
  unfold switchOff
  split
  · exact .trans (modBay_rests rfl rfl rfl rfl rfl) enterSafe_rests
  · exact .refl b s

theorem switchOff_on (keep : Bool) : ((switchOff b keep s).bay b).supply.on = false := by
  unfold switchOff
  split
  · obtain ⟨w, hw⟩ := enterSafe_bay (b := b) (s := s.modSupply b (supplyOff keep))
    rw [hw, bay_modSupply]
    rfl
  · next h => simpa using h

/-- Entries removed: nothing, or a change of the queue and the held list and a trigger (R168). -/
theorem removeEntries_cases (test : BusEntry → Bool) : removeEntries b test s = s ∨
    ∃ q h, removeEntries b test s = triggerBay b (s.modBus fun u => { u with queue := q, held := h }) := by
  unfold removeEntries
  exact (ite_eq_or_eq _ _ _).symm.imp id fun h => ⟨_, _, h⟩

theorem removeEntries_bay (test : BusEntry → Bool) :
    ∃ w, (removeEntries b test s).bay b = { s.bay b with xu := { (s.bay b).xu with write := w } } := by
  rcases removeEntries_cases (b := b) (s := s) test with h | ⟨q, g, h⟩ <;> rw [h]
  · exact ⟨(s.bay b).xu.write, rfl⟩
  · exact ⟨_, triggerBay_self ..⟩

theorem removeEntries_rests (test : BusEntry → Bool) : Rests b s (removeEntries b test s) := by
  rcases removeEntries_cases (b := b) (s := s) test with h | ⟨q, g, h⟩ <;> rw [h]
  · exact .refl b s
  · have hBus : Rests b s (s.modBus fun u => { u with queue := q, held := g }) :=
      ⟨rfl, rfl, rfl, rfl, ⟨(s.bay b).xu.write, rfl⟩, rfl, fun _ _ => .of_eq rfl, .of_eq rfl⟩
    exact hBus.trans triggerBay_rests

theorem setPhase_rests (p : Phase) : Rests b s (setPhase b p s) :=
  .trans (modBay_rests rfl rfl rfl rfl rfl) triggerBay_rests

theorem closingEntered_rests : Rests b s (closingEntered b s) :=
  (switchOff_rests _).trans (enterSafe_rests.trans ((removeEntries_rests _).trans (setPhase_rests _)))

/-- The bay is in CLOSING, its supply off and its outputs safe (R46). -/
theorem closingEntered_safe :
    let y := (closingEntered b s).bay b
    y.phase = .closing ∧ y.supply.on = false ∧ y.stim.safe = true ∧ y.net.state = .stopped := by
  obtain ⟨w, hw⟩ := enterSafe_bay (b := b) (s := switchOff b false s)
  obtain ⟨v, hv⟩ := removeEntries_bay (b := b) (s := enterSafe b (switchOff b false s)) fun _ => true
  have hb := setPhase_self (b := b) (s := removeEntries b (fun _ => true) (enterSafe b (switchOff b false s))) .closing
  rw [hv, hw] at hb
  dsimp only
  rw [closingEntered, hb]
  exact ⟨rfl, switchOff_on _, rfl, rfl⟩

end

end Sys2Proof.Machine

namespace Sys2Proof.Machine

open Sys2Proof

/-! ## The entry to CLOSING and what follows it -/

theorem hasResult_append (r : RunEngine) (l : List StepResult) (i : Nat) :
    hasResult { r with results := r.results ++ l } i = (hasResult r i || l.any fun x => x.index = i) := by
  simp [hasResult]

/-- With the results that CLOSING hands over every step has its result (R46, R62). -/
theorem hasResult_closing (ended : List StepResult) (r : RunEngine) {i : Nat} (hi : i < stepCount r) :
    hasResult { r with results := r.results ++ closingResults ended r } i = true := by
  cases h : hasResult { r with results := r.results ++ ended } i
  · have hSkipped : skippedResult r i ∈ closingResults ended r := by
      refine List.mem_append_right _ (List.mem_map_of_mem ?_)
      simp [List.mem_filter, hi, h]
    rw [hasResult, List.any_eq_true]
    exact ⟨_, List.mem_append_right _ hSkipped, by simp [skippedResult]⟩
  · rw [hasResult_append] at h ⊢
    simp only [Bool.or_eq_true] at h ⊢
    refine h.imp id fun h => ?_
    rw [closingResults, List.any_append, h]
    rfl

/-- The run at its entry to CLOSING has no unfinished step (R17, R46). -/
theorem oldestUnfinished_closing (verdict : Verdict) (cause : EndCause) (offending : Nat) (ended : List StepResult)
    (now : RackTime) (owner : Option Owner) (r : RunEngine) :
    oldestUnfinished (runAtClosing verdict cause offending (closingResults ended r) now owner r) = 0xFF := by
  unfold oldestUnfinished
  split
  · rfl
  · have hNone : ((List.range (stepCount r)).find? fun i =>
        !hasResult { r with results := r.results ++ closingResults ended r } i) = none := by
      rw [List.find?_eq_none]
      intro i hi
      rw [hasResult_closing ended r (List.mem_range.1 hi)]
      decide
    exact congrArg (fun o => o.getD 0xFF) hNone

section
variable {b : Bay} {verdict : Verdict} {cause : EndCause} {offending : Nat} {ended : List StepResult} {s : State}

theorem bayAtClosing_bay : (bayAtClosing b verdict cause offending ended s).bay b =
    { s.bay b with
      run := runAtClosing verdict cause offending (closingResults ended (s.bay b).run) s.rackTime (ownerOnBus s.bus b)
        (s.bay b).run
      stim := { (s.bay b).stim with actions := Vector.replicate 14 none, stopped := stoppedAtClosing (s.bay b) }
      panel := panelAtClosing (ownerOnBus s.bus b) (s.bay b).panel
      supply := supplyAtClosing (s.bay b).phase (s.bay b).supply } := by
  rw [bayAtClosing, bay_modBay]

/-- The bay in CLOSING before its results are handed over. -/
abbrev atRest (b : Bay) (verdict : Verdict) (cause : EndCause) (offending : Nat) (ended : List StepResult)
    (s : State) : State :=
  closingEntered b (bayAtClosing b verdict cause offending ended s)

theorem atRest_run : ((atRest b verdict cause offending ended s).bay b).run =
    runAtClosing verdict cause offending (closingResults ended (s.bay b).run) s.rackTime (ownerOnBus s.bus b)
      (s.bay b).run := by
  rw [closingEntered_rests.run, bayAtClosing_bay]

theorem atRest_xu : ∃ w, ((atRest b verdict cause offending ended s).bay b).xu = { (s.bay b).xu with write := w } := by
  obtain ⟨w, hw⟩ := (closingEntered_rests (b := b) (s := bayAtClosing b verdict cause offending ended s)).xu
  exact ⟨w, by rw [hw, bayAtClosing_bay]⟩

theorem atRest_unfinished : oldestUnfinished ((atRest b verdict cause offending ended s).bay b).run = 0xFF := by
  rw [atRest_run]
  exact oldestUnfinished_closing ..

theorem enterClosing_goesOn :
    GoesOn b (atRest b verdict cause offending ended s) (enterClosing b verdict cause offending ended s) := by
  have h := (handOver_stays (closingResults ended (s.bay b).run)).trans
    (recordsRefused_stays (b := b) (s := handOver b (closingResults ended (s.bay b).run)
      (atRest b verdict cause offending ended s)) (closingResults ended (s.bay b).run))
  rw [enterClosing_eq]
  exact h.goesOn.trans (closingBus_goesOn (h.phase.trans closingEntered_safe.1))

/-- An item that the way on through CLOSING keeps, as the entry leaves it. -/
theorem settled_item {α : Type} (g : BayState → α) (hg : ∀ y, g (settled y) = g y) {y z : BayState}
    (h : BayGoesOn y z) : g z = g y := by
  rw [← hg z, h.settled, hg y]

theorem enterClosing_closed : Closed b verdict cause offending (enterClosing b verdict cause offending ended s) := by
  have h := (enterClosing_goesOn (b := b) (verdict := verdict) (cause := cause) (offending := offending)
    (ended := ended) (s := s)).bay
  have hr := atRest_run (b := b) (verdict := verdict) (cause := cause) (offending := offending) (ended := ended) (s := s)
  obtain ⟨hp, hon, hsafe, hnet⟩ := closingEntered_safe (b := b) (s := bayAtClosing b verdict cause offending ended s)
  refine ⟨?_, ?_, ?_, ?_, ?_, ?_, h.inFlight ?_, ?_, ?_⟩
  · rw [settled_item (fun y => y.run.verdict) (fun _ => rfl) h, hr]
    rfl
  · rw [settled_item (fun y => y.run.cause) (fun _ => rfl) h, hr]
    rfl
  · rw [settled_item (fun y => y.run.offending) (fun _ => rfl) h, hr]
    rfl
  · rw [settled_item (fun y => y.supply.on) (fun _ => rfl) h, hon]
  · rw [settled_item (fun y => y.stim.safe) (fun _ => rfl) h, hsafe]
  · rw [settled_item (fun y => y.net.state) (fun _ => rfl) h, hnet]
  · rw [hr]
    rfl
  · rw [settled_item (fun y => y.panel.prompts) (fun _ => rfl) h, closingEntered_rests.panel, bayAtClosing_bay]
    rfl
  · rcases h.phase with hz | ⟨-, ⟨-, hz⟩ | ⟨-, hz | ⟨hz, -⟩⟩⟩
    · exact .inl (hz.trans hp)
    · exact .inr (.inr (.inr hz))
    · exact .inr (.inr (.inl hz))
    · exact .inr (.inl hz)

/-- A disabled bay leaves CLOSING for OFFLINE (R45, R47). -/
theorem enterClosing_disabled (he : (s.bay b).xu.enabled = false) :
    ((enterClosing b verdict cause offending ended s).bay b).phase = .closing ∨
      ((enterClosing b verdict cause offending ended s).bay b).phase = .offline := by
  obtain ⟨w, hw⟩ := atRest_xu (b := b) (verdict := verdict) (cause := cause) (offending := offending) (ended := ended)
    (s := s)
  rcases enterClosing_goesOn.bay.phase with h | ⟨-, ⟨-, h⟩ | ⟨h, -⟩⟩
  · exact .inl (h.trans closingEntered_safe.1)
  · exact .inr h
  · rw [hw] at h
    exact absurd (he.symm.trans h) nofun

/-- A bay with a fault latched does not leave CLOSING for IDLE (R47). -/
theorem enterClosing_faulted (hl : (s.bay b).supply.latched ≠ 0) :
    ((enterClosing b verdict cause offending ended s).bay b).phase = .closing ∨
      ((enterClosing b verdict cause offending ended s).bay b).phase = .halted ∨
      ((enterClosing b verdict cause offending ended s).bay b).phase = .offline := by
  have hrest : ((atRest b verdict cause offending ended s).bay b).supply.latched = (s.bay b).supply.latched := by
    rw [closingEntered_rests.latched, bayAtClosing_bay]
    rfl
  rcases enterClosing_goesOn.bay.phase with h | ⟨-, ⟨-, h⟩ | ⟨-, h | ⟨-, h⟩⟩⟩
  · exact .inl (h.trans closingEntered_safe.1)
  · exact .inr (.inr h)
  · exact .inr (.inl h)
  · exact absurd (hrest.symm.trans h) hl

theorem enterClosing_latched (f : FaultSet) (hf : (s.bay b).supply.latched &&& f = f)
    (hp : ((enterClosing b verdict cause offending ended s).bay b).phase ≠ .offline) :
    ((enterClosing b verdict cause offending ended s).bay b).supply.latched &&& f = f := by
  refine enterClosing_goesOn.bay.latched hp f ?_
  rw [closingEntered_rests.latched, bayAtClosing_bay]
  exact hf

theorem enterClosing_merr (h : (s.bay b).xu.refused = none ∨ (s.bay b).run.lost = true) :
    (enterClosing b verdict cause offending ended s).xu.merr = s.xu.merr := by
  obtain ⟨w, hw⟩ := atRest_xu (b := b) (verdict := verdict) (cause := cause) (offending := offending) (ended := ended)
    (s := s)
  refine (enterClosing_goesOn.merr ?_).trans closingEntered_rests.merr
  rw [hw, atRest_run]
  exact h

/-- Every copy of the status block issued from the entry to CLOSING on shows no step in flight and no unfinished step (R46). -/
theorem enterClosing_shown : Issues (ShowsDone b) s (enterClosing b verdict cause offending ended s) := by
  have hEntered : Issues (ShowsDone b) s (atRest b verdict cause offending ended s) := by
    refine .trans (t := bayAtClosing b verdict cause offending ended s) (.of_eq rfl) (closingEntered_rests.shown ?_ ?_)
    · rw [bayAtClosing_bay]
      rfl
    · rw [bayAtClosing_bay]
      exact oldestUnfinished_closing ..
  refine hEntered.trans (enterClosing_goesOn.shown ?_ atRest_unfinished)
  rw [atRest_run]
  rfl

/-- A lost run is handed back neither at its entry to CLOSING nor after it (R23). -/
theorem enterClosing_lost (hl : (s.bay b).run.lost = true) :
    let t := enterClosing b verdict cause offending ended s
    (t.bay b).run.lost = true ∧ handedBack (t.bay b).status = handedBack (s.bay b).status ∧
      Issues (NoHandBack b) s t := by
  have hrest : ((atRest b verdict cause offending ended s).bay b).run.lost = true := by
    rw [atRest_run]
    exact hl
  obtain ⟨h1, h2⟩ := enterClosing_goesOn.bay.lost hrest
  refine ⟨h1, h2.trans ?_, .trans ?_ (enterClosing_goesOn.handed hrest)⟩
  · rw [closingEntered_rests.status, bayAtClosing_bay]
  · exact .trans (t := bayAtClosing b verdict cause offending ended s) (.of_eq rfl) closingEntered_rests.handed

theorem enterClosing_results : ((enterClosing b verdict cause offending ended s).bay b).run.results =
    (s.bay b).run.results ++ closingResults ended (s.bay b).run := by
  rw [settled_item (fun y => y.run.results) (fun _ => rfl) enterClosing_goesOn.bay, atRest_run]
  rfl

theorem enterClosing_label : ((enterClosing b verdict cause offending ended s).bay b).status.label =
    (s.bay b).status.label := by
  rw [settled_item (fun y => y.status.label) (fun _ => rfl) enterClosing_goesOn.bay, closingEntered_rests.status,
    bayAtClosing_bay]

end

end Sys2Proof.Machine

namespace Sys2Proof.Machine

open Sys2Proof

section
variable {b : Bay} {s t : State}

/-! ## Aborts -/

theorem echoBay_self (seq : Word16) (r : EchoResult) : (echoBay b seq r s).bay b = { s.bay b with
    status := { (s.bay b).status with echoSeq := seq, echo := r }
    xu := { (s.bay b).xu with write := if (s.bay b).xu.write = .idle then .busy else .busyMarked } } := by
  rw [echoBay, triggerBay_self, bay_modStatus]

theorem echoBay_merr (seq : Word16) (r : EchoResult) : (echoBay b seq r s).xu.merr = s.xu.merr := by
  rw [echoBay, triggerBay_xu]
  rfl

/-- The echo of a request leaves a run's way into CLOSING as it is. -/
theorem Closed.echoBay {verdict : Verdict} {cause : EndCause} {offending : Nat} (h : Closed b verdict cause offending s)
    (seq : Word16) (r : EchoResult) : Closed b verdict cause offending (echoBay b seq r s) := by
  unfold Closed at h ⊢
  rw [echoBay_self]
  exact h

/-- The cause of an abort: one that waits in LOADING comes first (R35). -/
def firstCause (r : RunEngine) (cause : AbortCause) : AbortCause := (r.load.bind fun l => l.abort).getD cause

/-- An abort of the run: its way into CLOSING, and the echo that has waited for it (R14, R44). -/
theorem abortNow_eq (cause : AbortCause) : abortNow b cause s =
    (let t := enterClosing b .aborted (.abort (firstCause (s.bay b).run cause)) 0
        (endAll (s.bay b).run .aborted (.abort (firstCause (s.bay b).run cause)) s.rackTime) s
     match (s.bay b).run.load.bind fun l => l.echo with
     | some seq => echoBay b seq .done t
     | none => t) := by
  unfold abortNow
  rfl

/-- The echo that waits with an abort, if there is one, leaves what is not the echo. -/
theorem abortNow_cases (cause : AbortCause) :
    let t := enterClosing b .aborted (.abort (firstCause (s.bay b).run cause)) 0
      (endAll (s.bay b).run .aborted (.abort (firstCause (s.bay b).run cause)) s.rackTime) s
    ((s.bay b).run.load.bind fun l => l.echo) = none ∧ abortNow b cause s = t ∨
      ∃ seq, ((s.bay b).run.load.bind fun l => l.echo) = some seq ∧ abortNow b cause s = echoBay b seq .done t := by
  dsimp only
  rw [abortNow_eq]
  dsimp only
  cases (s.bay b).run.load.bind fun l => l.echo with
  | none => exact .inl ⟨rfl, rfl⟩
  | some seq => exact .inr ⟨seq, rfl, rfl⟩

theorem abortNow_closed (cause : AbortCause) :
    Closed b .aborted (.abort (firstCause (s.bay b).run cause)) 0 (abortNow b cause s) := by
  rcases abortNow_cases (b := b) (s := s) cause with ⟨-, h⟩ | ⟨seq, -, h⟩ <;> rw [h]
  · exact enterClosing_closed
  · exact enterClosing_closed.echoBay seq .done

theorem abortNow_merr (cause : AbortCause) (h : (s.bay b).xu.refused = none ∨ (s.bay b).run.lost = true) :
    (abortNow b cause s).xu.merr = s.xu.merr := by
  rcases abortNow_cases (b := b) (s := s) cause with ⟨-, he⟩ | ⟨seq, -, he⟩ <;> rw [he]
  · exact enterClosing_merr h
  · exact (echoBay_merr seq .done).trans (enterClosing_merr h)

theorem abortNow_faulted (cause : AbortCause) (hl : (s.bay b).supply.latched ≠ 0) :
    ((abortNow b cause s).bay b).phase = .closing ∨ ((abortNow b cause s).bay b).phase = .halted ∨
      ((abortNow b cause s).bay b).phase = .offline := by
  rcases abortNow_cases (b := b) (s := s) cause with ⟨-, h⟩ | ⟨seq, -, h⟩ <;> rw [h]
  · exact enterClosing_faulted hl
  · rw [echoBay_self]
    exact enterClosing_faulted hl

theorem abortNow_latched (cause : AbortCause) (h : (s.bay b).supply.latched &&& 16#8 = 16#8) :
    ExchangeLatched b (abortNow b cause s) := by
  intro hp
  rcases abortNow_cases (b := b) (s := s) cause with ⟨-, he⟩ | ⟨seq, -, he⟩ <;> rw [he] at hp ⊢
  · exact enterClosing_latched _ h hp
  · rw [echoBay_self] at hp ⊢
    exact enterClosing_latched _ h hp

/-- A lost run is handed back at none of its abort's stages (R23). -/
theorem abortNow_lost (cause : AbortCause) (hl : (s.bay b).run.lost = true) :
    let t := abortNow b cause s
    (t.bay b).run.lost = true ∧ handedBack (t.bay b).status = handedBack (s.bay b).status ∧
      Issues (NoHandBack b) s t := by
  dsimp only
  rcases abortNow_cases (b := b) (s := s) cause with ⟨-, h⟩ | ⟨seq, -, h⟩ <;> rw [h]
  · exact enterClosing_lost hl
  · obtain ⟨h1, h2, h3⟩ := enterClosing_lost (b := b) (verdict := .aborted)
      (cause := .abort (firstCause (s.bay b).run cause)) (offending := 0)
      (ended := endAll (s.bay b).run .aborted (.abort (firstCause (s.bay b).run cause)) s.rackTime) hl
    rw [echoBay_self]
    exact ⟨h1, h2, h3.trans (.trans (.of_eq rfl) triggerBay_handed)⟩

/-- The echo that has waited with the abort (R14, R35). -/
theorem abortNow_echo (cause : AbortCause) {seq : Word16}
    (h : ((s.bay b).run.load.bind fun l => l.echo) = some seq) :
    ((abortNow b cause s).bay b).status.echo = .done ∧ ((abortNow b cause s).bay b).status.echoSeq = seq := by
  rcases abortNow_cases (b := b) (s := s) cause with ⟨hn, -⟩ | ⟨q, hq, he⟩
  · exact absurd (hn.symm.trans h) nofun
  · obtain rfl : q = seq := Option.some.inj (hq.symm.trans h)
    rw [he, echoBay_self]
    exact ⟨rfl, rfl⟩

/-- An abort where no read of LOADING is waited for (R44). -/
theorem abortNow_now (cause : AbortCause) (h : (s.bay b).run.load = none) :
    abortNow b cause s =
      enterClosing b .aborted (.abort cause) 0 (endAll (s.bay b).run .aborted (.abort cause) s.rackTime) s := by
  rw [abortNow_eq, firstCause, h]
  rfl

/-- A bay state from which a run is aborted at once (R44). -/
def abortsNow (p : Phase) : Prop := p = .checking ∨ p = .arming ∨ p = .running ∨ p = .paused

theorem abortRun_now {cause : AbortCause} (hc : NoCheckDue b s) (hl : (s.bay b).run.load = none)
    (hp : abortsNow (s.bay b).phase) : abortRun b cause s = abortNow b cause s := by
  unfold abortRun
  rw [settleChecks_idle hc]
  rcases hp with hp | hp | hp | hp <;> simp only [hp, hl, abortable, Bool.not_true, Bool.false_eq_true, if_false]

theorem abortRun_loading {cause : AbortCause} {l : Loading} (hc : NoCheckDue b s) (hp : (s.bay b).phase = .loading)
    (hl : (s.bay b).run.load = some l) : abortRun b cause s =
      s.modRun b fun r => { r with load := some { l with abort := some (l.abort.getD cause) } } := by
  unfold abortRun
  rw [settleChecks_idle hc]
  simp only [hp, hl, abortable, Bool.not_true, Bool.false_eq_true, if_false]

end

end Sys2Proof.Machine

namespace Sys2Proof.Machine

open Sys2Proof

section
variable {b : Bay} {s : State}

/-! ## BAYEN set and cleared -/

/-- BAYEN written 0 while the bay is enabled: the bit, the discarded findings, then the bay's state (R8, R45). -/
theorem disableBay_on (he : (s.bay b).xu.enabled = true) :
    disableBay b s = disableByPhase b (modPass (fun p => if readsBay b p.read then { p with discard := true } else p)
      (s.modBayXu b fun x => { x with enabled := false })) := if_pos he

/-- Without a pass there are no findings to discard (R8). -/
theorem disableBay_noPass (he : (s.bay b).xu.enabled = true) (hn : s.xu.pass = none) :
    disableBay b s = disableByPhase b (s.modBayXu b fun x => { x with enabled := false }) := by
  have hPass (f : Pass → Pass) : modPass f (s.modBayXu b fun x => { x with enabled := false }) =
      s.modBayXu b fun x => { x with enabled := false } := by
    have hSame : { s.xu with pass := s.xu.pass.map f } = s.xu := by rw [hn, Option.map_none, ← hn]
    show { s.modBayXu b fun x => { x with enabled := false } with xu := { s.xu with pass := s.xu.pass.map f } } = _
    rw [hSame]
    rfl
  rw [disableBay_on he, hPass]

theorem disableByPhase_ends (hp : (s.bay b).phase = .idle ∨ (s.bay b).phase = .halted) :
    disableByPhase b s = goOffline b s := by
  unfold disableByPhase
  rcases hp with hp | hp <;> simp only [hp]

theorem disableByPhase_aborts (hp : (s.bay b).phase = .loading ∨ abortsNow (s.bay b).phase) :
    disableByPhase b s = abortRun b .bayDisabled s := by
  unfold disableByPhase
  rcases hp with hp | hp | hp | hp | hp <;> simp only [hp]

theorem disableByPhase_closing (hp : (s.bay b).phase = .closing) : disableByPhase b s = s := by
  unfold disableByPhase
  simp only [hp]

theorem enableBay_offline (he : (s.bay b).xu.enabled = false) (hp : (s.bay b).phase = .offline) :
    BayBecomes b { s.bay b with phase := .idle, xu := { (s.bay b).xu with enabled := true } } s (enableBay b s) := by
  have hOn : enableBay b s = setPhase b .idle (s.modBayXu b fun x => { x with enabled := true }) := by
    simp [enableBay, he, hp]
  rw [hOn]
  simp only [setPhase, State.modBayXu, modBay_modBay]
  exact bayBecomes_triggerBay rfl rfl

/-- The way to OFFLINE of a disabled bay with no fault latched (R45). -/
theorem goOffline_clear (hl : (s.bay b).supply.latched = 0) :
    BayBecomes b { s.bay b with phase := .offline, xu := { (s.bay b).xu with enabled := false } } s
      (goOffline b (s.modBayXu b fun x => { x with enabled := false })) := by
  have hl' : ((s.modBayXu b fun x => { x with enabled := false }).bay b).supply.latched = 0 := by simpa using hl
  simp only [goOffline, clearLatched, hl', if_true, setPhase]
  simp only [State.modBayXu, modBay_modBay]
  exact bayBecomes_triggerBay rfl rfl

/-- The way to OFFLINE of a disabled bay with faults latched: the set is emptied first, with its own trigger (R45). -/
theorem goOffline_faulted (hl : (s.bay b).supply.latched ≠ 0) :
    BayTriggered true b
      { s.bay b with
        xu := { (s.bay b).xu with enabled := false }
        supply := { (s.bay b).supply with latched := 0 } }
      { s.bay b with
        phase := .offline
        xu := { (s.bay b).xu with enabled := false }
        supply := { (s.bay b).supply with latched := 0 } } s
      (goOffline b (s.modBayXu b fun x => { x with enabled := false })) := by
  have hClear : BayBecomes b { s.bay b with
      xu := { (s.bay b).xu with enabled := false }
      supply := { (s.bay b).supply with latched := 0 } } s
      (clearLatched b (s.modBayXu b fun x => { x with enabled := false })) := by
    have hl' : ((s.modBayXu b fun x => { x with enabled := false }).bay b).supply.latched ≠ 0 := by simpa using hl
    simp only [clearLatched, hl', if_false]
    simp only [State.modBayXu, State.modSupply, modBay_modBay]
    exact bayBecomes_triggerBay rfl rfl
  exact bayTriggered_triggerBay hClear fun _ => rfl

/-- A disable aborts at once a run that is not in LOADING (R44, R45). -/
theorem disableBay_aborts (he : (s.bay b).xu.enabled = true) (hc : NoCheckDue b s) (hl : (s.bay b).run.load = none)
    (hp : abortsNow (s.bay b).phase) :
    Closed b .aborted (.abort .bayDisabled) 0 (disableBay b s) ∧
      (((disableBay b s).bay b).phase = .closing ∨ ((disableBay b s).bay b).phase = .offline) := by
  generalize hu : modPass (fun p => if readsBay b p.read then { p with discard := true } else p)
    (s.modBayXu b fun x => { x with enabled := false }) = u
  have hBay : u.bay b = { s.bay b with xu := { (s.bay b).xu with enabled := false } } := by
    rw [← hu]
    exact bay_modBayXu s b fun x => { x with enabled := false }
  have hPhase : abortsNow (u.bay b).phase := by rwa [hBay]
  have hDue : NoCheckDue b u := by
    unfold NoCheckDue
    rwa [hBay]
  have hLoad : (u.bay b).run.load = none := by rwa [hBay]
  have hOff : (u.bay b).xu.enabled = false := by rw [hBay]
  rw [disableBay_on he, hu, disableByPhase_aborts (.inr hPhase), abortRun_now hDue hLoad hPhase,
    abortNow_now _ hLoad]
  exact ⟨enterClosing_closed, enterClosing_disabled hOff⟩

/-- A pass that is reading the bay's blocks discards its findings at a disable, and no other pass changes (R8). -/
theorem disableBay_pass (he : (s.bay b).xu.enabled = true) : (disableBay b s).xu.pass =
    s.xu.pass.map fun p => if passErrorBay p.read = some b then { p with discard := true } else p := by
  rw [disableBay_on he, Moves.pass (disableByPhase_moves (k := none))]
  simp only [modPass, readsBay, decide_eq_true_eq]
  rfl

end

/-- Settles O6, by the bit written and the bay's state. -/
theorem bayEnableAndDisable : Obligations.BayEnableAndDisable := by
  intro s b hs
  have hOn : exec (.bayenSet b) s = .next (enableBay b s) := exec_up hs rfl
  have hOff : exec (.bayDisable b) s = .next (disableBay b s) := exec_up hs rfl
  refine ⟨fun he => ?_, fun he => ?_, fun he hp => ⟨_, hOn, enableBay_offline he hp⟩, fun he hp => ?_,
    fun he hn hp => ?_, fun he hn hp => ?_, fun l he hn hp hl hc => ?_, fun he hc hl hp => ?_,
    fun he => ⟨_, hOff, disableBay_enabled b s, disableBay_pass he⟩⟩
  · rw [hOn, enableBay, he]
    rfl
  · rw [hOff, disableBay, he]
    rfl
  · rw [hOn, enableBay, he, if_neg hp]
    rfl
  · have hPhase : ((s.modBayXu b fun x => { x with enabled := false }).bay b).phase = .idle ∨
        ((s.modBayXu b fun x => { x with enabled := false }).bay b).phase = .halted := by simpa using hp
    rw [hOff, disableBay_noPass he hn, disableByPhase_ends hPhase]
    exact ⟨fun h => ⟨_, rfl, goOffline_clear h⟩, fun h => ⟨_, rfl, goOffline_faulted h⟩⟩
  · rw [hOff, disableBay_noPass he hn, disableByPhase_closing (by simpa using hp)]
    rfl
  · have hDue : NoCheckDue b (s.modBayXu b fun x => { x with enabled := false }) := by
      unfold NoCheckDue
      rwa [bay_modBayXu]
    rw [hOff, disableBay_noPass he hn, disableByPhase_aborts (.inl (by simpa using hp)),
      abortRun_loading (l := l) hDue (by simpa using hp) (by simpa using hl)]
    simp only [State.modBayXu, State.modRun, modBay_modBay]
    rfl
  · obtain ⟨hClosed, hPhase⟩ := disableBay_aborts he hc hl hp
    exact ⟨_, hOff, disableBay_enabled b s, hClosed, hPhase⟩

end Sys2Proof.Machine

namespace Sys2Proof.Machine

open Sys2Proof

section
variable {b : Bay} {s : State}

/-! ## EXCHANGE latched (R22, R156) -/

/-- A fault added to the latched set, with the trigger of a change (R18, R156). -/
theorem addLatched_eq (f : FaultSet) : ∃ w l, addLatched b f s = { s with
    bays := baySet s.bays b { s.bay b with
      xu := { (s.bay b).xu with write := w }
      supply := { (s.bay b).supply with latched := (s.bay b).supply.latched ||| f } }
    xu := { s.xu with stream := s.xu.stream ++ l } } := by
  unfold addLatched
  split
  · next h =>
    refine ⟨(s.bay b).xu.write, [], ?_⟩
    rw [h, List.append_nil]
    exact congrArg (fun bays => { s with bays := bays }) (baySet_bayGet s.bays b).symm
  · exact ⟨_, _, bayBecomes_triggerBay (f := fun y => { y with
      supply := { y.supply with latched := y.supply.latched ||| f } }) rfl rfl⟩

theorem addLatched_bay (f : FaultSet) : ∃ w, (addLatched b f s).bay b = { s.bay b with
    xu := { (s.bay b).xu with write := w }
    supply := { (s.bay b).supply with latched := (s.bay b).supply.latched ||| f } } := by
  obtain ⟨w, l, h⟩ := addLatched_eq (b := b) (s := s) f
  exact ⟨w, by rw [h]; exact bayGet_baySet ..⟩

theorem addLatched_merr (f : FaultSet) : (addLatched b f s).xu.merr = s.xu.merr := by
  obtain ⟨w, l, h⟩ := addLatched_eq (b := b) (s := s) f
  rw [h]

theorem addLatched_bus (f : FaultSet) : (addLatched b f s).bus = s.bus := by
  obtain ⟨w, l, h⟩ := addLatched_eq (b := b) (s := s) f
  rw [h]

/-- The due CHECK ends are as they were after a fault has been latched. -/
theorem noCheckDue_addLatched (f : FaultSet) (hc : NoCheckDue b s) : NoCheckDue b (addLatched b f s) := by
  obtain ⟨w, h⟩ := addLatched_bay (b := b) (s := s) f
  unfold NoCheckDue
  rwa [h]

/-! ## A memory error on an access made for a bay, by the bay's state (R22, R44) -/

theorem latchExchange_held (hp : abortable (s.bay b).phase = true ∨ (s.bay b).phase = .closing) :
    latchExchange b s = addLatched b exchangeBit s := if_pos (by simpa using hp)

/-- A bay without a run latches nothing (R22). -/
theorem exchangeFault_rests (hc : NoCheckDue b s)
    (hp : (s.bay b).phase = .idle ∨ (s.bay b).phase = .halted ∨ (s.bay b).phase = .offline) :
    exchangeFault b s = s := by
  have hn : abortable (s.bay b).phase = false ∧ (s.bay b).phase ≠ .closing := by
    rcases hp with hp | hp | hp <;> simp [hp, abortable]
  have hLatch : latchExchange b s = s := if_neg (by simp [hn])
  rw [exchangeFault, hLatch]
  simp only [settleChecks_idle hc]
  exact if_neg (by simp [hn.1])

/-- In CLOSING the set is latched and nothing else (R22). -/
theorem exchangeFault_closing (hc : NoCheckDue b s) (hp : (s.bay b).phase = .closing) :
    exchangeFault b s = addLatched b exchangeBit s := by
  obtain ⟨w, h⟩ := addLatched_bay (b := b) (s := s) exchangeBit
  rw [exchangeFault, latchExchange_held (.inr hp)]
  simp only [settleChecks_idle (noCheckDue_addLatched exchangeBit hc)]
  exact if_neg (by simp [h, hp, abortable])

/-- A run is aborted with EXCHANGE latched (R22, R44). -/
theorem exchangeFault_held (hc : NoCheckDue b s) (hp : abortable (s.bay b).phase = true) :
    exchangeFault b s = abortNow b .exchange (addLatched b exchangeBit s) := by
  obtain ⟨w, h⟩ := addLatched_bay (b := b) (s := s) exchangeBit
  rw [exchangeFault, latchExchange_held (.inl hp)]
  simp only [settleChecks_idle (noCheckDue_addLatched exchangeBit hc)]
  exact if_pos (by simp [h, hp])

theorem latched_exchange (f : FaultSet) : (f ||| exchangeBit) &&& 16#8 = 16#8 := by
  rw [exchangeBit]
  ext i hi
  simp only [BitVec.getElem_and, BitVec.getElem_or]
  cases f[i] <;> simp

/-- What a memory error does to a run that is going on (R22, R44). -/
theorem exchangeFault_aborts (hc : NoCheckDue b s) (hp : abortable (s.bay b).phase = true) :
    Closed b .aborted (.abort (firstCause (s.bay b).run .exchange)) 0 (exchangeFault b s) ∧
      ExchangeLatched b (exchangeFault b s) ∧
      (((exchangeFault b s).bay b).phase = .closing ∨ ((exchangeFault b s).bay b).phase = .halted ∨
        ((exchangeFault b s).bay b).phase = .offline) := by
  obtain ⟨w, h⟩ := addLatched_bay (b := b) (s := s) exchangeBit
  have hLatched : ((addLatched b exchangeBit s).bay b).supply.latched &&& 16#8 = 16#8 := by
    rw [h]
    exact latched_exchange _
  have hClosed := abortNow_closed (b := b) (s := addLatched b exchangeBit s) .exchange
  rw [exchangeFault_held hc hp]
  rw [h] at hClosed
  refine ⟨hClosed, abortNow_latched _ hLatched, abortNow_faulted _ fun h0 => ?_⟩
  rw [h0] at hLatched
  exact absurd hLatched (by decide)

/-- Nothing of the hand-back adds to the error recorded when no write of it will fail, or the run is lost already. -/
theorem exchangeFault_merr (hc : NoCheckDue b s) (hp : abortable (s.bay b).phase = true)
    (hr : (s.bay b).xu.refused = none ∨ (s.bay b).run.lost = true) :
    (exchangeFault b s).xu.merr = s.xu.merr := by
  obtain ⟨w, h⟩ := addLatched_bay (b := b) (s := s) exchangeBit
  rw [exchangeFault_held hc hp, abortNow_merr, addLatched_merr]
  rwa [h]

theorem exchangeFault_grows : Grows s (exchangeFault b s) :=
  (exchangeFault_moves (k := none)).device.grows (by decide) (by decide)

/-- An error recorded stays recorded through what it brings. -/
theorem ErrorRecorded.exchangeFault {kind : ErrorKind} {o : Option Bay} {r : State} (h : ErrorRecorded kind o r s)
    (hm : (exchangeFault b s).xu.merr = s.xu.merr) : ErrorRecorded kind o r (exchangeFault b s) :=
  h.later hm exchangeFault_grows.events

end

/-- The cause that waits in LOADING, or else the new one (R35). -/
theorem firstCause_loading {r : RunEngine} {l : Loading} (h : r.load = some l) (cause : AbortCause) :
    firstCause r cause = l.abort.getD cause := by
  rw [firstCause, h]
  rfl

theorem firstCause_none {r : RunEngine} (h : r.load = none) (cause : AbortCause) : firstCause r cause = cause := by
  rw [firstCause, h]
  rfl

/-! ## Reads that end in a memory error -/

section
variable {s : State}

theorem recordError_bays (kind : ErrorKind) (o : Option Bay) (s : State) : (recordError kind o s).bays = s.bays := by
  simp only [recordError, setEvent]
  split <;> rfl

/-- An error recorded leaves the interval of reads and the base as they are (R2, R20). -/
theorem areaRead_recordError (kind : ErrorKind) (o : Option Bay) (s : State) (offset : Nat) :
    areaRead (recordError kind o s) offset = areaRead s offset := by
  have hInterval : (recordError kind o s).xu.merr.interval = s.xu.merr.interval := by
    rw [(errorRecorded_recordError kind o s).1]
    split <;> rfl
  have hBase : areaAddress (recordError kind o s).xu offset = areaAddress s.xu offset := by
    simp only [recordError, setEvent]
    split <;> rfl
  rw [areaRead, areaRead, hInterval, hBase]

/-- The pass ends as it would have without the error (R8, R22). -/
theorem endPass_recordError (kind : ErrorKind) (o : Option Bay) (s : State) :
    (endPass (recordError kind o s)).xu.pass = (passEnds s).xu.pass := by
  rw [endPass_eq]
  simp only [passEnds, firstPass, areaRead_recordError]
  simp only [recordError, setEvent]
  split <;> rfl

/-- A read of the pass that ends in an error (R8, R22). -/
theorem readFault_pass {p : Pass} (kind : ErrorKind) (hp : s.xu.pass = some p) (hw : p.waits = false) :
    let t := readFault kind .pass s
    ErrorRecorded kind (passErrorBay p.read) s t ∧ t.xu.pass = (passEnds s).xu.pass ∧ t.bays = s.bays ∧
      t.bus = s.bus := by
  have ht : readFault kind .pass s = endPass (recordError kind (passErrorBay p.read) s) := by
    simp only [readFault, passWaits_eq_some.2 ⟨hp, hw⟩]
  dsimp only
  rw [ht, endPass_recordError, endPass_eq]
  exact ⟨errorRecorded_recordError .., rfl, recordError_bays .., recordError_bus ..⟩

theorem readFault_passIdle (kind : ErrorKind) (h : passWaits s = none) : readFault kind .pass s = s := by
  simp only [readFault, h]

end

section
variable {b : Bay} {s : State}

/-- The read of a withdrawal that ends in an error is answered IGNORED (R15). -/
def withdrawalFails (kind : ErrorKind) (b : Bay) (w : Withdrawal) (s : State) : State :=
  echoBay b w.seq .ignored (recordError kind (some b) (s.modBayXu b fun u => { u with withdrawal := none }))

theorem readFault_withdrawal {w : Withdrawal} (kind : ErrorKind) (hw : (s.bay b).xu.withdrawal = some w) :
    readFault kind (.withdrawal b) s = passResume (withdrawalFails kind b w s) := by
  simp only [readFault, hw]
  rfl

theorem withdrawalFails_withPass (kind : ErrorKind) (w : Withdrawal) (q : Option Pass) :
    withdrawalFails kind b w (withPass q s) = withPass q (withdrawalFails kind b w s) := by
  show echoBay b w.seq .ignored (recordError kind (some b)
    (withPass q (s.modBayXu b fun u => { u with withdrawal := none }))) = _
  rw [recordError_withPass, echoBay_withPass]
  rfl

theorem withdrawalFails_bay (kind : ErrorKind) (w : Withdrawal) : ∃ v, (withdrawalFails kind b w s).bay b =
    { s.bay b with
      xu := { (s.bay b).xu with withdrawal := none, write := v }
      status := { (s.bay b).status with echoSeq := w.seq, echo := .ignored } } := by
  rw [withdrawalFails, echoBay_self, recordError_bay, bay_modBayXu]
  exact ⟨_, rfl⟩

theorem withdrawalFails_recorded (kind : ErrorKind) (w : Withdrawal) :
    ErrorRecorded kind (some b) s (withdrawalFails kind b w s) := by
  have h : ErrorRecorded kind (some b) s
      (recordError kind (some b) (s.modBayXu b fun u => { u with withdrawal := none })) :=
    errorRecorded_recordError kind (some b) (s.modBayXu b fun u => { u with withdrawal := none })
  refine h.later (echoBay_merr ..) fun n hn => ?_
  rw [withdrawalFails, echoBay, triggerBay_xu]
  exact hn

theorem withdrawing_withdrawalFails (kind : ErrorKind) (w : Withdrawal) :
    withdrawing (withdrawalFails kind b w s) = false ↔ ∀ o, o ≠ b → (s.bay o).xu.withdrawal = none := by
  refine withdrawing_after (fun o ho => ?_) ?_
  · rw [withdrawalFails, echoBay, triggerBay_other b ho]
    simp [State.modStatus, State.modBayXu, ho]
  · obtain ⟨v, hv⟩ := withdrawalFails_bay (b := b) (s := s) kind w
    rw [hv]

theorem withdrawalFails_pass (kind : ErrorKind) (w : Withdrawal) :
    (withdrawalFails kind b w s).xu.pass = s.xu.pass := by
  have h : Moves none b s (s.modBayXu b fun u => { u with withdrawal := none }) := modBayXu_moves rfl rfl
  exact Moves.pass (h.trans ((recordError_moves ..).trans (echoBay_moves ..)))

/-- The read of a withdrawal that ends in an error, and the pass that has waited for it (R15). -/
theorem readFault_withdrawal_pass {kind : ErrorKind} {w : Withdrawal} (hw : (s.bay b).xu.withdrawal = some w) :
    readFault kind (.withdrawal b) (withPass none s) = withPass none (withdrawalFails kind b w s) ∧
      (∀ p, s.xu.pass = some p → p.waits = true → (∀ o, o ≠ b → (s.bay o).xu.withdrawal = none) →
        readFault kind (.withdrawal b) s = passOn p.read (withdrawalFails kind b w s)) ∧
      ((∀ p, s.xu.pass = some p → p.waits = false) ∨ (∃ o, o ≠ b ∧ (s.bay o).xu.withdrawal ≠ none) →
        readFault kind (.withdrawal b) s = withdrawalFails kind b w s) := by
  have hPass := withdrawalFails_pass (b := b) (s := s) kind w
  refine ⟨?_, fun p hp hWaits hRest => ?_, fun h => ?_⟩
  · rw [readFault_withdrawal (s := withPass none s) kind hw, withdrawalFails_withPass, passResume_none rfl]
  · rw [readFault_withdrawal kind hw,
      passResume_goes (hPass.trans hp) hWaits ((withdrawing_withdrawalFails kind w).2 hRest)]
  · rw [readFault_withdrawal kind hw, passResume_stays]
    refine h.imp (fun h p hp => h p (hPass.symm.trans hp)) fun ⟨o, ho, h⟩ =>
      Bool.of_not_eq_false fun hf => h ((withdrawing_withdrawalFails kind w).1 hf o ho)

/-- A read of LOADING that ends in an error (R22, R35, R44). -/
theorem readFault_loading {l : Loading} (kind : ErrorKind) (hp : (s.bay b).phase = .loading)
    (hl : (s.bay b).run.load = some l) (hc : NoCheckDue b s) (hr : (s.bay b).xu.refused = none) :
    let t := readFault kind (.loading b) s
    ErrorRecorded kind (some b) s t ∧ Closed b .aborted (.abort (l.abort.getD .exchange)) 0 t ∧
      ((t.bay b).phase = .closing ∨ (t.bay b).phase = .halted ∨ (t.bay b).phase = .offline) ∧ ExchangeLatched b t := by
  have ht : readFault kind (.loading b) s = exchangeFault b (recordError kind (some b) s) := by
    have hLoading : loadingOf (s.bay b) = some l := (if_pos hp).trans hl
    simp only [readFault, hLoading]
  have hBay : (recordError kind (some b) s).bay b = s.bay b := recordError_bay ..
  have hDue : NoCheckDue b (recordError kind (some b) s) := by
    unfold NoCheckDue
    rwa [hBay]
  have hHeld : abortable ((recordError kind (some b) s).bay b).phase = true := by
    rw [hBay, hp]
    rfl
  obtain ⟨hClosed, hLatched, hPhase⟩ := exchangeFault_aborts hDue hHeld
  rw [hBay, firstCause_loading hl] at hClosed
  dsimp only
  rw [ht]
  refine ⟨(errorRecorded_recordError kind (some b) s).exchangeFault (exchangeFault_merr hDue hHeld (.inl ?_)), hClosed,
    hPhase, hLatched⟩
  rw [hBay, hr]

end

/-- Settles O21, by the access that ends in the error. -/
theorem readErrorsByAccess : Obligations.ReadErrorsByAccess := by
  intro s c kind hs hc
  have he (a : ReadAccess) (u : State) (hu : Up u) : exec (c a) u = .next (readFault kind a u) := by
    rcases hc with ⟨rfl, rfl⟩ | ⟨rfl, rfl⟩
    · exact exec_up hu rfl
    · exact exec_up hu rfl
  simp only [he _ s hs]
  refine ⟨fun hn => ?_, fun p hp => ⟨fun hw => ?_, fun hw => ⟨fun hr => ⟨_, rfl, ?_⟩, fun b hr => ⟨_, rfl, ?_⟩⟩⟩,
    fun b hn => ?_, fun b r hr => ⟨_, rfl, ?_⟩, fun b hn => ?_, fun b w hw => ?_, fun b hp => ?_,
    fun b l hp hl hd hr => ⟨_, rfl, readFault_loading kind hp hl hd hr⟩⟩
  · rw [readFault_passIdle kind (by simp [passWaits, hn])]
  · rw [readFault_passIdle kind (by simp [passWaits, hp, hw])]
  · have h := readFault_pass kind hp hw
    rwa [hr] at h
  · have h := readFault_pass kind hp hw
    rcases hr with hr | ⟨x, second, hr⟩
    · rwa [hr] at h
    · rwa [hr] at h
  · simp only [readFault, hn]
  · have ht : readFault kind (.backToBack b) s =
        recordError kind (some b) (s.modBayXu b fun u => { u with backToBack := none }) := by
      simp only [readFault, hr]
    rw [ht, recordError_bays]
    exact ⟨errorRecorded_recordError kind (some b) (s.modBayXu b fun u => { u with backToBack := none }),
      recordError_bus .., rfl⟩
  · simp only [readFault, hn]
  · obtain ⟨hRest, hGoes, hStays⟩ := readFault_withdrawal_pass (kind := kind) hw
    obtain ⟨v, hv⟩ := withdrawalFails_bay (b := b) (s := s) kind w
    have hOutcome : withPass s.xu.pass (withdrawalFails kind b w s) = withdrawalFails kind b w s := by
      rw [← withdrawalFails_pass kind w]
      rfl
    refine ⟨withPass none (withdrawalFails kind b w s), (he _ (withPass none s) hs).trans (congrArg _ hRest),
      withdrawalFails_recorded kind w, ?_⟩
    show ((withdrawalFails kind b w s).bay b).phase = _ ∧ ((withdrawalFails kind b w s).bay b).run = _ ∧
      ((withdrawalFails kind b w s).bay b).xu.withdrawal = none ∧
      ((withdrawalFails kind b w s).bay b).status.echo = .ignored ∧
      ((withdrawalFails kind b w s).bay b).status.echoSeq = w.seq ∧
      let u := withPass s.xu.pass (withdrawalFails kind b w s)
      (∀ p, s.xu.pass = some p → p.waits = true → (∀ o, o ≠ b → (s.bay o).xu.withdrawal = none) →
        Host.Outcome.next (readFault kind (.withdrawal b) s) = .next (passOn p.read u)) ∧
      ((∀ p, s.xu.pass = some p → p.waits = false) ∨ (∃ o, o ≠ b ∧ (s.bay o).xu.withdrawal ≠ none) →
        Host.Outcome.next (readFault kind (.withdrawal b) s) = .next u)
    rw [hv, hOutcome]
    exact ⟨rfl, rfl, rfl, rfl, rfl, fun p hp hw hr => congrArg _ (hGoes p hp hw hr), fun h => congrArg _ (hStays h)⟩
  · have hn : loadingOf (s.bay b) = none := if_neg hp
    simp only [readFault, hn]

end Sys2Proof.Machine

namespace Sys2Proof.Machine

open Sys2Proof

/-! ## Writes that are reported not accepted -/

theorem phase_cases (p : Phase) :
    abortable p = true ∨ p = .closing ∨ p = .idle ∨ p = .halted ∨ p = .offline := by
  cases p <;> simp [abortable]

/-- What has been issued stays issued. -/
theorem Grows.issued {s t u : State} (h : Grows s t) (g : Grows t u) {i : StreamItem} (hi : i ∈ issued s t) :
    i ∈ Machine.issued s u := by
  obtain ⟨l, hl, -⟩ := h.stream
  obtain ⟨m, hm, -⟩ := g.stream
  rw [issued_of_append hl] at hi
  have hu : u.xu.stream = s.xu.stream ++ (l ++ m) := by rw [hm, hl, List.append_assoc]
  rw [issued_of_append hu]
  exact List.mem_append_left _ hi

theorem recordError_grows (kind : ErrorKind) (o : Option Bay) (s : State) : Grows s (recordError kind o s) :=
  DeviceMoves.grows (k := none) (by decide) (by decide) (recordError_moves (b := .bay0) kind o).device

/-- An error recorded changes neither an area address nor a copy of a status block. -/
theorem areaAddress_recordError (kind : ErrorKind) (o : Option Bay) (s : State) (offset : Nat) :
    areaAddress (recordError kind o s).xu offset = areaAddress s.xu offset := by
  simp only [recordError, setEvent]
  split <;> rfl

theorem recordError_rackTime (kind : ErrorKind) (o : Option Bay) (s : State) :
    (recordError kind o s).rackTime = s.rackTime := by
  simp only [recordError, setEvent]
  split <;> rfl

theorem slotWritten_iff {b : Bay} {s : State} : slotWritten b s = true ↔ SlotWritten b s := by
  unfold slotWritten SlotWritten
  rw [List.any_eq_true]
  constructor
  · rintro ⟨i, hi, h⟩
    cases i with
    | interrupt => exact absurd h nofun
    | write k a d =>
      refine ⟨k, a, d, hi, ?_⟩
      cases k with
      | active c => simpa [slotWriteBay] using h
      | header c => simpa [slotWriteBay] using h
      | finished c => simpa [slotWriteBay] using h
      | result c i => simpa [slotWriteBay] using h
      | bayStatus c => simp [slotWriteBay] at h
      | rackStatus => simp [slotWriteBay] at h
  · rintro ⟨k, a, d, hi, h⟩
    refine ⟨_, hi, ?_⟩
    rcases h with rfl | rfl | rfl | ⟨i, rfl⟩ <;> simp [slotWriteBay]

section
variable {b : Bay} {s : State}

/-- A write error of a slot that no run held concerns is recorded, if a slot of the bay has been written (R4, R22). -/
theorem writeFault_unheld :
    (SlotWritten b s →
      let t := whenever (slotWritten b s) (recordError .writeError (some b)) s
      ErrorRecorded .writeError (some b) s t ∧ t.bays = s.bays ∧ t.bus = s.bus) ∧
    (¬SlotWritten b s → whenever (slotWritten b s) (recordError .writeError (some b)) s = s) := by
  constructor
  · intro h
    rw [slotWritten_iff.2 h, whenever_true]
    exact ⟨errorRecorded_recordError .., recordError_bays .., recordError_bus ..⟩
  · intro h
    rw [Bool.eq_false_iff.2 fun hw => h (slotWritten_iff.1 hw), whenever_false]

/-! ## The run that a write error loses (R22, R23) -/

/-- The loss of a run, with its label (R17, R23). -/
theorem loseRun_bay (hl : (s.bay b).run.lost = false) : ∃ w, (loseRun b s).bay b = { s.bay b with
    run := { (s.bay b).run with lost := true }
    xu := { (s.bay b).xu with write := w }
    status := { (s.bay b).status with
      runLost := true
      lostLabel := lostLabelOf (s.bay b).run (Config.freeWord s.freeIndex) } } := by
  obtain ⟨w, h⟩ := triggerBay_bay b { s.modBay b fun y => { y with
    run := { y.run with lost := true }
    status := { y.status with runLost := true, lostLabel := lostLabelOf y.run (Config.freeWord s.freeIndex) } } with
    freeIndex := s.freeIndex + 1 }
  have he : loseRun b s = triggerBay b { s.modBay b fun y => { y with
    run := { y.run with lost := true }
    status := { y.status with runLost := true, lostLabel := lostLabelOf y.run (Config.freeWord s.freeIndex) } } with
    freeIndex := s.freeIndex + 1 } := if_neg (by simp [hl])
  refine ⟨w, (congrArg (·.bay b) he).trans (h.trans ?_)⟩
  simp only [State.modBay, State.bay, bayGet_baySet]

theorem loseRun_merr : (loseRun b s).xu.merr = s.xu.merr := by
  unfold loseRun
  split
  · rfl
  · rw [triggerBay_xu]
    rfl

theorem loseRun_issues : Issues (NoHandBack b) s (loseRun b s) := by
  unfold loseRun
  split
  · exact .of_eq rfl
  · exact .trans (.of_eq rfl) triggerBay_handed

/-- A lost run stays lost through a memory error, and is not handed back (R22, R23). -/
theorem exchangeFault_lost (hc : NoCheckDue b s) (hl : (s.bay b).run.lost = true) :
    let t := exchangeFault b s
    (t.bay b).run.lost = true ∧ handedBack (t.bay b).status = handedBack (s.bay b).status ∧
      Issues (NoHandBack b) s t ∧ t.xu.merr = s.xu.merr := by
  have hStays := (addLatched_stays (b := b) (s := s) exchangeBit).goesOn
  obtain ⟨hLost, hBack⟩ := hStays.bay.lost hl
  have hIssues := hStays.handed hl
  rcases phase_cases (s.bay b).phase with hp | hp | hp
  · obtain ⟨h1, h2, h3⟩ := abortNow_lost (b := b) (s := addLatched b exchangeBit s) .exchange hLost
    have hMerr := exchangeFault_merr hc hp (.inr hl)
    rw [exchangeFault_held hc hp] at hMerr ⊢
    exact ⟨h1, h2.trans hBack, hIssues.trans h3, hMerr⟩
  · rw [exchangeFault_closing hc hp]
    exact ⟨hLost, hBack, hIssues, addLatched_merr _⟩
  · rw [exchangeFault_rests hc hp]
    exact ⟨hl, rfl, .of_eq rfl, rfl⟩

/-- A write of the run held that the card did not accept (R22, R23). -/
def slotWriteFails (b : Bay) (s : State) : State := exchangeFault b (loseRun b (recordError .writeError (some b) s))

/-- The bay whose run a write error has just lost. -/
theorem loseRun_recordError_bay (hl : (s.bay b).run.lost = false) :
    ∃ w q, (loseRun b (recordError .writeError (some b) s)).bay b = { s.bay b with
      run := { (s.bay b).run with lost := true }
      xu := { (s.bay b).xu with write := w }
      status := { (s.bay b).status with runLost := true, lostLabel := lostLabelOf (s.bay b).run q } } := by
  have hBay : (recordError .writeError (some b) s).bay b = s.bay b := recordError_bay ..
  obtain ⟨w, h⟩ := loseRun_bay (b := b) (s := recordError .writeError (some b) s) (by rw [hBay]; exact hl)
  rw [hBay] at h
  exact ⟨w, _, h⟩

theorem noCheckDue_loseRun (hc : NoCheckDue b s) (hl : (s.bay b).run.lost = false) :
    NoCheckDue b (loseRun b (recordError .writeError (some b) s)) := by
  obtain ⟨w, q, h⟩ := loseRun_recordError_bay hl
  unfold NoCheckDue
  rwa [h]

theorem slotWriteFails_lost (hc : NoCheckDue b s) (hl : (s.bay b).run.lost = false) :
    let t := slotWriteFails b s
    ErrorRecorded .writeError (some b) s t ∧ (t.bay b).run.lost = true ∧ (t.bay b).status.runLost = true ∧
      (∀ h, (s.bay b).run.copy.header = some h → (t.bay b).status.lostLabel = h.label) ∧
      Issues (NoHandBack b) s t := by
  obtain ⟨w, q, hBay⟩ := loseRun_recordError_bay hl
  obtain ⟨hLost, hBack, hIssues, hMerr⟩ := exchangeFault_lost (noCheckDue_loseRun hc hl) (by rw [hBay])
  rw [hBay] at hBack
  have hFrom : Issues (NoHandBack b) s (loseRun b (recordError .writeError (some b) s)) :=
    (recordError_issues (by intro a d; simp) _ _ _).trans loseRun_issues
  have hRecorded : ErrorRecorded .writeError (some b) s (loseRun b (recordError .writeError (some b) s)) :=
    (errorRecorded_recordError ..).later loseRun_merr
      (DeviceMoves.grows (k := none) (by decide) (by decide) loseRun_moves.device).events
  refine ⟨hRecorded.exchangeFault hMerr, hLost, congrArg (·.1) hBack, fun h hh => ?_, hFrom.trans hIssues⟩
  refine (congrArg (·.2.1) hBack).trans ?_
  simp only [handedBack, lostLabelOf, hh]

/-- In CLOSING the loss only latches EXCHANGE (R22). -/
theorem slotWriteFails_closing (hc : NoCheckDue b s) (hl : (s.bay b).run.lost = false)
    (hp : (s.bay b).phase = .closing) :
    let t := slotWriteFails b s
    (t.bay b).phase = .closing ∧ (t.bay b).run.verdict = (s.bay b).run.verdict ∧
      (t.bay b).run.cause = (s.bay b).run.cause ∧ (t.bay b).supply.latched = (s.bay b).supply.latched ||| 16#8 := by
  obtain ⟨w, q, hBay⟩ := loseRun_recordError_bay hl
  obtain ⟨v, hv⟩ := addLatched_bay (b := b) (s := loseRun b (recordError .writeError (some b) s)) exchangeBit
  dsimp only
  rw [slotWriteFails, exchangeFault_closing (noCheckDue_loseRun hc hl) (by rw [hBay, hp]), hv, hBay]
  exact ⟨hp, rfl, rfl, rfl⟩

/-- Elsewhere the run is aborted (R22, R44). -/
theorem slotWriteFails_aborts (hc : NoCheckDue b s) (hl : (s.bay b).run.lost = false)
    (hp : abortable (s.bay b).phase = true) :
    Closed b .aborted (.abort (firstCause (s.bay b).run .exchange)) 0 (slotWriteFails b s) ∧
      ExchangeLatched b (slotWriteFails b s) := by
  obtain ⟨w, q, hBay⟩ := loseRun_recordError_bay hl
  obtain ⟨hClosed, hLatched, -⟩ := exchangeFault_aborts (noCheckDue_loseRun hc hl) (by rw [hBay]; exact hp)
  rw [hBay] at hClosed
  exact ⟨hClosed, hLatched⟩

/-! ## Status block writes that fail (R18, R22) -/

/-- The end of a bay status block write in progress, with a marked one issued (R18). -/
theorem statusWriteEnd_ends (h : (s.bay b).xu.write ≠ .idle) :
    statusWriteEnd (some b) s = { s with
      bays := baySet s.bays b { s.bay b with
        xu := { (s.bay b).xu with write := if (s.bay b).xu.write = .busyMarked then .busy else .idle } }
      xu := { s.xu with stream := s.xu.stream ++ if (s.bay b).xu.write = .busyMarked then
        [areaItem s (.bayStatus b) (bayStatusOffset b) (bayStatusBytes b s)] else [] } } := by
  rw [statusWriteEnd_bay]
  cases hw : (s.bay b).xu.write with
  | idle => exact absurd hw h
  | busy => simp
  | busyMarked => rfl

/-- The end of a rack status block write in progress, with a marked one issued (R19). -/
theorem statusWriteEnd_rackEnds (h : s.xu.rackWrite ≠ .idle) :
    statusWriteEnd none s = { s with xu := { s.xu with
      rackWrite := if s.xu.rackWrite = .busyMarked then .busy else .idle
      stream := s.xu.stream ++ if s.xu.rackWrite = .busyMarked then
        [areaItem s .rackStatus 0x0010 (rackStatusBytes s)] else [] } } := by
  rw [statusWriteEnd_rack]
  cases hw : s.xu.rackWrite with
  | idle => exact absurd hw h
  | busy => simp
  | busyMarked => rfl

/-- A status block write of the bay that the card did not accept, before what it does to the run (R18, R22). -/
def statusWriteFails (b : Bay) (s : State) : State := statusWriteEnd (some b) (recordError .writeError (some b) s)

section
variable (h : (s.bay b).xu.write ≠ .idle)
include h

theorem statusWriteFails_eq : statusWriteFails b s = { recordError .writeError (some b) s with
    bays := baySet s.bays b { s.bay b with
      xu := { (s.bay b).xu with write := if (s.bay b).xu.write = .busyMarked then .busy else .idle } }
    xu := { (recordError .writeError (some b) s).xu with
      stream := (recordError .writeError (some b) s).xu.stream ++ if (s.bay b).xu.write = .busyMarked then
        [areaItem s (.bayStatus b) (bayStatusOffset b) (bayStatusBytes b s)] else [] } } := by
  have hBay : (recordError .writeError (some b) s).bay b = s.bay b := recordError_bay ..
  have hCopy : bayStatusBytes b (recordError .writeError (some b) s) = bayStatusBytes b s :=
    bayStatusBytes_congr (w := (s.bay b).xu.write) hBay (congrArg (·.queue) (recordError_bus ..))
      (recordError_rackTime ..)
  rw [statusWriteFails, statusWriteEnd_ends (by rw [hBay]; exact h), hBay, recordError_bays, hCopy]
  simp only [areaItem, areaAddress_recordError]

theorem statusWriteFails_bay : ∃ w, (statusWriteFails b s).bay b =
    { s.bay b with xu := { (s.bay b).xu with write := w } } := by
  rw [statusWriteFails_eq h]
  exact ⟨_, bayGet_baySet ..⟩

theorem statusWriteFails_recorded : ErrorRecorded .writeError (some b) s (statusWriteFails b s) := by
  rw [statusWriteFails_eq h]
  exact errorRecorded_recordError .writeError (some b) s

theorem statusWriteFails_issued (hw : (s.bay b).xu.write = .busyMarked) :
    areaItem s (.bayStatus b) (bayStatusOffset b) (bayStatusBytes b s) ∈ issued s (statusWriteFails b s) := by
  obtain ⟨l, hl, -⟩ := (recordError_grows .writeError (some b) s).stream
  have hs : (statusWriteFails b s).xu.stream =
      s.xu.stream ++ (l ++ [areaItem s (.bayStatus b) (bayStatusOffset b) (bayStatusBytes b s)]) := by
    rw [statusWriteFails_eq h]
    simp only [hw, if_true, hl, List.append_assoc]
  rw [issued_of_append hs]
  simp

end

end

end Sys2Proof.Machine

namespace Sys2Proof.Machine

open Sys2Proof

section
variable {b : Bay} {s : State}

/-- A status block write that fails while a run is going on (R22, R44). -/
theorem statusWriteFails_aborts (hw : (s.bay b).xu.write ≠ .idle) (hc : NoCheckDue b s)
    (hp : abortable (s.bay b).phase = true) (hr : (s.bay b).xu.refused = none) :
    let t := exchangeFault b (statusWriteFails b s)
    ErrorRecorded .writeError (some b) s t ∧
      Closed b .aborted (.abort (firstCause (s.bay b).run .exchange)) 0 t ∧ ExchangeLatched b t := by
  obtain ⟨w, hBay⟩ := statusWriteFails_bay hw
  have hDue : NoCheckDue b (statusWriteFails b s) := by
    unfold NoCheckDue
    rwa [hBay]
  have hHeld : abortable ((statusWriteFails b s).bay b).phase = true := by rwa [hBay]
  obtain ⟨hClosed, hLatched, -⟩ := exchangeFault_aborts hDue hHeld
  rw [hBay] at hClosed
  refine ⟨(statusWriteFails_recorded hw).exchangeFault (exchangeFault_merr hDue hHeld (.inl ?_)), hClosed, hLatched⟩
  rw [hBay, hr]

/-- What a status block write that fails issues stays issued through what it does to the run. -/
theorem statusWriteFails_issued_later (h : (s.bay b).xu.write = .busyMarked) :
    areaItem s (.bayStatus b) (bayStatusOffset b) (bayStatusBytes b s) ∈
      issued s (exchangeFault b (statusWriteFails b s)) := by
  have hGrows : Grows s (statusWriteFails b s) :=
    (recordError_grows ..).trans
      (DeviceMoves.grows (k := none) (by decide) (by decide) (statusWriteEnd_moves (b := b)).device)
  exact hGrows.issued exchangeFault_grows (statusWriteFails_issued (by simp [h]) h)

/-- The bay status block write that fails, by the bay's state (R18, R22, R44). -/
theorem writeFault_bayStatus (hw : (s.bay b).xu.write ≠ .idle) :
    writeFault (.bayStatus b) s = exchangeFault b (statusWriteFails b s) := if_neg hw

theorem statusWriteFails_rests (hw : (s.bay b).xu.write ≠ .idle) (hc : NoCheckDue b s)
    (hp : (s.bay b).phase = .idle ∨ (s.bay b).phase = .halted ∨ (s.bay b).phase = .offline) :
    exchangeFault b (statusWriteFails b s) = statusWriteFails b s := by
  obtain ⟨w, hBay⟩ := statusWriteFails_bay hw
  refine exchangeFault_rests ?_ (by rwa [hBay])
  unfold NoCheckDue
  rwa [hBay]

theorem statusWriteFails_closing (hw : (s.bay b).xu.write ≠ .idle) (hc : NoCheckDue b s)
    (hp : (s.bay b).phase = .closing) :
    let t := exchangeFault b (statusWriteFails b s)
    ErrorRecorded .writeError (some b) s t ∧ (t.bay b).phase = .closing ∧ (t.bay b).run = (s.bay b).run ∧
      (t.bay b).supply.latched = (s.bay b).supply.latched ||| 16#8 := by
  obtain ⟨w, hBay⟩ := statusWriteFails_bay hw
  have hDue : NoCheckDue b (statusWriteFails b s) := by
    unfold NoCheckDue
    rwa [hBay]
  have ht := exchangeFault_closing hDue (by rwa [hBay])
  obtain ⟨v, hv⟩ := addLatched_bay (b := b) (s := statusWriteFails b s) exchangeBit
  refine ⟨(statusWriteFails_recorded hw).exchangeFault (by rw [ht, addLatched_merr]), ?_⟩
  rw [ht, hv, hBay]
  exact ⟨hp, rfl, rfl⟩

/-- A write of the hand-back that the card will not accept (R23). -/
theorem writeFault_handBack (w : HandBackWrite) :
    ((s.bay b).run.slot ≠ none → (s.bay b).run.lost = false → w ≠ .record ∨ (s.bay b).phase ≠ .closing →
      writeFault (.handBack b w) s = { s with bays := baySet s.bays b { s.bay b with
        xu := { (s.bay b).xu with refused := some w } } }) ∧
    ((s.bay b).run.slot = none ∨ (s.bay b).run.lost = true ∨ (w = .record ∧ (s.bay b).phase = .closing) →
      writeFault (.handBack b w) s = s) := by
  refine ⟨fun hs hl hw => if_pos ?_, fun h => if_neg ?_⟩
  · simpa [canRefuse, hl, Option.isSome_iff_ne_none] using ⟨hs, hw⟩
  · rcases h with h | h | ⟨h, hp⟩
    · simp [canRefuse, h]
    · simp [canRefuse, h]
    · simp [canRefuse, h, hp]

/-- A rack status block write that fails (R19, R22). -/
theorem writeFault_rackStatus (hw : s.xu.rackWrite ≠ .idle) :
    let t := writeFault .rackStatus s
    ErrorRecorded .writeError none s t ∧ t.bays = s.bays ∧ t.bus = s.bus ∧
      t.xu.rackWrite = (if s.xu.rackWrite = .busyMarked then .busy else .idle) ∧
      (s.xu.rackWrite = .busyMarked → areaItem s .rackStatus 0x0010 (rackStatusBytes s) ∈ issued s t) := by
  have hRack : (recordError .writeError none s).xu.rackWrite = s.xu.rackWrite := by
    simp only [recordError, setEvent]
    split <;> rfl
  have hCopy : rackStatusBytes (recordError .writeError none s) = rackStatusBytes s := by
    simp only [rackStatusBytes, recordError_rackTime, recordError_bus]
    simp only [recordError, setEvent]
    split <;> rfl
  have ht : writeFault .rackStatus s = statusWriteEnd none (recordError .writeError none s) := if_neg hw
  dsimp only
  rw [ht, statusWriteEnd_rackEnds (by rwa [hRack]), hRack, hCopy]
  refine ⟨errorRecorded_recordError .writeError none s, recordError_bays .., recordError_bus .., rfl, fun h => ?_⟩
  obtain ⟨l, hl, -⟩ := (recordError_grows .writeError none s).stream
  simp only [h, if_true, hl, List.append_assoc]
  rw [issued_of_append (l := l ++ [areaItem s .rackStatus 0x0010 (rackStatusBytes s)]) (by
    simp only [areaItem, areaAddress_recordError])]
  simp

end

/-- Settles O22, by the write that fails and the bay's state. -/
theorem writeErrorsByAccess : Obligations.WriteErrorsByAccess := by
  intro s b hs
  have he (a : WriteAccess) : exec (.writeError a) s = .next (writeFault a s) := exec_up hs rfl
  have hSlot (hn : (s.bay b).run.slot ≠ none) : writeFault (.slot b true) s = slotWriteFails b s :=
    if_pos (Option.isSome_iff_ne_none.2 hn)
  have hAbort : abortsNow (s.bay b).phase → abortable (s.bay b).phase = true := by
    rintro (h | h | h | h) <;> rw [h] <;> rfl
  simp only [he]
  refine ⟨fun c hc => ?_, fun hc hn hl => ⟨_, rfl, ?_⟩, fun hn hl hp hc => ⟨_, rfl, ?_⟩, fun w => ?_, fun hw => ?_,
    fun hw hc => ?_, fun hw => ?_, fun hw => ⟨_, rfl, writeFault_rackStatus hw⟩⟩
  · have ht : exec c s = .next (whenever (slotWritten b s) (recordError .writeError (some b)) s) := by
      rcases hc with rfl | rfl | ⟨rfl, hn⟩
      · exact he (.slot b false)
      · exact he (.withdrawal b)
      · refine (he (.slot b true)).trans (congrArg _ (if_neg ?_))
        simp [hn]
    rw [ht]
    exact ⟨fun h => ⟨_, rfl, writeFault_unheld.1 h⟩, fun h => congrArg _ (writeFault_unheld.2 h)⟩
  · obtain ⟨hRecorded, hLost, hShown, hLabel, hIssues⟩ := slotWriteFails_lost hc hl
    have hFinished : ∀ i ∈ issued s (slotWriteFails b s), ∀ a d, i ≠ .write (.finished b) a d :=
      fun i hi a d => (hIssues.issued i hi a d).2
    rw [hSlot hn]
    refine ⟨hRecorded, hLost, hShown, hLabel, slotWriteFails_closing hc hl, fun l hp hload => ?_, fun hload hp => ?_⟩
    · obtain ⟨hClosed, hLatched⟩ := slotWriteFails_aborts hc hl (by rw [hp]; rfl)
      rw [firstCause_loading hload] at hClosed
      exact ⟨hClosed, hLatched, hFinished⟩
    · obtain ⟨hClosed, hLatched⟩ := slotWriteFails_aborts hc hl (hAbort hp)
      rw [firstCause_none hload] at hClosed
      exact ⟨hClosed, hLatched, hFinished⟩
  · have hBay : (recordError .writeError (some b) s).bay b = s.bay b := recordError_bay ..
    have hLose : loseRun b (recordError .writeError (some b) s) = recordError .writeError (some b) s :=
      if_pos (by rw [hBay, hl])
    have hDue : NoCheckDue b (recordError .writeError (some b) s) := by
      unfold NoCheckDue
      rwa [hBay]
    have ht : writeFault (.slot b true) s = addLatched b exchangeBit (recordError .writeError (some b) s) := by
      rw [hSlot hn, slotWriteFails, hLose, exchangeFault_closing hDue (by rw [hBay, hp])]
    obtain ⟨w, l, h⟩ := addLatched_eq (b := b) (s := recordError .writeError (some b) s) exchangeBit
    rw [ht, h, hBay, recordError_bays]
    exact ⟨errorRecorded_recordError .writeError (some b) s, recordError_bus .., w, rfl⟩
  · obtain ⟨hMarks, hStays⟩ := writeFault_handBack (b := b) (s := s) w
    exact ⟨fun h1 h2 h3 => congrArg _ (hMarks h1 h2 h3), fun h => congrArg _ (hStays h)⟩
  · exact congrArg _ (if_pos hw)
  · rw [writeFault_bayStatus hw]
    refine ⟨fun hp => ⟨_, rfl, ?_⟩, fun hp => ⟨_, rfl, ?_⟩, fun l hp hl hr => ⟨_, rfl, ?_⟩, fun hl hr hp => ⟨_, rfl, ?_⟩⟩
    · have hRests := statusWriteFails_rests hw hc hp
      rw [hRests]
      refine ⟨statusWriteFails_recorded hw, ?_, ?_, statusWriteFails_issued hw⟩
      · rw [statusWriteFails_eq hw]
        exact recordError_bus ..
      · rw [statusWriteFails_eq hw]
    · obtain ⟨h1, h2, h3, h4⟩ := statusWriteFails_closing hw hc hp
      exact ⟨h1, h2, h3, h4, statusWriteFails_issued_later⟩
    · obtain ⟨h1, h2, h3⟩ := statusWriteFails_aborts hw hc (by rw [hp]; rfl) hr
      rw [firstCause_loading hl] at h2
      exact ⟨h1, h2, h3, statusWriteFails_issued_later⟩
    · obtain ⟨h1, h2, h3⟩ := statusWriteFails_aborts hw hc (hAbort hp) hr
      rw [firstCause_none hl] at h2
      exact ⟨h1, h2, h3, statusWriteFails_issued_later⟩
  · exact congrArg _ (if_pos hw)

end Sys2Proof.Machine

namespace Sys2Proof.Machine

open Sys2Proof

/-! ## Result records handed over at the entry to CLOSING (R46, R61, R62) -/

/-- What is issued after a state is issued after an earlier one. -/
theorem Grows.issued_before {s t u : State} (h : Grows s t) (g : Grows t u) {i : StreamItem} (hi : i ∈ Machine.issued t u) :
    i ∈ Machine.issued s u := by
  obtain ⟨l, hl, -⟩ := h.stream
  obtain ⟨m, hm, -⟩ := g.stream
  rw [issued_of_append hm] at hi
  have hu : u.xu.stream = s.xu.stream ++ (l ++ m) := by rw [hm, hl, List.append_assoc]
  rw [issued_of_append hu]
  exact List.mem_append_right _ hi

section
variable {b : Bay} {s t : State}

theorem Moves.grows (h : Moves none b s t) : Grows s t := h.device.grows (by decide) (by decide)

/-- An operation of a bay leaves the base of the exchange area (R2). -/
theorem Moves.areaAddress (h : Moves none b s t) (o : Nat) :
    Machine.areaAddress t.xu o = Machine.areaAddress s.xu o := by
  obtain ⟨hLo, hHi⟩ := h.device.keeps.base (by decide)
  simp only [Machine.areaAddress, xbase, hLo, hHi]

theorem Moves.areaItem (h : Moves none b s t) (k : WriteKind) (o : Nat) (d : List Byte) :
    Machine.areaItem t k o d = Machine.areaItem s k o d := by
  rw [Machine.areaItem, Machine.areaItem, h.areaAddress]

/-- The record of a result in the slot held (R61). -/
def recordItem (b : Bay) (x : StepResult) (s : State) : StreamItem :=
  areaItem s (.result b x.index) (heldOffset b (s.bay b).run + 0x2800 + 64 * x.index) (resultBytes x)

/-- One result handed over leaves the run as it is (R61). -/
theorem handOver_head (x : StepResult) : ((triggerBay b (writeResult b x s)).bay b).run = (s.bay b).run := by
  rw [triggerBay_self]
  unfold writeResult
  dsimp only
  split <;> simp

theorem writeResult_issued (x : StepResult) (hl : (s.bay b).run.lost = false) :
    recordItem b x s ∈ issued s (writeResult b x s) := by
  have he : writeResult b x s = emit (recordItem b x s) s := if_neg (by simp [hl])
  rw [he, issued_of_append (l := [recordItem b x s]) rfl]
  exact List.mem_singleton_self _

/-- Every result of a run that is not lost gets its record (R46, R61, R62). -/
theorem handOver_issued (results : List StepResult) (hl : (s.bay b).run.lost = false) :
    ∀ x ∈ results, recordItem b x s ∈ issued s (handOver b results s) := by
  induction results generalizing s with
  | nil => exact fun _ h => absurd h List.not_mem_nil
  | cons y rest ih =>
    intro x hx
    have hFirst : Moves none b s (writeResult b y s) := writeResult_moves y
    have hHead : Moves none b s (triggerBay b (writeResult b y s)) := hFirst.trans triggerBay_moves
    have hRun := handOver_head (b := b) (s := s) y
    have hRest : Moves none b (triggerBay b (writeResult b y s)) (handOver b (y :: rest) s) := handOver_moves rest
    rcases List.mem_cons.1 hx with rfl | hx
    · exact hFirst.grows.issued (Moves.grows (Relation.ReflTransGen.trans triggerBay_moves hRest))
        (writeResult_issued x hl)
    · have hLater := ih (s := triggerBay b (writeResult b y s)) (by rw [hRun, hl]) x hx
      have hItem : recordItem b x (triggerBay b (writeResult b y s)) = recordItem b x s := by
        rw [recordItem, hRun, hHead.areaItem]
        rfl
      rw [hItem] at hLater
      exact hHead.grows.issued_before hRest.grows hLater

theorem heldOffset_slot {r : RunEngine} {k : Slot} (h : r.slot = some k) : heldOffset b r = slotOffset b k := by
  simp only [heldOffset, h]

theorem closingEntered_moves : Moves none b s (closingEntered b s) :=
  (switchOff_moves _).trans (enterSafe_moves.trans ((removeEntries_moves _).trans (setPhase_moves _)))

end

section
variable {b : Bay} {verdict : Verdict} {cause : EndCause} {offending : Nat} {ended : List StepResult} {s : State}

theorem atRest_grows : Grows s (atRest b verdict cause offending ended s) :=
  Grows.trans (t := bayAtClosing b verdict cause offending ended s) (.of_eq rfl rfl rfl) closingEntered_moves.grows

theorem atRest_areaItem (k : WriteKind) (o : Nat) (d : List Byte) :
    areaItem (atRest b verdict cause offending ended s) k o d = areaItem s k o d :=
  closingEntered_moves.areaItem k o d

/-- The records of the results at the entry to CLOSING of a run that is not lost (R46, R61, R62). -/
theorem enterClosing_records {k : Slot} (hk : (s.bay b).run.slot = some k) (hl : (s.bay b).run.lost = false)
    {x : StepResult} (hx : x ∈ closingResults ended (s.bay b).run) :
    areaItem s (.result b x.index) (slotOffset b k + 0x2800 + 64 * x.index) (resultBytes x) ∈
      issued s (enterClosing b verdict cause offending ended s) := by
  have hRun := atRest_run (b := b) (verdict := verdict) (cause := cause) (offending := offending) (ended := ended)
    (s := s)
  have hRecord := handOver_issued (b := b) (s := atRest b verdict cause offending ended s)
    (closingResults ended (s.bay b).run) (by rw [hRun]; exact hl) x hx
  have hItem : recordItem b x (atRest b verdict cause offending ended s) =
      areaItem s (.result b x.index) (slotOffset b k + 0x2800 + 64 * x.index) (resultBytes x) := by
    have hSlot : ((atRest b verdict cause offending ended s).bay b).run.slot = some k := by
      rw [hRun]
      exact hk
    rw [recordItem, atRest_areaItem, heldOffset_slot hSlot]
  rw [hItem] at hRecord
  rw [enterClosing_eq]
  have hMoves : Moves none b (handOver b (closingResults ended (s.bay b).run)
      (atRest b verdict cause offending ended s)) (closingBus b (recordsRefused b (closingResults ended (s.bay b).run)
        (handOver b (closingResults ended (s.bay b).run) (atRest b verdict cause offending ended s)))) :=
    (recordsRefused_moves _).trans closingBus_moves
  refine atRest_grows.issued_before (.trans (Moves.grows (handOver_moves _)) hMoves.grows) ?_
  exact (Moves.grows (handOver_moves _)).issued hMoves.grows hRecord

end

/-! ## ABORT_RUN (R13, R14, R44) -/

theorem mem_insertByIndex {e f : InFlight} {l : List InFlight} : e ∈ insertByIndex f l ↔ e = f ∨ e ∈ l := by
  induction l with
  | nil => simp [insertByIndex]
  | cons x rest ih =>
    unfold insertByIndex
    split
    · simp
    · simp only [List.mem_cons, ih]
      tauto

theorem mem_byIndex {e : InFlight} {l : List InFlight} : e ∈ byIndex l ↔ e ∈ l := by
  induction l with
  | nil => rfl
  | cons x rest ih => rw [byIndex, mem_insertByIndex, ih, List.mem_cons]

/-- Every step in flight has its end among those of the entry to CLOSING (R56, R57). -/
theorem mem_endAll {e : InFlight} {r : RunEngine} (h : e ∈ r.inFlight) (o : StepOutcome) (d : Detail) (now : RackTime) :
    resultOf e o d now ∈ closingResults (endAll r o d now) r :=
  List.mem_append_left _ (List.mem_map_of_mem (mem_byIndex.2 h))

section
variable {b : Bay} {seq : Word16} {s : State}

theorem actSeq_bay : (actSeq b seq s).bay b = { s.bay b with xu := { (s.bay b).xu with lastSeq := seq } } :=
  bay_modBayXu ..

theorem noCheckDue_actSeq (hc : NoCheckDue b s) : NoCheckDue b (actSeq b seq s) := by
  unfold NoCheckDue
  rwa [actSeq_bay]

theorem abortRequest_ignored (hc : NoCheckDue b s) (hp : abortable (s.bay b).phase = false) :
    abortRequest b seq s = echoBay b seq .ignored (actSeq b seq s) := by
  unfold abortRequest
  simp only [settleChecks_idle (noCheckDue_actSeq hc)]
  rw [if_pos (by simp [actSeq_bay, hp])]

theorem abortRequest_loading {l : Loading} (hc : NoCheckDue b s) (hp : (s.bay b).phase = .loading)
    (hl : (s.bay b).run.load = some l) : abortRequest b seq s = (actSeq b seq s).modRun b fun r =>
      { r with load := some { l with abort := some (l.abort.getD .request), echo := some seq } } := by
  have hLoading : loadingOf ((actSeq b seq s).bay b) = some l := by
    rw [actSeq_bay]
    exact (if_pos hp).trans hl
  unfold abortRequest
  simp only [settleChecks_idle (noCheckDue_actSeq hc)]
  rw [if_neg (by simp [actSeq_bay, hp, abortable])]
  simp only [hLoading]

/-- ABORT_RUN of a run that has left LOADING (R44). -/
theorem abortRequest_now (hc : NoCheckDue b s) (hl : (s.bay b).run.load = none) (hp : abortsNow (s.bay b).phase) :
    abortRequest b seq s = echoBay b seq .done (enterClosing b .aborted (.abort .request) 0
      (endAll (s.bay b).run .aborted (.abort .request) s.rackTime) (actSeq b seq s)) := by
  have hPhase : abortsNow ((actSeq b seq s).bay b).phase := by rwa [actSeq_bay]
  have hLoad : ((actSeq b seq s).bay b).run.load = none := by rwa [actSeq_bay]
  have hLoading : loadingOf ((actSeq b seq s).bay b) = none := by
    unfold loadingOf
    rw [hLoad, ite_self]
  have hHeld : abortable ((actSeq b seq s).bay b).phase = true := by
    rcases hPhase with h | h | h | h <;> rw [h] <;> rfl
  unfold abortRequest
  simp only [settleChecks_idle (noCheckDue_actSeq hc)]
  rw [if_neg (by simp [hHeld])]
  simp only [hLoading]
  rw [abortRun_now (noCheckDue_actSeq hc) hLoad hPhase, abortNow_now _ hLoad, actSeq_bay]
  rfl

/-- Every copy of the status block issued from the request on shows no step in flight and no unfinished step (R46). -/
theorem abortRequest_shown (ended : List StepResult) : Issues (ShowsDone b) s
    (echoBay b seq .done (enterClosing b .aborted (.abort .request) 0 ended (actSeq b seq s))) := by
  let t := enterClosing b .aborted (.abort .request) 0 ended (actSeq b seq s)
  have hClosing : Issues (ShowsDone b) s t := Issues.trans (t := actSeq b seq s) (.of_eq rfl) enterClosing_shown
  have hEcho : Issues (ShowsDone b) t (echoBay b seq .done t) := by
    obtain ⟨-, -, -, -, -, -, hInFlight, -⟩ := enterClosing_closed (b := b) (verdict := .aborted)
      (cause := .abort .request) (offending := 0) (ended := ended) (s := actSeq b seq s)
    have hUnfinished : oldestUnfinished (t.bay b).run = 0xFF := enterClosing_goesOn.bay.unfinished atRest_unfinished
    refine .trans (t := t.modStatus b fun u => { u with echoSeq := seq, echo := .done }) (.of_eq rfl)
      (triggerBay_shown ?_ ?_)
    · rw [bay_modStatus]
      exact hInFlight
    · rw [bay_modStatus]
      exact hUnfinished
  exact hClosing.trans hEcho

/-- Every step in flight ends ABORTED by the request, with its record (R57, R61). -/
theorem abortRequest_ended {e : InFlight} (h : e ∈ (s.bay b).run.inFlight) :
    Ended b (resultOf e .aborted (.abort .request) s.rackTime) s
      (echoBay b seq .done (enterClosing b .aborted (.abort .request) 0
        (endAll (s.bay b).run .aborted (.abort .request) s.rackTime) (actSeq b seq s))) := by
  let ended := endAll (s.bay b).run .aborted (.abort .request) s.rackTime
  let t := enterClosing b .aborted (.abort .request) 0 ended (actSeq b seq s)
  have hRun : ((actSeq b seq s).bay b).run = (s.bay b).run := by rw [actSeq_bay]
  have hMem : resultOf e .aborted (.abort .request) s.rackTime ∈ closingResults ended ((actSeq b seq s).bay b).run := by
    rw [hRun]
    exact mem_endAll h ..
  have hClosed : Closed b .aborted (.abort .request) 0 t := enterClosing_closed
  obtain ⟨-, -, -, -, -, -, hInFlight, -⟩ := hClosed
  refine ⟨?_, ?_, fun k hk hl => ?_⟩
  · rw [echoBay_self, enterClosing_results]
    exact List.mem_append_right _ hMem
  · rw [echoBay_self]
    exact hInFlight ▸ fun _ hf => absurd hf List.not_mem_nil
  · have hRecord := enterClosing_records (b := b) (verdict := .aborted) (cause := .abort .request) (offending := 0)
      (ended := ended) (s := actSeq b seq s) (k := k) (by rw [hRun, hk]) (by rw [hRun, hl]) hMem
    have hGrows : Grows (actSeq b seq s) t := Moves.grows (enterClosing_moves ..)
    exact hGrows.issued (Moves.grows (echoBay_moves (b := b) seq .done)) hRecord

end

/-- Settles O16, by the bay's state. -/
theorem abortRequestEndsTheRun : Obligations.AbortRequestEndsTheRun := by
  intro s b seq hs h0 h1 he hc
  obtain ⟨hAbort, -, -, -⟩ := exec_bayRequests_new hs h0 h1 he 0
  refine ⟨fun hp => ⟨_, hAbort, ?_⟩, fun l hp hl => ?_, fun hl hp => ⟨_, hAbort, ?_⟩⟩
  · have hNot : abortable (s.bay b).phase = false := by rcases hp with hp | hp | hp <;> rw [hp] <;> rfl
    rw [abortRequest_ignored hc hNot]
    exact answered_echoBay ..
  · rw [hAbort, abortRequest_loading hc hp hl]
    simp only [actSeq, State.modBayXu, State.modRun, modBay_modBay]
    rfl
  · rw [abortRequest_now hc hl hp]
    refine ⟨enterClosing_closed.echoBay seq .done, ?_, ?_, fun a d hi _ => ?_, fun e h => abortRequest_ended h⟩
    · rw [echoBay_self]
    · rw [echoBay_self]
    · exact (abortRequest_shown _).issued _ hi a d rfl

end Sys2Proof.Machine

namespace Sys2Proof.Machine

open Sys2Proof

/-! ## The order of the reads of LOADING (R35) -/

theorem readAfter_self (x : LoadRead) (m : List LoadRead) : readAfter x (x :: m) = m.head? := if_pos rfl

theorem readAfter_ne {x y : LoadRead} (h : y ≠ x) (m : List LoadRead) : readAfter x (y :: m) = readAfter x m := if_neg h

/-- The setup part's read, if the run carries it. -/
def partRead (c : Bool) (x : LoadRead) : List LoadRead := if c then [x] else []

/-- Another part's read, carried or not, does not count. -/
theorem readAfter_part {x y : LoadRead} (h : y ≠ x) (c : Bool) (m : List LoadRead) :
    readAfter x (partRead c y ++ m) = readAfter x m := by
  cases c
  · rfl
  · exact readAfter_ne h m

theorem head_part (c : Bool) (x : LoadRead) {m : List LoadRead} {z : LoadRead} (hm : m.head? = some z) :
    (partRead c x ++ m).head? = some (if c then x else z) := by
  cases c
  · exact hm
  · rfl

/-- The reads of some of the records, from one on, and then the text area's. -/
def recordReads (first n : Nat) : List LoadRead := (List.range' first n).map .record ++ [.text]

theorem recordReads_head (first : Nat) {n : Nat} :
    (recordReads first n).head? = some (if 0 < n then .record first else .text) := by
  cases n with
  | zero => rfl
  | succ n => simp [recordReads, List.range'_succ]

theorem recordReads_succ (first n : Nat) : recordReads first (n + 1) = .record first :: recordReads (first + 1) n := by
  simp [recordReads, List.range'_succ]

/-- After a record comes the next one, and after the last the text area. -/
theorem readAfter_record {first n i : Nat} (h1 : first ≤ i) (h2 : i < first + n) :
    readAfter (.record i) (recordReads first n) = some (if i + 1 < first + n then .record (i + 1) else .text) := by
  induction n generalizing first with
  | zero => omega
  | succ n ih =>
    rw [recordReads_succ]
    by_cases h : first = i
    · subst h
      rw [readAfter_self, recordReads_head]
      simp only [show first + 1 < first + (n + 1) ↔ 0 < n by omega]
    · rw [readAfter_ne (by simpa using h), ih (by omega) (by omega)]
      simp only [show i + 1 < first + 1 + n ↔ i + 1 < first + (n + 1) by omega]

/-- The reads from the schedule on, and so on part by part. -/
def supervisionOn (h : Header) : List LoadRead := partRead h.hasSupervision .supervision ++ recordReads 0 h.stepCount
def tapsOn (h : Header) : List LoadRead := partRead h.hasTaps .taps ++ supervisionOn h
def scheduleOn (h : Header) : List LoadRead := partRead h.hasSchedule .schedule ++ tapsOn h

theorem loadReads_eq (h : Header) : loadReads h = partRead h.hasStimulus .stimulus ++ scheduleOn h := by
  simp only [loadReads, scheduleOn, tapsOn, supervisionOn, recordReads, partRead, List.append_assoc,
    List.range_eq_range']

section
variable {h : Header} (hn : 1 ≤ h.stepCount)
include hn

theorem recordReads_first : (recordReads 0 h.stepCount).head? = some (.record 0) := by
  rw [recordReads_head, if_pos (show 0 < h.stepCount from hn)]

theorem supervisionOn_head : (supervisionOn h).head? = some (if h.hasSupervision then .supervision else .record 0) :=
  head_part _ _ (recordReads_first hn)

theorem tapsOn_head : (tapsOn h).head? = some (if h.hasTaps then .taps
    else if h.hasSupervision then .supervision else .record 0) := head_part _ _ (supervisionOn_head hn)

theorem scheduleOn_head : (scheduleOn h).head? = some (if h.hasSchedule then .schedule else if h.hasTaps then .taps
    else if h.hasSupervision then .supervision else .record 0) := head_part _ _ (tapsOn_head hn)

theorem nextRead_header : nextRead h .header = some (if h.hasStimulus then .stimulus else if h.hasSchedule then .schedule
    else if h.hasTaps then .taps else if h.hasSupervision then .supervision else .record 0) := by
  rw [nextRead, readAfter_self, loadReads_eq]
  exact head_part _ _ (scheduleOn_head hn)

theorem nextRead_stimulus (hp : h.hasStimulus = true) : nextRead h .stimulus = some (if h.hasSchedule then .schedule
    else if h.hasTaps then .taps else if h.hasSupervision then .supervision else .record 0) := by
  rw [nextRead, readAfter_ne (by decide), loadReads_eq, hp]
  exact (readAfter_self ..).trans (scheduleOn_head hn)

theorem nextRead_schedule (hp : h.hasSchedule = true) : nextRead h .schedule = some (if h.hasTaps then .taps
    else if h.hasSupervision then .supervision else .record 0) := by
  rw [nextRead, readAfter_ne (by decide), loadReads_eq, readAfter_part (by decide), scheduleOn, hp]
  exact (readAfter_self ..).trans (tapsOn_head hn)

theorem nextRead_taps (hp : h.hasTaps = true) :
    nextRead h .taps = some (if h.hasSupervision then .supervision else .record 0) := by
  rw [nextRead, readAfter_ne (by decide), loadReads_eq, readAfter_part (by decide), scheduleOn,
    readAfter_part (by decide), tapsOn, hp]
  exact (readAfter_self ..).trans (supervisionOn_head hn)

theorem nextRead_supervision (hp : h.hasSupervision = true) : nextRead h .supervision = some (.record 0) := by
  rw [nextRead, readAfter_ne (by decide), loadReads_eq, readAfter_part (by decide), scheduleOn,
    readAfter_part (by decide), tapsOn, readAfter_part (by decide), supervisionOn, hp]
  exact (readAfter_self ..).trans (recordReads_first hn)

end

theorem nextRead_record {h : Header} {i : Nat} (hi : i < h.stepCount) :
    nextRead h (.record i) = some (if i + 1 < h.stepCount then .record (i + 1) else .text) := by
  rw [nextRead, readAfter_ne (by simp), loadReads_eq, readAfter_part (by simp), scheduleOn, readAfter_part (by simp),
    tapsOn, readAfter_part (by simp), supervisionOn, readAfter_part (by simp),
    readAfter_record (Nat.zero_le i) (by omega), Nat.zero_add]

/-! ## A read of LOADING completes -/

section
variable {b : Bay} {s : State} {l : Loading} {d : List Byte}

/-- What the read has brought is kept, with the label when it is the header (R29, R39). -/
def readKept (b : Bay) (x : LoadRead) (d : List Byte) (s : State) : State :=
  takeLabel b x d (s.modRun b fun r => { r with copy := storeRead x d r.copy })

theorem readKept_header : readKept b .header d s = s.modBay b fun y => { y with
    status := { y.status with label := (parseHeader d).label }
    run := { y.run with copy := { y.run.copy with header := some (parseHeader d) } } } := by
  simp only [readKept, takeLabel, if_true, storeRead, State.modRun, State.modStatus, modBay_modBay]

theorem readKept_other {x : LoadRead} (hx : x ≠ .header) :
    readKept b x d s = s.modBay b fun y => { y with run := { y.run with copy := storeRead x d y.run.copy } } :=
  if_neg hx

theorem readDone_abort {cause : AbortCause} (ha : l.abort = some cause) :
    readDone b l d s = abortNow b cause (readKept b l.read d s) := by
  simp only [readDone, ha]
  rfl

theorem readDone_goes (ha : l.abort = none) : readDone b l d s = afterRead b l.read (readKept b l.read d s) := by
  simp only [readDone, ha]
  rfl

/-- The next read of LOADING as it is issued (R2, R20, R35). -/
theorem afterRead_next {h : Header} {x next : LoadRead} {k : Slot} (hh : (s.bay b).run.copy.header = some h)
    (hv : stepCountValid h = true) (hn : nextRead h x = some next) (hk : (s.bay b).run.slot = some k) :
    afterRead b x s = s.modRun b fun r => { r with load := some (loadingRead s (slotOffset b k) next) } := by
  have hIssue : readAt (heldOffset b (s.bay b).run + loadOffset next) s = (loadingRead s (slotOffset b k) next).issue := by
    rw [heldOffset_slot hk]
    cases next <;> rfl
  have ht : afterRead b x s = issueRead b next s := by
    simp only [afterRead, hh, hv, hn, Bool.not_true, Bool.false_eq_true, if_false]
  rw [ht, issueRead, State.modRun, State.modBay, hIssue]
  rfl

theorem afterRead_refused {h : Header} {x : LoadRead} (hh : (s.bay b).run.copy.header = some h)
    (hv : stepCountValid h = false) : afterRead b x s = refuseSetup b s := by
  simp only [afterRead, hh, hv, Bool.not_false, if_true]

/-- The bay after a read of a setup part or a record that leads to another read (R29, R35). -/
theorem readDone_next {h : Header} {next : LoadRead} {k : Slot} (ha : l.abort = none) (hx : l.read ≠ .header)
    (hh : (s.bay b).run.copy.header = some h) (h1 : 1 ≤ h.stepCount) (h2 : h.stepCount ≤ 96)
    (hn : nextRead h l.read = some next) (hk : (s.bay b).run.slot = some k) :
    readDone b l d s = { s with bays := baySet s.bays b { s.bay b with
      run := { (s.bay b).run with
        copy := storeRead l.read d (s.bay b).run.copy
        load := some (loadingRead s (slotOffset b k) next) } } } := by
  have hStored : (storeRead l.read d (s.bay b).run.copy).header = some h := by
    cases hr : l.read with
    | header => exact absurd hr hx
    | _ => exact hh
  rw [readDone_goes ha, readKept_other hx, afterRead_next (h := h) (k := k) _ (by simp [stepCountValid, h1, h2]) hn]
  · simp only [State.modRun, modBay_modBay]
    rfl
  · rw [bay_modBay]
    exact hk
  · rw [bay_modBay]
    exact hStored

/-- The bay after the header of a run with a valid step count (R35, R39). -/
theorem readDone_header {k : Slot} (ha : l.abort = none) (hx : l.read = .header) (h1 : 1 ≤ u16At d 0x0C)
    (h2 : u16At d 0x0C ≤ 96) (hk : (s.bay b).run.slot = some k) :
    readDone b l d s = { s with bays := baySet s.bays b { s.bay b with
      status := { (s.bay b).status with label := BitVec.ofNat 32 (u32At d 0x04) }
      run := { (s.bay b).run with
        copy := { (s.bay b).run.copy with header := some (parseHeader d) }
        load := some (loadingRead s (slotOffset b k)
          (if (u16At d 0x0E).testBit 0 then .stimulus else if (u16At d 0x0E).testBit 1 then .schedule
            else if (u16At d 0x0E).testBit 2 then .taps else if (u16At d 0x0E).testBit 3 then .supervision
            else .record 0)) } } } := by
  have hn := nextRead_header (h := parseHeader d) h1
  rw [readDone_goes ha, hx, readKept_header, afterRead_next (h := parseHeader d) (k := k) _ (by
    simp [stepCountValid, parseHeader, h1, h2]) hn]
  · simp only [State.modRun, modBay_modBay]
    rfl
  · rw [bay_modBay]
    exact hk
  · rw [bay_modBay]

/-- A run with no step to count has no skipped results at its refusal (R37). -/
theorem closingResults_none {r : RunEngine} {h : Header} (hh : r.copy.header = some h) (hv : stepCountValid h = false) :
    closingResults [] r = [] := by
  have hCount : stepCount r = 0 := by simp [stepCount, hh, hv]
  simp [closingResults, hCount]

/-- A step count outside 1 to 96 refuses the run (R35, R37). -/
theorem readDone_refused (ha : l.abort = none) (hx : l.read = .header) (h : u16At d 0x0C = 0 ∨ 96 < u16At d 0x0C) :
    Closed b .refused .invalidRun 0xFF (readDone b l d s) ∧
      ((readDone b l d s).bay b).status.label = BitVec.ofNat 32 (u32At d 0x04) ∧
      ((readDone b l d s).bay b).run.results = (s.bay b).run.results := by
  have hKept := congrArg (fun u : State => u.bay b) (readKept_header (b := b) (s := s) (d := d))
  simp only [bay_modBay] at hKept
  have hHeader : ((readKept b .header d s).bay b).run.copy.header = some (parseHeader d) := by rw [hKept]
  have hCount : stepCountValid (parseHeader d) = false := by
    have : ¬(1 ≤ u16At d 0x0C ∧ u16At d 0x0C ≤ 96) := by omega
    simpa [stepCountValid, parseHeader] using this
  rw [readDone_goes ha, hx, afterRead_refused hHeader hCount, refuseSetup]
  refine ⟨enterClosing_closed, ?_, ?_⟩
  · rw [enterClosing_label, hKept]
    rfl
  · rw [enterClosing_results, closingResults_none hHeader hCount, hKept, List.append_nil]

/-- What a read keeps leaves the read outstanding and its abort. -/
theorem readKept_load (x : LoadRead) : ((readKept b x d s).bay b).run.load = (s.bay b).run.load := by
  by_cases hx : x = .header
  · rw [hx, readKept_header, bay_modBay]
  · rw [readKept_other hx, bay_modBay]

/-- An abort that has waited for the read is taken with its cause and its echo (R14, R35). -/
theorem readDone_aborted {cause : AbortCause} (hl : (s.bay b).run.load = some l) (ha : l.abort = some cause) :
    Closed b .aborted (.abort cause) 0 (readDone b l d s) ∧ ∀ seq, l.echo = some seq →
      ((readDone b l d s).bay b).status.echo = .done ∧ ((readDone b l d s).bay b).status.echoSeq = seq := by
  have hLoad : ((readKept b l.read d s).bay b).run.load = some l := (readKept_load _).trans hl
  have hClosed := abortNow_closed (b := b) (s := readKept b l.read d s) cause
  rw [firstCause_loading hLoad, ha] at hClosed
  rw [readDone_abort ha]
  refine ⟨hClosed, fun seq he => abortNow_echo cause ?_⟩
  rw [hLoad]
  exact he

end

/-- Settles O23, read by read. -/
theorem loadingReadsInOrder : Obligations.LoadingReadsInOrder := by
  constructor
  · intro s b d hs h
    have hn : loadingOf (s.bay b) = none := by
      rcases h with h | h
      · exact if_neg h
      · rw [loadingOf, h, ite_self]
    refine (exec_up hs rfl).trans (congrArg _ ?_)
    simp only [hn]
  · intro s b d hs hp l hl k hk
    have hLoading : loadingOf (s.bay b) = some l := (if_pos hp).trans hl
    have he : exec (.loadingReadComplete b d) s = .next (readDone b l d s) := by
      refine (exec_up hs rfl).trans (congrArg _ ?_)
      simp only [hLoading]
    simp only [he, Host.Outcome.next.injEq]
    refine ⟨fun hx ha h1 h2 => readDone_header ha hx h1 h2 hk, fun hx ha h => ⟨_, rfl, readDone_refused ha hx h⟩,
      fun cause ha => ⟨_, rfl, readDone_aborted hl ha⟩, fun h hh h1 h2 ha => ⟨fun hx hp => ?_, fun hx hp => ?_,
        fun hx hp => ?_, fun hx hp => ?_, fun i hx hi => ?_⟩⟩
    · have ht := readDone_next (d := d) ha (by simp [hx]) hh h1 h2 (hx ▸ nextRead_stimulus h1 hp) hk
      rwa [hx] at ht
    · have ht := readDone_next (d := d) ha (by simp [hx]) hh h1 h2 (hx ▸ nextRead_schedule h1 hp) hk
      rwa [hx] at ht
    · have ht := readDone_next (d := d) ha (by simp [hx]) hh h1 h2 (hx ▸ nextRead_taps h1 hp) hk
      rwa [hx] at ht
    · have ht := readDone_next (d := d) ha (by simp [hx]) hh h1 h2 (hx ▸ nextRead_supervision h1 hp) hk
      rwa [hx] at ht
    · have ht := readDone_next (d := d) ha (by simp [hx]) hh h1 h2 (hx ▸ nextRead_record hi) hk
      rwa [hx] at ht

end Sys2Proof.Machine

namespace Sys2Proof.Machine

open Sys2Proof

/-! ## The bus at the entry to CLOSING (R46, R166, R168) -/

/-- The admissions add held requests to the queue's tail (R166). -/
theorem admitLoop_appends (fuel : Nat) (q h : List BusEntry) :
    ∃ l, (admitLoop fuel q h).1 = q ++ l ∧ (∀ e ∈ l, e ∈ h) ∧ ∀ e ∈ (admitLoop fuel q h).2, e ∈ h := by
  induction fuel generalizing q h with
  | zero => exact ⟨[], (List.append_nil q).symm, fun _ he => absurd he List.not_mem_nil, fun _ => id⟩
  | succ n ih =>
    unfold admitLoop
    split
    · exact ⟨[], (List.append_nil q).symm, fun _ he => absurd he List.not_mem_nil, fun _ => id⟩
    · split
      · exact ⟨[], (List.append_nil q).symm, fun _ he => absurd he List.not_mem_nil, fun _ => id⟩
      · next e he =>
        obtain ⟨l, hl, hq, hr⟩ := ih (q ++ [e]) (h.erase e)
        refine ⟨e :: l, by rw [hl, List.append_assoc]; rfl, fun g hg => ?_, fun g hg => List.mem_of_mem_erase (hr g hg)⟩
        rcases List.mem_cons.1 hg with rfl | hg
        · exact List.mem_of_find?_eq_some he
        · exact List.mem_of_mem_erase (hq g hg)

/-- The entry on the bus, if there is one (R167). -/
def onBusPart (u : Bus) : List BusEntry := if u.onBus then u.queue.take 1 else []

/-- The entries that are not on the bus. -/
def loosePart (u : Bus) : List BusEntry := if u.onBus then u.queue.drop 1 else u.queue

theorem queue_parts (u : Bus) : u.queue = onBusPart u ++ loosePart u := by
  unfold onBusPart loosePart
  split
  · exact (List.take_append_drop 1 u.queue).symm
  · rfl

/-- A bay's entries and held requests gone, but for its transaction on the bus (R168). -/
structure Cleared (b : Bay) (u v : Bus) : Prop where
  state : v.state = u.state
  onBus : v.onBus = u.onBus
  queue : ∃ l, v.queue = onBusPart u ++ l ∧ ∀ g ∈ l, g.bay ≠ b
  held : ∀ g ∈ v.held, g.bay ≠ b

section
variable {b : Bay} {s : State}

theorem removeEntries_cleared (h : s.bus.state ≠ .failed) :
    Cleared b s.bus (removeEntries b (fun _ => true) s).bus := by
  by_cases hGoes : (loosePart s.bus).any (fun e => e.bay = b && true) || s.bus.held.any (fun e => e.bay = b && true)
  · have hEq : removeEntries b (fun _ => true) s = triggerBay b (serveHeld (s.modBus fun u =>
        { u with
          queue := onBusPart s.bus ++ (loosePart s.bus).filter (fun e => !(e.bay = b && true))
          held := u.held.filter (fun e => !(e.bay = b && true)) })) :=
      if_pos (by rw [decide_eq_true h, Bool.true_and]; exact hGoes)
    obtain ⟨l, hl, hQueue, hHeld⟩ := admitLoop_appends (s.bus.held.filter (fun e => !(e.bay = b && true))).length
      (onBusPart s.bus ++ (loosePart s.bus).filter (fun e => !(e.bay = b && true)))
      (s.bus.held.filter (fun e => !(e.bay = b && true)))
    have hOther {es : List BusEntry} {g : BusEntry} (hg : g ∈ es.filter (fun e => !(e.bay = b && true))) : g.bay ≠ b := by
      simpa using (List.mem_filter.1 hg).2
    rw [hEq, triggerBay_bus]
    refine ⟨rfl, rfl, ⟨(loosePart s.bus).filter (fun e => !(e.bay = b && true)) ++ l, ?_, fun g hg => ?_⟩,
      fun g hg => hOther (hHeld g hg)⟩
    · exact hl.trans (List.append_assoc ..)
    · exact (List.mem_append.1 hg).elim hOther fun hg => hOther (hQueue g hg)
  · have hEq : removeEntries b (fun _ => true) s = s := if_neg (by rw [decide_eq_true h, Bool.true_and]; exact hGoes)
    simp only [Bool.and_true, Bool.or_eq_true, List.any_eq_true, decide_eq_true_eq, not_or, not_exists, not_and] at hGoes
    rw [hEq]
    exact ⟨rfl, rfl, ⟨loosePart s.bus, queue_parts s.bus, hGoes.1⟩, hGoes.2⟩

theorem changeNet_bus (f : Network → Network) : (changeNet b f s).bus = s.bus := by
  unfold changeNet
  dsimp only
  split
  · rfl
  · rw [triggerBay_bus]
    rfl

theorem enterSafe_bus : (enterSafe b s).bus = s.bus := changeNet_bus netStopped

theorem switchOff_bus (keep : Bool) : (switchOff b keep s).bus = s.bus := by
  unfold switchOff
  split
  · exact enterSafe_bus
  · rfl

theorem closingEntered_cleared (h : s.bus.state ≠ .failed) : Cleared b s.bus (closingEntered b s).bus := by
  have hBus : (enterSafe b (switchOff b false s)).bus = s.bus := enterSafe_bus.trans (switchOff_bus false)
  have hCleared := removeEntries_cleared (b := b) (s := enterSafe b (switchOff b false s)) (by rw [hBus]; exact h)
  rw [hBus] at hCleared
  rw [closingEntered, setPhase_bus]
  exact hCleared

theorem writeResult_bus (x : StepResult) : (writeResult b x s).bus = s.bus := by
  unfold writeResult
  dsimp only
  split
  · rfl
  · exact writeArea_bus ..

theorem handOver_bus (results : List StepResult) : (handOver b results s).bus = s.bus :=
  forAll_keeps (P := fun u => u.bus = s.bus) results (fun x t => triggerBay b (writeResult b x t)) s rfl
    fun x _ u hu => by rw [triggerBay_bus, writeResult_bus, hu]

theorem loseRun_bus : (loseRun b s).bus = s.bus := by
  unfold loseRun
  split
  · rfl
  · rw [triggerBay_bus]
    rfl

theorem handBackFails_bus : (handBackFails b s).bus = s.bus := by
  rw [handBackFails, addLatched_bus, loseRun_bus, recordError_bus]

theorem recordsRefused_bus (results : List StepResult) : (recordsRefused b results s).bus = s.bus := by
  unfold recordsRefused
  split
  · exact handBackFails_bus
  · rfl

end

/-! ## The entry to CLOSING of an abort that waits or goes on (R46, R63) -/

section
variable {b : Bay} {verdict : Verdict} {cause : EndCause} {offending : Nat} {ended : List StepResult} {s : State}

/-- The bay in CLOSING with its results handed over. -/
abbrev recordsGiven (b : Bay) (verdict : Verdict) (cause : EndCause) (offending : Nat) (ended : List StepResult)
    (s : State) : State :=
  recordsRefused b (closingResults ended (s.bay b).run) (handOver b (closingResults ended (s.bay b).run)
    (atRest b verdict cause offending ended s))

theorem recordsGiven_stays :
    StaysOn b (atRest b verdict cause offending ended s) (recordsGiven b verdict cause offending ended s) :=
  (handOver_stays _).trans (recordsRefused_stays _)

theorem recordsGiven_cleared (h : s.bus.state ≠ .failed) :
    Cleared b s.bus (recordsGiven b verdict cause offending ended s).bus := by
  rw [recordsRefused_bus, handOver_bus]
  exact closingEntered_cleared (s := bayAtClosing b verdict cause offending ended s) h

theorem recordsGiven_phase : ((recordsGiven b verdict cause offending ended s).bay b).phase = .closing :=
  recordsGiven_stays.phase.trans closingEntered_safe.1

theorem recordsGiven_ran : ((recordsGiven b verdict cause offending ended s).bay b).run.ran = (s.bay b).run.ran := by
  rw [settled_item (fun y => y.run.ran) (fun _ => rfl) recordsGiven_stays.goesOn.bay, atRest_run]
  rfl

theorem recordsGiven_ident : ((recordsGiven b verdict cause offending ended s).bay b).run.ident = (s.bay b).run.ident := by
  rw [settled_item (fun y => y.run.ident) (fun _ => rfl) recordsGiven_stays.goesOn.bay, atRest_run]
  rfl

end

section
variable {b : Bay} {s : State}

/-- A transaction of the bay on the bus is waited for (R46). -/
theorem closingBus_waits (h : s.bus.state ≠ .failed) (hb : bayOnBus s.bus b = true) :
    closingBus b s = s.modRun b fun r => { r with closing := .bus } := if_pos (by rw [busHolds_of_ne_failed h, hb])

/-- Without one, a run that has reached RUNNING has its cycle count written (R46, R63). -/
theorem closingBus_cycle {x : Ident} (h : s.bus.state ≠ .failed) (hb : bayOnBus s.bus b = false)
    (hr : (s.bay b).run.ran = true) (hx : (s.bay b).run.ident = some x) :
    ((closingBus b s).bay b).phase = (s.bay b).phase ∧ ((closingBus b s).bay b).run.closing = .cycle ∧
      ⟨b, .cycleCount, 0, .write (wordBytes (x.cycles + 1)), 6, 0, false⟩ ∈
        (closingBus b s).bus.queue ++ (closingBus b s).bus.held := by
  have hEntry : cycleEntry b (s.bay b).run = ⟨b, .cycleCount, 0, .write (wordBytes (x.cycles + 1)), 6, 0, false⟩ := by
    rw [cycleEntry, cycleValue, hx]
    rfl
  have hNot : busHolds s.bus b = false := by rw [busHolds_of_ne_failed h, hb]
  have hCycle : closingBus b s = closingCycle b s := if_neg (by rw [hNot]; decide)
  have hSome : busRequest (cycleEntry b (s.bay b).run) s ≠ none := by
    unfold busRequest
    rw [if_neg h]
    split <;> nofun
  obtain ⟨t, ht⟩ := Option.ne_none_iff_exists'.1 hSome
  have hClosing : closingCycle b s = t.modRun b fun r => { r with closing := .cycle } := by
    simp only [closingCycle, hr, if_true, ht]
  rw [hCycle, hClosing]
  obtain ⟨-, hBays, -, hQueue⟩ := busRequest_cases ht
  have hBay : t.bay b = s.bay b := by rw [State.bay, hBays]; rfl
  refine ⟨by rw [bay_modRun, hBay], by rw [bay_modRun], ?_⟩
  rw [modRun_bus, ← hEntry]
  rcases hQueue with ⟨-, -, hq, hh⟩ | ⟨hq, hh⟩
  · rw [hq, hh]
    simp
  · rw [hq, hh]
    simp

end

/-! ## Whether the bay's transaction is on the bus after its entries have gone -/

theorem bayOnBus_iff {u : Bus} {b : Bay} :
    bayOnBus u b = true ↔ u.onBus = true ∧ ∃ e rest, u.queue = e :: rest ∧ e.bay = b := by
  unfold bayOnBus onBusEntry
  cases ho : u.onBus <;> cases hq : u.queue <;> simp

/-- What stands on the bus after the bay's entries have gone stood there before (R168). -/
theorem Cleared.bayOnBus {b : Bay} {u v : Bus} (h : Cleared b u v) : Machine.bayOnBus v b = Machine.bayOnBus u b := by
  obtain ⟨l, hl, hOther⟩ := h.queue
  rw [Bool.eq_iff_iff, bayOnBus_iff, bayOnBus_iff, h.onBus, and_congr_right_iff]
  intro ho
  rw [hl, onBusPart, if_pos ho]
  cases hq : u.queue with
  | nil =>
    constructor
    · rintro ⟨e, rest, he, hb⟩
      exact absurd hb (hOther e (by rw [show l = e :: rest from he]; exact List.mem_cons_self ..))
    · rintro ⟨e, rest, he, -⟩
      exact absurd he nofun
  | cons e rest => simp

/-- The bay's transaction stays at the head, with no other entry of the bay behind it (R46, R168). -/
theorem Cleared.transaction {b : Bay} {u v : Bus} (h : Cleared b u v) {e : BusEntry} {rest : List BusEntry}
    (hq : u.queue = e :: rest) (ho : u.onBus = true) :
    v.queue.head? = some e ∧ ∀ g ∈ v.queue.drop 1 ++ v.held, g.bay ≠ b := by
  obtain ⟨l, hl, hOther⟩ := h.queue
  have hv : v.queue = e :: l := by rw [hl, onBusPart, if_pos ho, hq]; rfl
  rw [hv]
  exact ⟨rfl, fun g hg => (List.mem_append.1 hg).elim (hOther g) (h.held g)⟩

section
variable {b : Bay} {s : State}

/-- The ABORT key acted on in a run that has left LOADING (R44, R203). -/
theorem keyAbort_enters (hc : NoCheckDue b s) (hl : (s.bay b).run.load = none)
    (hp : (s.bay b).phase = .running ∨ (s.bay b).phase = .paused) : keyAbort b s =
      closingBus b (recordsGiven b .aborted (.abort .operator) 0
        (endAll (s.bay b).run .aborted (.abort .operator) s.rackTime) s) := by
  rw [keyAbort, abortRun_now hc hl (.inr (.inr hp)), abortNow_now _ hl, enterClosing_eq]

/-- The abort of a run that has reached RUNNING: its transaction is waited for, or its cycle count written (R46, R63). -/
theorem keyAbort_waits_or_counts (hc : NoCheckDue b s) (hl : (s.bay b).run.load = none)
    (hp : (s.bay b).phase = .running ∨ (s.bay b).phase = .paused) (hr : (s.bay b).run.ran = true)
    (hf : s.bus.state ≠ .failed) {x : Ident} (hx : (s.bay b).run.ident = some x) :
    let t := keyAbort b s
    (t.bay b).phase = .closing ∧
      ((∀ e rest, s.bus.queue = e :: rest → s.bus.onBus = true → e.bay ≠ b) →
        (t.bay b).run.closing = .cycle ∧
        ⟨b, .cycleCount, 0, .write (wordBytes (x.cycles + 1)), 6, 0, false⟩ ∈ t.bus.queue ++ t.bus.held) ∧
      (∀ e rest, s.bus.queue = e :: rest → s.bus.onBus = true → e.bay = b →
        (t.bay b).run.closing = .bus ∧ t.bus.queue.head? = some e ∧
        ∀ g ∈ t.bus.queue.drop 1 ++ t.bus.held, g.bay ≠ b) := by
  dsimp only
  rw [keyAbort_enters hc hl hp]
  generalize hEnded : endAll (s.bay b).run .aborted (.abort .operator) s.rackTime = ended
  have hCleared := recordsGiven_cleared (b := b) (verdict := .aborted) (cause := .abort .operator) (offending := 0)
    (ended := ended) hf
  have hPhase := recordsGiven_phase (b := b) (verdict := .aborted) (cause := .abort .operator) (offending := 0)
    (ended := ended) (s := s)
  have hFailed : (recordsGiven b .aborted (.abort .operator) 0 ended s).bus.state ≠ .failed := by rwa [hCleared.state]
  have hCycle (hb : bayOnBus s.bus b = false) := closingBus_cycle (x := x) hFailed (hCleared.bayOnBus.trans hb)
    (recordsGiven_ran.trans hr) (recordsGiven_ident.trans hx)
  have hWaits (hb : bayOnBus s.bus b = true) := closingBus_waits hFailed (hCleared.bayOnBus.trans hb)
  refine ⟨?_, fun hNone => ?_, fun e rest hq ho he => ?_⟩
  · cases hb : bayOnBus s.bus b
    · exact (hCycle hb).1.trans hPhase
    · rw [hWaits hb, bay_modRun]
      exact hPhase
  · have hb : bayOnBus s.bus b = false := Bool.eq_false_iff.2 fun hOn => by
      obtain ⟨ho, e, rest, hq, he⟩ := bayOnBus_iff.1 hOn
      exact hNone e rest hq ho he
    exact (hCycle hb).2
  · rw [hWaits (bayOnBus_iff.2 ⟨ho, e, rest, hq, he⟩), bay_modRun, modRun_bus]
    exact ⟨rfl, hCleared.transaction hq ho⟩

end

end Sys2Proof.Machine

namespace Sys2Proof.Machine

open Sys2Proof

/-! ## A write of the hand-back that fails (R20 to R23) -/

theorem lostLabelOf_header {r : RunEngine} {h : Header} (hh : r.copy.header = some h) (free : Word32) :
    lostLabelOf r free = h.label := by simp only [lostLabelOf, hh]

section
variable {b : Bay} {s t : State}

theorem handBackFails_bay (hl : (s.bay b).run.lost = false) : ∃ w q, (handBackFails b s).bay b = { s.bay b with
    run := { (s.bay b).run with lost := true }
    supply := { (s.bay b).supply with latched := (s.bay b).supply.latched ||| exchangeBit }
    xu := { (s.bay b).xu with write := w }
    status := { (s.bay b).status with runLost := true, lostLabel := lostLabelOf (s.bay b).run q } } := by
  obtain ⟨v, q, hLost⟩ := loseRun_recordError_bay hl
  obtain ⟨w, hw⟩ := addLatched_bay (b := b) (s := loseRun b (recordError .writeError (some b) s)) exchangeBit
  rw [hLost] at hw
  exact ⟨w, q, hw⟩

theorem handBackFails_recorded : ErrorRecorded .writeError (some b) s (handBackFails b s) := by
  have hMoves : Moves none b (recordError .writeError (some b) s) (handBackFails b s) :=
    loseRun_moves.trans (addLatched_moves _)
  exact (errorRecorded_recordError .writeError (some b) s).later ((addLatched_merr _).trans loseRun_merr)
    hMoves.grows.events

/-- A fault latched issues no write but the status block's. -/
theorem addLatched_handed (f : FaultSet) : Issues (NoHandBack b) s (addLatched b f s) := by
  unfold addLatched
  split
  · exact .of_eq rfl
  · exact .trans (.of_eq rfl) triggerBay_handed

theorem handBackFails_handed : Issues (NoHandBack b) s (handBackFails b s) :=
  (recordError_issues (by intro a d; simp) _ _ _).trans (loseRun_issues.trans (addLatched_handed _))

/-! ## Results handed over leave the bay at rest -/

theorem writeResult_rests (x : StepResult) : Rests b s (writeResult b x s) := by
  unfold writeResult
  dsimp only
  split
  · exact .refl b s
  · have hBay (o : Nat) (d : List Byte) : (writeArea (.result b x.index) o d s).bay b = s.bay b := writeArea_bay ..
    exact ⟨by rw [hBay], by rw [hBay], by rw [hBay], by rw [hBay], ⟨(s.bay b).xu.write, by rw [hBay]⟩, rfl,
      fun _ _ => writeArea_issues (by intro a d h; simp [areaItem] at h),
      writeArea_issues (by intro a d; simp [areaItem])⟩

theorem handOver_rests (results : List StepResult) : Rests b s (handOver b results s) :=
  forAll_keeps (P := Rests b s) results _ s (.refl b s) fun x _ _ hu =>
    hu.trans ((writeResult_rests x).trans triggerBay_rests)

end

section
variable {b : Bay} {verdict : Verdict} {cause : EndCause} {offending : Nat} {ended : List StepResult} {s : State}

/-- The bay with its results handed over, before a record that is refused takes its effect. -/
abbrev resultsGiven (b : Bay) (verdict : Verdict) (cause : EndCause) (offending : Nat) (ended : List StepResult)
    (s : State) : State := handOver b (closingResults ended (s.bay b).run) (atRest b verdict cause offending ended s)

theorem resultsGiven_rests :
    Rests b (bayAtClosing b verdict cause offending ended s) (resultsGiven b verdict cause offending ended s) :=
  closingEntered_rests.trans (handOver_rests _)

/-- The bay at the entry to CLOSING keeps its status block and what is refused. -/
theorem resultsGiven_keeps :
    let y := (resultsGiven b verdict cause offending ended s).bay b
    y.run.lost = (s.bay b).run.lost ∧ y.run.copy = (s.bay b).run.copy ∧ y.status = (s.bay b).status ∧
      y.xu.refused = (s.bay b).xu.refused := by
  have h := resultsGiven_rests (b := b) (verdict := verdict) (cause := cause) (offending := offending) (ended := ended)
    (s := s)
  obtain ⟨w, hw⟩ := h.xu
  dsimp only
  rw [h.run, h.status, hw, bayAtClosing_bay]
  exact ⟨rfl, rfl, rfl, rfl⟩

/-- A record of the entry to CLOSING that the card does not accept loses the run there (R20 to R23). -/
theorem enterClosing_refused (hl : (s.bay b).run.lost = false) (hr : (s.bay b).xu.refused = some .record)
    (hn : closingResults ended (s.bay b).run ≠ []) :
    let t := enterClosing b verdict cause offending ended s
    ErrorRecorded .writeError (some b) s t ∧ (t.bay b).run.lost = true ∧ (t.bay b).status.runLost = true ∧
      (∀ h, (s.bay b).run.copy.header = some h → (t.bay b).status.lostLabel = h.label) ∧ ExchangeLatched b t ∧
      (t.bay b).status.finished = (s.bay b).status.finished ∧ Issues (NoHandBack b) s t := by
  let u := resultsGiven b verdict cause offending ended s
  obtain ⟨hLost, hCopy, hStatus, hRefused⟩ := resultsGiven_keeps (b := b) (verdict := verdict)
    (cause := cause) (offending := offending) (ended := ended) (s := s)
  have hRests := resultsGiven_rests (b := b) (verdict := verdict) (cause := cause) (offending := offending)
    (ended := ended) (s := s)
  have hFails : recordsRefused b (closingResults ended (s.bay b).run) u = handBackFails b u := by
    refine if_pos ?_
    rw [hRefused, hr, hLost, hl]
    simpa using hn
  have ht : enterClosing b verdict cause offending ended s = closingBus b (handBackFails b u) := by
    rw [enterClosing_eq, ← hFails]
  obtain ⟨w, q, hBay⟩ := handBackFails_bay (b := b) (s := u) (hLost.trans hl)
  have hPhase : ((handBackFails b u).bay b).phase = .closing := by
    rw [hBay]
    exact (handOver_stays _).phase.trans closingEntered_safe.1
  have hGoesOn := closingBus_goesOn hPhase
  obtain ⟨hStaysLost, hBack⟩ := hGoesOn.bay.lost (by rw [hBay])
  have hRecorded : ErrorRecorded .writeError (some b) s (handBackFails b u) := by
    have h := handBackFails_recorded (b := b) (s := u)
    refine ⟨h.1.trans ?_, h.2⟩
    rw [hRests.merr]
    rfl
  have hHanded : Issues (NoHandBack b) s (handBackFails b u) :=
    (Issues.trans (t := bayAtClosing b verdict cause offending ended s) (.of_eq rfl) hRests.handed).trans
      handBackFails_handed
  rw [hBay, hStatus] at hBack
  dsimp only
  rw [ht]
  refine ⟨hRecorded.later (hGoesOn.merr (.inr (by rw [hBay]))) (Moves.grows closingBus_moves).events, hStaysLost,
    congrArg (·.1) hBack, fun h hh => (congrArg (·.2.1) hBack).trans ?_, fun hp => hGoesOn.bay.latched hp _ ?_,
    congrArg (·.2.2.1) hBack, hHanded.trans (hGoesOn.handed (by rw [hBay]))⟩
  · exact lostLabelOf_header ((congrArg (·.header) hCopy).trans hh) q
  · rw [hBay]
    exact latched_exchange _

end

/-- Results are handed over when a step is still in flight. -/
theorem closingResults_ne_nil {r : RunEngine} (h : r.inFlight ≠ []) (o : StepOutcome) (d : Detail) (now : RackTime) :
    closingResults (endAll r o d now) r ≠ [] := by
  obtain ⟨e, he⟩ := List.exists_mem_of_ne_nil _ h
  exact List.ne_nil_of_mem (mem_endAll he o d now)

end Sys2Proof.Machine

namespace Sys2Proof.Machine

open Sys2Proof

/-! ## The header fields of a run handed back (R28, R60) -/

/-- With every record read, the counted steps are those without NOT_COUNTED (R31). -/
theorem countedSteps_eq {r : RunEngine} {h : Header} (hh : r.copy.header = some h) (hv : stepCountValid h = true)
    (hr : ∀ i, i < h.stepCount → r.copy.records[i]? ≠ none) :
    (List.range (stepCount r)).filter (countedStep r) = countedSteps r h := by
  have hCount : stepCount r = h.stepCount := by simp only [stepCount, hh, hv, if_true]
  rw [hCount, countedSteps]
  refine List.filter_congr fun i hi => ?_
  obtain ⟨record, hRecord⟩ := Option.ne_none_iff_exists'.1 (hr i (List.mem_range.1 hi))
  rw [countedStep, hRecord, Option.map_some, Option.getD_some]
  cases recordNotCounted record <;> rfl

theorem passing_eq (h : Header) (x : StepResult) : passing h.marginalIsFail x.outcome =
    (x.outcome = .done || x.outcome = .pass || (x.outcome = .marginal && !h.marginalIsFail)) := by
  cases x.outcome <;> simp [passing]

theorem failing_eq (h : Header) (x : StepResult) :
    failing h.marginalIsFail x.outcome = decide (FailingOutcome h x.outcome) := by
  cases x.outcome <;> simp [failing, FailingOutcome]

/-- The three step counts of the header (R60). -/
theorem stepCounts_eq {r : RunEngine} {h : Header} (hh : r.copy.header = some h) (hv : stepCountValid h = true)
    (hr : ∀ i, i < h.stepCount → r.copy.records[i]? ≠ none) :
    stepCounts r = ((countedSteps r h).length,
      stepsCounted r h (fun x =>
        x.outcome = .done || x.outcome = .pass || (x.outcome = .marginal && !h.marginalIsFail)),
      stepsCounted r h fun x => decide (FailingOutcome h x.outcome)) := by
  have hOption : runOption r (fun h => h.marginalIsFail) = h.marginalIsFail := by simp only [runOption, hh]
  simp only [stepCounts, countedSteps_eq hh hv hr, hOption, stepsCounted, passing_eq, failing_eq]

/-- The header fields of a run with verdict v, as the statements write them (R28, section 11.5). -/
def headerFields (r : RunEngine) (h : Header) (v : Verdict) : List Byte :=
  [BitVec.ofNat 8 (verdictCode v), BitVec.ofNat 8 (endCauseCode r.cause), BitVec.ofNat 8 r.offending, 0,
      BitVec.ofNat 8 (countedSteps r h).length,
      BitVec.ofNat 8 (stepsCounted r h fun x =>
        x.outcome = .done || x.outcome = .pass || (x.outcome = .marginal && !h.marginalIsFail)),
      BitVec.ofNat 8 (stepsCounted r h fun x => decide (FailingOutcome h x.outcome)), 0] ++
    wordBytes r.takeTime ++ wordBytes (if r.ran then r.startTime else 0) ++ wordBytes r.endTime ++
    wordBytes (match r.ident with | some x => x.serial | none => 0) ++
    wordBytes (match r.ident with | some _ => r.cycleAfter | none => 0)

theorem runHeaderBytes_eq {r : RunEngine} {h : Header} {v : Verdict} (hh : r.copy.header = some h)
    (hv : stepCountValid h = true) (hr : ∀ i, i < h.stepCount → r.copy.records[i]? ≠ none)
    (hVerdict : r.verdict = some v) : runHeaderBytes r = headerFields r h v := by
  have hByte (n : Nat) : leBytes 1 n = [BitVec.ofNat 8 n] := by simp [leBytes]
  rw [runHeaderBytes, stepCounts_eq hh hv hr]
  simp only [headerBytes, hVerdict, hByte, List.cons_append, List.nil_append]
  rfl

/-! ## The hand-back, by the write that is refused (R23, R46, R47) -/

/-- The header fields and FINISHED as they are issued (R28, R46). -/
def headerItem (b : Bay) (s : State) : StreamItem :=
  areaItem s (.header b) (heldOffset b (s.bay b).run + 0x80) (runHeaderBytes (s.bay b).run)
def finishedItem (b : Bay) (s : State) : StreamItem :=
  areaItem s (.finished b) (heldOffset b (s.bay b).run) [3, 0, 0, 0]

/-- The bay's run counted as finished, and as passed or failed by its verdict (R17, R47). -/
def statusCounted (v : Option Verdict) (u : BayStatus) : BayStatus :=
  { u with
    finished := u.finished + 1
    passed := if v = some .pass then u.passed + 1 else u.passed
    failed := if v = some .fail then u.failed + 1 else u.failed }

section
variable {b : Bay} {s : State}

/-- The header fields written (R46). -/
def headerWritten (b : Bay) (s : State) : State := emit (headerItem b s) s

/-- The header fields and FINISHED written (R46). -/
def bothWritten (b : Bay) (s : State) : State := emit (finishedItem b s) (headerWritten b s)

/-- The header fields and FINISHED written, with the DONE event (R25, R46). -/
def finishedWritten (b : Bay) (s : State) : State := writeFinished b (headerWritten b s)

theorem headerWritten_bay : (headerWritten b s).bay b = s.bay b := emit_bay ..

theorem finishedWritten_bay : (finishedWritten b s).bay b = s.bay b :=
  (writeFinished_bay ..).trans headerWritten_bay

theorem finishedWritten_eq : finishedWritten b s =
    if runOption (s.bay b).run (fun h => h.eventOnFinish) then setEvent (doneBit b) (bothWritten b s)
    else bothWritten b s := by
  rw [finishedWritten, writeFinished, headerWritten_bay]
  rfl

theorem handBack_header (hr : (s.bay b).xu.refused = some .header) :
    handBack b s = handBackFails b (headerWritten b s) := by
  simp only [handBack, hr]
  rfl

theorem handBack_finished (hr : (s.bay b).xu.refused = some .finished) :
    handBack b s = handBackFails b (finishedWritten b s) := by
  simp only [handBack, hr]
  rfl

theorem handBack_accepted (hr : (s.bay b).xu.refused = none ∨ (s.bay b).xu.refused = some .record) :
    handBack b s = countRun b (finishedWritten b s) := by
  rcases hr with hr | hr
  · simp only [handBack, hr]
    rfl
  · simp only [handBack, hr]
    rfl

theorem finishedWritten_handed : Issues (NoHandBack b) (bothWritten b s) (finishedWritten b s) := by
  rw [finishedWritten_eq]
  split
  · exact setEvent_issues (by intro a d; simp) ..
  · exact .of_eq rfl

theorem finishedWritten_merr : (finishedWritten b s).xu.merr = s.xu.merr := by
  rw [finishedWritten_eq]
  split
  · exact setEvent_merr ..
  · rfl

/-- DONE is set with EVENT_ON_FINISH (R25). -/
theorem finishedWritten_done {h : Header} (hh : (s.bay b).run.copy.header = some h) (he : h.eventOnFinish = true) :
    (finishedWritten b s).xu.events.getLsbD (bayNum b) = true := by
  have hOption : runOption (s.bay b).run (fun h => h.eventOnFinish) = true := by simp only [runOption, hh, he]
  rw [finishedWritten_eq, if_pos hOption, setEvent_events, getLsbD_setBit _ (by cases b <;> decide)]
  simp [doneBit]

/-- The bay of a run handed back, counted by its verdict (R17, R47). -/
theorem countRun_bay : (countRun b (finishedWritten b s)).bay b =
    { s.bay b with status := statusCounted (s.bay b).run.verdict (s.bay b).status } := by
  rw [countRun, bay_modStatus, finishedWritten_bay]
  rfl

/-- A write refused sets no event but XFAULT (R21). -/
theorem handBackFails_events {n : Nat} (hn : n ≠ 9) :
    (handBackFails b s).xu.events.getLsbD n = s.xu.events.getLsbD n := by
  have hLatched (u : State) : (addLatched b exchangeBit u).xu.events = u.xu.events := by
    obtain ⟨w, l, h⟩ := addLatched_eq (b := b) (s := u) exchangeBit
    rw [h]
  have hLost (u : State) : (loseRun b u).xu.events = u.xu.events := by
    unfold loseRun
    split
    · rfl
    · rw [triggerBay_xu]
      rfl
  rw [handBackFails, hLatched, hLost, recordError, setEvent_events, getLsbD_setBit _ (by decide)]
  simp [xfaultBit, hn, State.modXu]

end

/-- What is issued first, when what follows is known. -/
theorem Issues.take {test : StreamItem → Prop} {first : List StreamItem} {s w t : State}
    (hw : w.xu.stream = s.xu.stream ++ first) (h : Issues test w t) : (Machine.issued s t).take first.length = first := by
  obtain ⟨l, hl, -⟩ := h
  have ht : t.xu.stream = s.xu.stream ++ (first ++ l) := by rw [hl, hw, List.append_assoc]
  rw [issued_of_append ht, List.take_left]

end Sys2Proof.Machine

namespace Sys2Proof.Machine

open Sys2Proof

/-! ## The end of CLOSING, from the run handed back on (R12, R45, R47, R48) -/

/-- What follows the bay's change of state: the panel asks, and status blocks are written. -/
structure Quiet (b : Bay) (s t : State) : Prop where
  bay : ∃ p f w, t.bay b = { s.bay b with
    panel := p
    status := { (s.bay b).status with lampFailed := f }
    xu := { (s.bay b).xu with write := w } }
  events : t.xu.events = s.xu.events
  merr : t.xu.merr = s.xu.merr
  handed : Issues (NoHandBack b) s t

section
variable {b : Bay} {s t u : State}

theorem Quiet.trans (h : Quiet b s t) (g : Quiet b t u) : Quiet b s u where
  bay := by
    obtain ⟨p, f, w, hb⟩ := h.bay
    obtain ⟨q, e, v, gb⟩ := g.bay
    exact ⟨q, e, v, by rw [gb, hb]⟩
  events := g.events.trans h.events
  merr := g.merr.trans h.merr
  handed := h.handed.trans g.handed

theorem PanelAsks.quiet (h : PanelAsks b s t) : Quiet b s t := by
  obtain ⟨p, f, -, hb⟩ := h.bay
  exact ⟨⟨p, f, (s.bay b).xu.write, hb⟩, by rw [h.xu], by rw [h.xu], .of_eq (by rw [h.xu])⟩

/-- Whatever leaves the bay, the events, MERR and the hand-back's writes as they are is quiet. -/
theorem quiet_of_bay (hb : t.bay b = s.bay b) (he : t.xu.events = s.xu.events) (hm : t.xu.merr = s.xu.merr)
    (hi : Issues (NoHandBack b) s t) : Quiet b s t :=
  ⟨⟨(s.bay b).panel, (s.bay b).status.lampFailed, (s.bay b).xu.write, hb⟩, he, hm, hi⟩

theorem modBus_quiet (f : Bus → Bus) : Quiet b s (s.modBus f) := quiet_of_bay rfl rfl rfl (.of_eq rfl)

theorem triggerBay_quiet : Quiet b s (triggerBay b s) :=
  ⟨⟨(s.bay b).panel, (s.bay b).status.lampFailed, _, triggerBay_self ..⟩, by rw [triggerBay_xu], by rw [triggerBay_xu],
    triggerBay_handed⟩

theorem setBusState_quiet (st : BusState) : Quiet b s (setBusState st s) := by
  have hIssues : Issues (NoHandBack b) s (setBusState st s) := by
    unfold setBusState
    split
    · exact .of_eq rfl
    · rw [triggerRack_eq]
      refine ⟨_, rfl, fun i hi => ?_⟩
      split at hi
      · rw [List.mem_singleton.1 hi]
        exact fun a d => ⟨by simp [areaItem], by simp [areaItem]⟩
      · exact absurd hi List.not_mem_nil
  have hXu : (setBusState st s).xu.events = s.xu.events ∧ (setBusState st s).xu.merr = s.xu.merr := by
    unfold setBusState
    split
    · exact ⟨rfl, rfl⟩
    · rw [triggerRack_eq]
      exact ⟨rfl, rfl⟩
  exact quiet_of_bay (by rw [State.bay, setBusState_bays]; rfl) hXu.1 hXu.2 hIssues

theorem enterIdle_quiet : Quiet b s (enterIdle s) := by
  have h : Quiet b s (restartCounts (setBusState .idle s)) := (setBusState_quiet _).trans (modBus_quiet _)
  unfold enterIdle
  dsimp only
  split
  · exact h
  · exact h.trans (setBusState_quiet _)

end

/-- A bay that has left CLOSING, from its run handed back on: the slot free, the other one next, and the state that follows
(R12, R45, R47, R48). -/
structure Left (b : Bay) (k : Slot) (s t : State) : Prop where
  slot : (t.bay b).run.slot = none
  inFlight : (t.bay b).run.inFlight = []
  lost : (t.bay b).run.lost = (s.bay b).run.lost
  next : (t.bay b).xu.next = otherSlot k
  refused : (t.bay b).xu.refused = none
  status : ∃ f, (t.bay b).status = { (s.bay b).status with lampFailed := f }
  offline : (s.bay b).xu.enabled = false → (t.bay b).phase = .offline ∧ (t.bay b).supply.latched = 0
  halted : (s.bay b).xu.enabled = true → (s.bay b).supply.latched ≠ 0 →
    (t.bay b).phase = .halted ∧ (t.bay b).supply.latched = (s.bay b).supply.latched ∧
      t.xu.events.getLsbD (4 + bayNum b) = true
  idle : (s.bay b).xu.enabled = true → (s.bay b).supply.latched = 0 → (t.bay b).phase = .idle ∧
    (t.bay b).xu.backToBack = if s.xu.run then some (otherSlot k, areaRead s (slotOffset b (otherSlot k)))
      else (s.bay b).xu.backToBack
  events : ∀ n, n ≠ 4 + bayNum b → t.xu.events.getLsbD n = s.xu.events.getLsbD n
  merr : t.xu.merr = s.xu.merr
  handed : Issues (NoHandBack b) s t

section
variable {b : Bay} {k : Slot} {s t u : State}

theorem Left.quiet (h : Left b k s t) (g : Quiet b t u) : Left b k s u := by
  obtain ⟨p, f, w, hb⟩ := g.bay
  obtain ⟨e, he⟩ := h.status
  exact
    { slot := by rw [hb]; exact h.slot
      inFlight := by rw [hb]; exact h.inFlight
      lost := by rw [hb]; exact h.lost
      next := by rw [hb]; exact h.next
      refused := by rw [hb]; exact h.refused
      status := ⟨f, by rw [hb, he]⟩
      offline := by rw [hb]; exact h.offline
      halted := by rw [hb, g.events]; exact h.halted
      idle := by rw [hb]; exact h.idle
      events := by rw [g.events]; exact h.events
      merr := g.merr.trans h.merr
      handed := h.handed.trans g.handed }

/-- A bay that has left CLOSING is not in CLOSING. -/
theorem Left.phase (h : Left b k s t) : (t.bay b).phase ≠ .closing := by
  cases he : (s.bay b).xu.enabled
  · rw [(h.offline he).1]
    decide
  · by_cases hl : (s.bay b).supply.latched = 0
    · rw [(h.idle he hl).1]
      decide
    · rw [(h.halted he hl).1]
      decide

theorem slotFreed_bay : (slotFreed b (some k) s).bay b = { s.bay b with
    xu := { (s.bay b).xu with next := otherSlot k, refused := none }
    run := { (s.bay b).run with slot := none, closing := .none, inFlight := [], claims := Vector.replicate 14 none } } :=
  bay_modBay ..

theorem setPhase_events (p : Phase) : (setPhase b p s).xu.events = s.xu.events := by
  rw [setPhase, triggerBay_xu]
  rfl

theorem setPhase_handed (p : Phase) : Issues (NoHandBack b) s (setPhase b p s) := .trans (.of_eq rfl) triggerBay_handed

theorem clearLatched_events : (clearLatched b s).xu.events = s.xu.events := by
  unfold clearLatched
  split
  · rfl
  · rw [triggerBay_xu]
    rfl

theorem clearLatched_merr : (clearLatched b s).xu.merr = s.xu.merr := by
  unfold clearLatched
  split
  · rfl
  · rw [triggerBay_xu]
    rfl

theorem clearLatched_handed : Issues (NoHandBack b) s (clearLatched b s) := by
  unfold clearLatched
  split
  · exact .of_eq rfl
  · exact .trans (.of_eq rfl) triggerBay_handed

/-- A disabled bay leaves for OFFLINE (R45, R47). -/
theorem goOffline_left (he : (s.bay b).xu.enabled = false) : Left b k s (goOffline b (slotFreed b (some k) s)) := by
  obtain ⟨w, hw⟩ := clearLatched_bay (b := b) (s := slotFreed b (some k) s)
  have hb := setPhase_self (b := b) (s := clearLatched b (slotFreed b (some k) s)) .offline
  rw [hw, slotFreed_bay] at hb
  have hEvents : (goOffline b (slotFreed b (some k) s)).xu.events = s.xu.events :=
    (setPhase_events _).trans clearLatched_events
  have hMerr : (goOffline b (slotFreed b (some k) s)).xu.merr = s.xu.merr := (setPhase_merr _).trans clearLatched_merr
  have hHanded : Issues (NoHandBack b) (slotFreed b (some k) s) (goOffline b (slotFreed b (some k) s)) :=
    clearLatched_handed.trans (setPhase_handed _)
  rw [← goOffline] at hb
  constructor
  case events => exact fun n _ => by rw [hEvents]
  case merr => exact hMerr
  case handed => exact .trans (.of_eq rfl) hHanded
  case offline => exact fun _ => by rw [hb]; exact ⟨rfl, rfl⟩
  case halted => exact fun h => absurd (he.symm.trans h) nofun
  case idle => exact fun h => absurd (he.symm.trans h) nofun
  case status => exact ⟨(s.bay b).status.lampFailed, by rw [hb]⟩
  all_goals rw [hb]

/-- A bay with a fault latched leaves for HALTED with ALERT (R47, R48). -/
theorem goHalted_left (he : (s.bay b).xu.enabled = true) (hl : (s.bay b).supply.latched ≠ 0) :
    Left b k s (goHalted b (slotFreed b (some k) s)) := by
  have hb : (goHalted b (slotFreed b (some k) s)).bay b = (setPhase b .halted (slotFreed b (some k) s)).bay b :=
    setEvent_bay ..
  rw [setPhase_self, slotFreed_bay] at hb
  have hEvents (n : Nat) : (goHalted b (slotFreed b (some k) s)).xu.events.getLsbD n =
      (s.xu.events.getLsbD n || decide (n = 4 + bayNum b)) := by
    rw [goHalted, setEvent_events, getLsbD_setBit _ (by cases b <;> decide), setPhase_events]
    rfl
  have hMerr : (goHalted b (slotFreed b (some k) s)).xu.merr = s.xu.merr :=
    (setEvent_merr ..).trans (setPhase_merr _)
  have hHanded : Issues (NoHandBack b) (slotFreed b (some k) s) (goHalted b (slotFreed b (some k) s)) :=
    (setPhase_handed _).trans (setEvent_issues (by intro a d; simp) ..)
  constructor
  case events => exact fun n hn => by rw [hEvents, decide_eq_false hn, Bool.or_false]
  case merr => exact hMerr
  case handed => exact .trans (.of_eq rfl) hHanded
  case offline => exact fun h => absurd (he.symm.trans h) nofun
  case halted => exact fun _ _ => ⟨by rw [hb], by rw [hb], by rw [hEvents, decide_eq_true rfl, Bool.or_true]⟩
  case idle => exact fun _ h => absurd h hl
  case status => exact ⟨(s.bay b).status.lampFailed, by rw [hb]⟩
  all_goals rw [hb]

/-- Another bay leaves for IDLE, with the back-to-back read while RUN = 1 (R11, R12, R47). -/
theorem enterIdleState_left (he : (s.bay b).xu.enabled = true) (hl : (s.bay b).supply.latched = 0) :
    Left b k s (readBackToBack b (setPhase b .idle (slotFreed b (some k) s))) := by
  have hPhase := setPhase_self (b := b) (s := slotFreed b (some k) s) .idle
  rw [slotFreed_bay] at hPhase
  have hRun : (setPhase b .idle (slotFreed b (some k) s)).xu.run = s.xu.run := by
    rw [setPhase, triggerBay_xu]
    rfl
  have hRead : readAt (slotOffset b (otherSlot k)) (setPhase b .idle (slotFreed b (some k) s)) =
      areaRead s (slotOffset b (otherSlot k)) := by
    rw [readAt, readInterval, setPhase, triggerBay_xu]
    rfl
  have hb : ∃ w, (readBackToBack b (setPhase b .idle (slotFreed b (some k) s))).bay b =
      { (slotFreed b (some k) s).bay b with
        phase := .idle
        xu := { ((slotFreed b (some k) s).bay b).xu with
          write := w
          backToBack := if s.xu.run then some (otherSlot k, areaRead s (slotOffset b (otherSlot k)))
            else (s.bay b).xu.backToBack } } := by
    rw [slotFreed_bay, readBackToBack, hRun]
    refine ⟨if (s.bay b).xu.write = .idle then .busy else .busyMarked, ?_⟩
    cases s.xu.run
    · exact hPhase
    · simp only [if_true]
      rw [bay_modBayXu, hPhase, hRead]
  obtain ⟨w, hb⟩ := hb
  rw [slotFreed_bay] at hb
  have hXu : (readBackToBack b (setPhase b .idle (slotFreed b (some k) s))).xu =
      (setPhase b .idle (slotFreed b (some k) s)).xu := by
    unfold readBackToBack
    split <;> rfl
  have hHanded : Issues (NoHandBack b) (slotFreed b (some k) s)
      (readBackToBack b (setPhase b .idle (slotFreed b (some k) s))) := (setPhase_handed _).trans (.of_eq (by rw [hXu]))
  constructor
  case events =>
    intro n _
    rw [hXu, setPhase_events]
    rfl
  case merr =>
    rw [hXu]
    exact setPhase_merr _
  case handed => exact .trans (.of_eq rfl) hHanded
  case offline => exact fun h => absurd (he.symm.trans h) nofun
  case halted => exact fun _ h => absurd hl h
  case idle => exact fun _ _ => ⟨by rw [hb], by rw [hb]⟩
  case status => exact ⟨(s.bay b).status.lampFailed, by rw [hb]⟩
  all_goals rw [hb]

/-- The end of CLOSING, from the run handed back on (R47). -/
theorem leaveClosing_left : Left b k s (leaveClosing b (slotFreed b (some k) s)) := by
  have hEnabled : ((slotFreed b (some k) s).bay b).xu.enabled = (s.bay b).xu.enabled := by rw [slotFreed_bay]
  have hLatched : ((slotFreed b (some k) s).bay b).supply.latched = (s.bay b).supply.latched := by rw [slotFreed_bay]
  unfold leaveClosing
  rw [hEnabled, hLatched]
  cases he : (s.bay b).xu.enabled
  · exact goOffline_left he
  · by_cases hl : (s.bay b).supply.latched = 0
    · simp only [hl, Bool.not_true, Bool.false_eq_true, ne_eq, not_true, if_false]
      exact enterIdleState_left he hl
    · simp only [hl, Bool.not_true, Bool.false_eq_true, ne_eq, not_false_iff, if_false, if_true]
      exact goHalted_left he hl

theorem settlePending_none {c : Condition} (h : (condGet (s.bay b).supply.watches c).pending = false) :
    settlePending b c s = s := if_neg (by rw [h]; decide)

/-- The end of CLOSING with no fault waiting (R47, R157). -/
theorem closingEnd_left (hp : ∀ c, (condGet (s.bay b).supply.watches c).pending = false)
    (hk : (s.bay b).run.slot = some k) : Left b k (handBackUnlessLost b s) (closingEnd b s) := by
  have hSettled : forAll allConditions (settlePending b) s = s := forAll_id fun c _ => settlePending_none (hp c)
  rw [closingEnd_eq, hSettled, hk]
  exact leaveClosing_left.quiet pollKeys_asks_only.quiet

end

/-! ## The end of a lamp write in CLOSING (R169, R200, R212) -/

section
variable {b : Bay} {s : State}

/-- The lamp write ended, with none waiting (R200). -/
theorem lampOver_asks (hw : (s.bay b).panel.lampWaiting = none) :
    PanelAsks b s (lampOver b s) ∧ ((lampOver b s).bay b).panel.lampWrite = none ∧
      ((lampOver b s).bay b).panel.display = (s.bay b).panel.display := by
  have ht : lampOver b s = s.modPanel b fun p => { p with lampWrite := none, lampWaiting := none } := by
    simp only [lampOver, hw]
  rw [ht, bay_modPanel]
  exact ⟨modPanel_asks rfl, rfl, rfl⟩

/-- The last verdict write ended: CLOSING ends (R46, R212). -/
theorem lampEnded_closes (hp : (s.bay b).phase = .closing) (hc : (s.bay b).run.closing = .panel)
    (hw : (s.bay b).panel.lampWaiting = none) (hd : (s.bay b).panel.display = none) (o : BusOutcome) :
    ∃ v, PanelAsks b s v ∧ lampEnded b o s = closingEnd b v := by
  let u := if o = .done then s else flagLampFailed b s
  have hu : PanelAsks b s u ∧ (u.bay b).panel = (s.bay b).panel := by
    by_cases ho : o = .done
    · simp only [u, ho, if_true]
      exact ⟨.refl b s, trivial⟩
    · simp only [u, ho, if_false]
      exact ⟨flagLampFailed_asks, by rw [flagLampFailed, bay_modStatus]⟩
  obtain ⟨hAsks, hWrite, hDisplay⟩ := lampOver_asks (b := b) (s := u) (by rw [hu.2, hw])
  have hFrom := hu.1.trans hAsks
  obtain ⟨p, f, -, hBay⟩ := hFrom.bay
  refine ⟨lampOver b u, hFrom, ?_⟩
  have hAgain : closingPanelAgain b (lampOver b u) = closingPanelDone b (lampOver b u) := by
    refine if_pos ?_
    rw [hBay]
    simp [hp, hc]
  have hDone : closingPanelDone b (lampOver b u) = closingEnd b (lampOver b u) := by
    refine if_pos ?_
    rw [hWrite, hDisplay, hu.2, hd]
    rfl
  exact hAgain.trans hDone

/-- A transaction's end that ends CLOSING, in its stages (R167, R169). -/
theorem stopHead_lamp {e : BusEntry} {rest : List BusEntry} (hq : s.bus.queue = e :: rest) (ho : e.owner = .lamp)
    (refused : Option Nat) (data : List Byte) (attention : Bool) : ∃ f, stopHead refused data attention s =
      enterIdle (closingRelease e.bay (triggerBay e.bay (serveHeld
        (lampEnded e.bay (transactionOutcome e refused) (s.modBus f))))) := by
  have hKey (u : State) : keyAttention e attention u = u := if_neg (by rw [ho]; decide)
  refine ⟨fun u => { setLines true true u with wire := bytesSent refused u.wire, queue := rest, onBus := false }, ?_⟩
  simp only [stopHead, hq, hKey, endHead, modBus_bus, setLines, deliver, ho]
  rfl

end

end Sys2Proof.Machine

namespace Sys2Proof.Machine

open Sys2Proof

theorem Issues.imp {p q : StreamItem → Prop} {s t : State} (h : Issues p s t) (hpq : ∀ i, p i → q i) : Issues q s t := by
  obtain ⟨l, hl, hi⟩ := h
  exact ⟨l, hl, fun i hm => hpq i (hi i hm)⟩

theorem modBus_asks (b : Bay) (f : Bus → Bus) (s : State) : PanelAsks b s (s.modBus f) := ⟨rfl, rfl, _, _, rfl, rfl⟩

section
variable {b : Bay} {k : Slot} {s t v : State}

/-- The transaction whose end ends CLOSING leaves the bay as its way out of CLOSING does (R169, R212). -/
theorem stopHead_left {e : BusEntry} {rest : List BusEntry} (hq : s.bus.queue = e :: rest) (ho : e.owner = .lamp)
    (hp : (s.bay e.bay).phase = .closing) (hc : (s.bay e.bay).run.closing = .panel)
    (hw : (s.bay e.bay).panel.lampWaiting = none) (hd : (s.bay e.bay).panel.display = none)
    (hn : ∀ c, (condGet (s.bay e.bay).supply.watches c).pending = false) (hk : (s.bay e.bay).run.slot = some k)
    (refused : Option Nat) (data : List Byte) (attention : Bool) :
    ∃ v, PanelAsks e.bay s v ∧
      Left e.bay k (handBackUnlessLost e.bay v) (stopHead refused data attention s) := by
  obtain ⟨f, hStages⟩ := stopHead_lamp hq ho refused data attention
  obtain ⟨v, hv, hEnds⟩ := lampEnded_closes (b := e.bay) (s := s.modBus f) hp hc hw hd (transactionOutcome e refused)
  have hFrom : PanelAsks e.bay s v := (modBus_asks e.bay f s).trans hv
  obtain ⟨p, g, -, hBay⟩ := hFrom.bay
  have hEnd : Left e.bay k (handBackUnlessLost e.bay v) (closingEnd e.bay v) := by
    refine closingEnd_left ?_ ?_
    · rw [hBay]
      exact hn
    · rw [hBay]
      exact hk
  have hServed : Left e.bay k (handBackUnlessLost e.bay v) (triggerBay e.bay (serveHeld (closingEnd e.bay v))) :=
    (hEnd.quiet (modBus_quiet _)).quiet triggerBay_quiet
  have hRelease : closingRelease e.bay (triggerBay e.bay (serveHeld (closingEnd e.bay v))) =
      triggerBay e.bay (serveHeld (closingEnd e.bay v)) := if_neg (by simp [hServed.phase])
  refine ⟨v, hFrom, ?_⟩
  rw [hStages, hEnds, hRelease]
  exact hServed.quiet enterIdle_quiet

/-! ## A run handed back, lost before, or lost by a write refused (R17, R21 to R23, R47) -/

/-- A hand-back that no write error ends leaves what decides the state that follows (R47). -/
theorem handBackUnlessLost_kept (h : (v.bay b).xu.refused = none ∨ (v.bay b).xu.refused = some .record ∨
    (v.bay b).run.lost = true) :
    let u := handBackUnlessLost b v
    (u.bay b).supply = (v.bay b).supply ∧ (u.bay b).xu = (v.bay b).xu ∧ u.xu.run = v.xu.run ∧
      ∀ o, areaRead u o = areaRead v o := by
  dsimp only
  cases hl : (v.bay b).run.lost with
  | true =>
    have ht : handBackUnlessLost b v = v := if_pos hl
    rw [ht]
    exact ⟨rfl, rfl, rfl, fun _ => rfl⟩
  | false =>
    have ht : handBackUnlessLost b v = countRun b (finishedWritten b v) := by
      rw [← handBack_accepted (h.imp id fun h => h.resolve_right (by simp [hl]))]
      exact if_neg (by simp [hl])
    have hMoves : Moves none b v (countRun b (finishedWritten b v)) := ht ▸ handBackUnlessLost_moves
    have hMerr : (countRun b (finishedWritten b v)).xu.merr = v.xu.merr := finishedWritten_merr
    rw [ht, countRun_bay]
    exact ⟨rfl, rfl, hMoves.device.keeps.run (by decide),
      fun o => by rw [areaRead, areaRead, hMoves.areaAddress, hMerr]⟩

/-- A run lost before is not handed back (R23). -/
theorem Left.of_lost (hl : (v.bay b).run.lost = true) (h : Left b k (handBackUnlessLost b v) t) : Left b k v t := by
  have hv : handBackUnlessLost b v = v := if_pos hl
  rwa [hv] at h

/-- A run handed back is counted (R17, R47). -/
theorem Left.counted (hl : (v.bay b).run.lost = false)
    (hr : (v.bay b).xu.refused = none ∨ (v.bay b).xu.refused = some .record)
    (h : Left b k (handBackUnlessLost b v) t) :
    (∃ f, (t.bay b).status = { statusCounted (v.bay b).run.verdict (v.bay b).status with lampFailed := f }) ∧
      (∀ g, (v.bay b).run.copy.header = some g → g.eventOnFinish = true → t.xu.events.getLsbD (bayNum b) = true) ∧
      Issues (NoHandBack b) (bothWritten b v) t := by
  have hv : handBackUnlessLost b v = countRun b (finishedWritten b v) := by
    rw [← handBack_accepted hr]
    exact if_neg (by simp [hl])
  rw [hv] at h
  obtain ⟨f, hf⟩ := h.status
  rw [countRun_bay] at hf
  refine ⟨⟨f, hf⟩, fun g hg he => ?_, ?_⟩
  · rw [h.events _ (by omega)]
    exact finishedWritten_done hg he
  · exact finishedWritten_handed.trans (.trans (.of_eq rfl) h.handed)

/-- A run that a refused write loses (R21 to R23). -/
theorem Left.failed {x : State} (hx : x.bay b = v.bay b) (hm : x.xu.merr = v.xu.merr) (hl : (v.bay b).run.lost = false)
    (h : Left b k (handBackFails b x) t) :
    ErrorRecorded .writeError (some b) v t ∧ (t.bay b).run.lost = true ∧
      (∃ f q, (t.bay b).status = { (v.bay b).status with
        runLost := true
        lostLabel := lostLabelOf (v.bay b).run q
        lampFailed := f }) ∧
      ((v.bay b).xu.enabled = true → (t.bay b).phase = .halted ∧
        (t.bay b).supply.latched = (v.bay b).supply.latched ||| 16#8 ∧ t.xu.events.getLsbD (4 + bayNum b) = true) ∧
      t.xu.events.getLsbD (bayNum b) = x.xu.events.getLsbD (bayNum b) ∧ Issues (NoHandBack b) x t := by
  obtain ⟨w, q, hBay⟩ := handBackFails_bay (b := b) (s := x) (by rw [hx, hl])
  rw [hx] at hBay
  have hRecorded := handBackFails_recorded (b := b) (s := x)
  obtain ⟨f, hf⟩ := h.status
  have hHalted := h.halted
  have hDone := h.events (bayNum b) (by omega)
  rw [hBay] at hf hHalted
  refine ⟨⟨h.merr.trans (hRecorded.1.trans (by rw [hm])), (h.events 9 (by cases b <;> decide)).trans hRecorded.2⟩,
    h.lost.trans (by rw [hBay]), ⟨f, q, hf⟩, fun he => hHalted he fun h0 => ?_,
    hDone.trans (handBackFails_events (by cases b <;> decide)), handBackFails_handed.trans h.handed⟩
  have hBit := latched_exchange (v.bay b).supply.latched
  rw [show (v.bay b).supply.latched ||| exchangeBit = 0 from h0] at hBit
  exact absurd hBit (by decide)

/-- The hand-back of a run that a refused write loses, by the write (R23). -/
theorem handBackUnlessLost_refused (hl : (v.bay b).run.lost = false) :
    ((v.bay b).xu.refused = some .header → handBackUnlessLost b v = handBackFails b (headerWritten b v)) ∧
      ((v.bay b).xu.refused = some .finished → handBackUnlessLost b v = handBackFails b (finishedWritten b v)) := by
  have hv : handBackUnlessLost b v = handBack b v := if_neg (by simp [hl])
  rw [hv]
  exact ⟨handBack_header, handBack_finished⟩

/-- What a run that is not lost has issued first (R28, R46). -/
theorem Left.first (hl : (v.bay b).run.lost = false) (h : Left b k (handBackUnlessLost b v) t) :
    (issued v t).take (if (v.bay b).xu.refused = some .header then 1 else 2) =
      [headerItem b v, finishedItem b v].take (if (v.bay b).xu.refused = some .header then 1 else 2) := by
  have hBoth (g : Issues (NoHandBack b) (bothWritten b v) t) :
      (issued v t).take 2 = [headerItem b v, finishedItem b v] :=
    g.take (first := [headerItem b v, finishedItem b v]) (by simp [bothWritten, headerWritten, emit, State.modXu])
  by_cases hh : (v.bay b).xu.refused = some .header
  · rw [(handBackUnlessLost_refused hl).1 hh] at h
    obtain ⟨-, -, -, -, -, hIssues⟩ := h.failed headerWritten_bay rfl hl
    rw [if_pos hh]
    exact hIssues.take (first := [headerItem b v]) rfl
  · rw [if_neg hh]
    cases hr : (v.bay b).xu.refused with
    | none => exact hBoth (h.counted hl (.inl hr)).2.2
    | some w =>
      cases w with
      | header => exact absurd hr hh
      | record => exact hBoth (h.counted hl (.inr hr)).2.2
      | finished =>
        rw [(handBackUnlessLost_refused hl).2 hr] at h
        obtain ⟨-, -, -, -, -, hIssues⟩ := h.failed finishedWritten_bay finishedWritten_merr hl
        exact hBoth (finishedWritten_handed.trans hIssues)

end

section
variable {b : Bay} {k : Slot} {s t v : State} (hv : PanelAsks b s v) (h : Left b k (handBackUnlessLost b v) t)
include hv h

/-- The state that follows CLOSING (R45, R47, R48). -/
theorem Left.phases :
    ((s.bay b).xu.enabled = false → (t.bay b).phase = .offline ∧ (t.bay b).supply.latched = 0) ∧
    ((s.bay b).xu.enabled = true → (s.bay b).supply.latched ≠ 0 →
      (s.bay b).xu.refused = none ∨ (s.bay b).xu.refused = some .record ∨ (s.bay b).run.lost = true →
      (t.bay b).phase = .halted ∧ (t.bay b).supply.latched = (s.bay b).supply.latched ∧
      t.xu.events.getLsbD (4 + bayNum b) = true) ∧
    ((s.bay b).xu.enabled = true → (s.bay b).supply.latched = 0 →
      (s.bay b).xu.refused = none ∨ (s.bay b).xu.refused = some .record ∨ (s.bay b).run.lost = true →
      (t.bay b).phase = .idle ∧
      (t.bay b).xu.backToBack = if s.xu.run then some (otherSlot k, areaRead s (slotOffset b (otherSlot k)))
        else (s.bay b).xu.backToBack) := by
  obtain ⟨p, f, -, hBay⟩ := hv.bay
  have hEnabled : ((handBackUnlessLost b v).bay b).xu.enabled = (s.bay b).xu.enabled := by
    rw [handBackUnlessLost_stays.goesOn.bay.enabled, hBay]
  have hKept := handBackUnlessLost_kept (b := b) (v := v)
  have hRead (o : Nat) : areaRead v o = areaRead s o := by rw [areaRead, areaRead, hv.xu]
  rw [hBay, hv.xu] at hKept
  refine ⟨fun he => h.offline (hEnabled.trans he), fun he hl hr => ?_, fun he hl hr => ?_⟩
  · obtain ⟨hSupply, -, -, -⟩ := hKept hr
    have hHalted := h.halted (hEnabled.trans he)
    rw [hSupply] at hHalted
    exact hHalted hl
  · obtain ⟨hSupply, hXu, hRun, hAddress⟩ := hKept hr
    have hIdle := h.idle (hEnabled.trans he)
    rw [hSupply, hXu, hRun, hAddress, hRead] at hIdle
    exact hIdle hl

/-- A run lost before raises no counter and is not written (R23). -/
theorem Left.lostBefore (hl : (s.bay b).run.lost = true) :
    handedBack (t.bay b).status = handedBack (s.bay b).status ∧ Issues (NoHandBack b) s t := by
  obtain ⟨p, f, -, hBay⟩ := hv.bay
  have hLeft := h.of_lost (by rw [hBay]; exact hl)
  obtain ⟨g, hg⟩ := hLeft.status
  rw [hg, hBay]
  exact ⟨rfl, .trans (.of_eq (by rw [hv.xu])) hLeft.handed⟩

/-- A run handed back is counted, with DONE when it asks for it (R17, R25, R47). -/
theorem Left.handedBack {u : Verdict} (hVerdict : (s.bay b).run.verdict = some u) (hl : (s.bay b).run.lost = false)
    (hr : (s.bay b).xu.refused = none ∨ (s.bay b).xu.refused = some .record) :
    (t.bay b).status.finished = (s.bay b).status.finished + 1 ∧
      (t.bay b).status.passed = (s.bay b).status.passed + (if u = .pass then 1 else 0) ∧
      (t.bay b).status.failed = (s.bay b).status.failed + (if u = .fail then 1 else 0) ∧
      ∀ g, (s.bay b).run.copy.header = some g → g.eventOnFinish = true → t.xu.events.getLsbD (bayNum b) = true := by
  obtain ⟨p, f, -, hBay⟩ := hv.bay
  obtain ⟨⟨e, hStatus⟩, hDone, -⟩ := h.counted (by rw [hBay]; exact hl) (by rw [hBay]; exact hr)
  rw [hBay] at hStatus hDone
  rw [hStatus]
  refine ⟨rfl, ?_, ?_, hDone⟩
  · simp only [statusCounted, hVerdict, Option.some.injEq]
    split
    · rfl
    · exact (BitVec.add_zero _).symm
  · simp only [statusCounted, hVerdict, Option.some.injEq]
    split
    · rfl
    · exact (BitVec.add_zero _).symm

/-- A run that a refused header or FINISHED loses (R21 to R23). -/
theorem Left.refusedLast {w : HandBackWrite} (hl : (s.bay b).run.lost = false) (hr : (s.bay b).xu.refused = some w)
    (hw : w ≠ .record) : ErrorRecorded .writeError (some b) s t ∧ (t.bay b).run.lost = true ∧
      (∃ f q, (t.bay b).status = { (s.bay b).status with
        runLost := true
        lostLabel := lostLabelOf (s.bay b).run q
        lampFailed := f }) ∧
      ((s.bay b).xu.enabled = true → (t.bay b).phase = .halted ∧
        (t.bay b).supply.latched = (s.bay b).supply.latched ||| 16#8 ∧ t.xu.events.getLsbD (4 + bayNum b) = true) ∧
      (w = .header → t.xu.events.getLsbD (bayNum b) = s.xu.events.getLsbD (bayNum b) ∧
        Issues (fun i => ∀ a d, i ≠ .write (.finished b) a d) s t) ∧
      (w = .finished → ∀ g, (s.bay b).run.copy.header = some g → g.eventOnFinish = true →
        t.xu.events.getLsbD (bayNum b) = true) := by
  obtain ⟨p, f, -, hBay⟩ := hv.bay
  have hLost : (v.bay b).run.lost = false := by rw [hBay, hl]
  have hRefused : (v.bay b).xu.refused = some w := by rw [hBay, hr]
  obtain ⟨hHeader, hFinished⟩ := handBackUnlessLost_refused hLost
  cases w with
  | record => exact absurd rfl hw
  | header =>
    rw [hHeader hRefused] at h
    obtain ⟨hError, hStays, hStatus, hHalted, hDone, hIssues⟩ := h.failed headerWritten_bay rfl hLost
    rw [hBay] at hStatus hHalted
    obtain ⟨g, q, hStatus⟩ := hStatus
    refine ⟨?_, hStays, ⟨g, q, hStatus⟩, hHalted, fun _ => ⟨hDone.trans ?_, ?_⟩, nofun⟩
    · rwa [ErrorRecorded, hv.xu] at hError
    · show v.xu.events.getLsbD _ = _
      rw [hv.xu]
    · have hFirst : Issues (fun i => ∀ a d, i ≠ .write (.finished b) a d) s (headerWritten b v) :=
        .trans (t := v) (.of_eq (by rw [hv.xu])) (writeArea_issues (by intro a d; simp [areaItem]))
      exact hFirst.trans (hIssues.imp fun i hi a d => (hi a d).2)
  | finished =>
    rw [hFinished hRefused] at h
    obtain ⟨hError, hStays, hStatus, hHalted, hDone, -⟩ := h.failed finishedWritten_bay finishedWritten_merr hLost
    rw [hBay] at hStatus hHalted
    obtain ⟨g, q, hStatus⟩ := hStatus
    refine ⟨?_, hStays, ⟨g, q, hStatus⟩, hHalted, nofun, fun _ c hc he => hDone.trans ?_⟩
    · rwa [ErrorRecorded, hv.xu] at hError
    · exact finishedWritten_done (by rw [hBay]; exact hc) he

end

end Sys2Proof.Machine

namespace Sys2Proof.Machine

open Sys2Proof

/-- The header fields and FINISHED of a run that is not lost come first (R28, R46, R60). -/
theorem Left.header {b : Bay} {k : Slot} {s t v : State} {u : Verdict} {g : Header} (hv : PanelAsks b s v)
    (h : Left b k (handBackUnlessLost b v) t) (hk : (s.bay b).run.slot = some k)
    (hVerdict : (s.bay b).run.verdict = some u) (hl : (s.bay b).run.lost = false)
    (hg : (s.bay b).run.copy.header = some g) (hn : stepCountValid g = true)
    (hr : ∀ i, i < g.stepCount → (s.bay b).run.copy.records[i]? ≠ none) :
    (issued s t).take (if (s.bay b).xu.refused = some .header then 1 else 2) = ([
      areaItem s (.header b) (slotOffset b k + 0x80) (headerFields (s.bay b).run g u),
      areaItem s (.finished b) (slotOffset b k) [3, 0, 0, 0]].take
        (if (s.bay b).xu.refused = some .header then 1 else 2)) := by
  obtain ⟨p, f, -, hBay⟩ := hv.bay
  have hFirst := h.first (by rw [hBay]; exact hl)
  have hIssued : issued v t = issued s t := by rw [issued, issued, hv.xu]
  have hItem (kind : WriteKind) (o : Nat) (d : List Byte) : areaItem v kind o d = areaItem s kind o d := by
    rw [areaItem, areaItem, hv.xu]
  rw [hIssued, headerItem, finishedItem, hItem, hItem, hBay] at hFirst
  rw [← runHeaderBytes_eq hg hn hr hVerdict, ← heldOffset_slot hk]
  exact hFirst

/-- Settles O43: the abort's way into CLOSING, a record refused there, and the way out of it. -/
theorem runsAreHandedBack : Obligations.RunsAreHandedBack := by
  refine ⟨fun s b hs hc hl hp hr hf x hx => ⟨_, exec_up hs rfl, keyAbort_waits_or_counts hc hl hp hr hf hx⟩,
    fun s b hs hc hl hp hn hLost hSlot hr => ⟨_, exec_up hs rfl, ?_⟩,
    fun s refused data attention hs hState hOn hWait e rest hq ho hp hc hw hd hn k hk u hu => ?_⟩
  · have ht : keyAbort b s = enterClosing b .aborted (.abort .operator) 0
        (endAll (s.bay b).run .aborted (.abort .operator) s.rackTime) s := keyAbort_enters hc hl hp
    obtain ⟨h1, h2, h3, h4, h5, h6, h7⟩ := enterClosing_refused (b := b) (verdict := .aborted)
      (cause := .abort .operator) (offending := 0) hLost hr (closingResults_ne_nil hn .aborted (.abort .operator) s.rackTime)
    rw [ht]
    exact ⟨h1, h2, h3, h4, h5, h6, h7.issued⟩
  · have he : exec (.transactionEnd refused data attention) s = .next (stopHead refused data attention s) := by
      have hGoes : transacting s.bus = true := by simp [transacting, hState, hOn, hWait]
      refine (exec_up hs rfl).trans (congrArg _ ?_)
      rw [hGoes, whenever_true]
    obtain ⟨v, hv, h⟩ := stopHead_left hq ho hp hc hw hd hn hk refused data attention
    obtain ⟨hOffline, hHalted, hIdle⟩ := h.phases hv
    refine ⟨_, he, h.slot, h.inFlight, h.next, hOffline, h.refused, hHalted, hIdle, fun hl => ?_, fun w hl hr hne => ?_,
      fun hl hr => h.handedBack hv hu hl hr, fun hl g hg h1 h2 hRecords => ?_⟩
    · obtain ⟨hBack, hIssues⟩ := h.lostBefore hv hl
      exact ⟨congrArg (·.2.2.1) hBack, congrArg (·.2.2.2.1) hBack, congrArg (·.2.2.2.2) hBack, hIssues.issued⟩
    · obtain ⟨hError, hLost, ⟨f, q, hStatus⟩, hPhase, hHeader, hFinished⟩ := h.refusedLast hv hl hr hne
      rw [hStatus]
      refine ⟨hError, hLost, rfl, fun g hg => lostLabelOf_header hg q, rfl, rfl, rfl, hPhase, fun hwh => ?_, hFinished⟩
      obtain ⟨hEvents, hIssues⟩ := hHeader hwh
      exact ⟨hEvents, hIssues.issued⟩
    · exact h.header hv hk hu hl hg (by simp [stepCountValid, h1, h2]) hRecords

end Sys2Proof.Machine

namespace Sys2Proof.Machine

open Sys2Proof

/-! ## What the laws of the run, the supply and the safe state speak of -/

/-- Which other block of the bay may hold something of a step in flight: the supply monitor the settle judgement of a POWER
step, the panel handler the prompt of a PROMPT step. -/
inductive Holder where
  | supply | panel | none

def holder : Work → Holder
  | .power => .supply
  | .prompt => .panel
  | .drive _ _ | .dwell _ | .check _ | .frame | .fixture _ _ _ | .join _ => .none

/-- A step in flight as the laws see it. -/
structure Flying where
  index : Nat
  overlap : Bool
  holder : Holder

def flying (e : InFlight) : Flying := ⟨e.index, e.overlap, holder e.work⟩

/-- A bay as those laws see it, but for what its outputs and its network do. -/
structure LawView where
  phase : Phase
  on : Bool
  retrying : Bool
  settling : Bool
  faulted : Bool
  retries : Nat
  most : Nat
  settle : Option Nat
  safe : Bool
  stopped : Bool
  slot : Option Slot
  lastTaken : Option Slot
  reading : Bool
  next : Nat
  flight : List Flying
  results : List Nat
  prompts : List Nat

def isSettling : RetryPhase → Bool
  | .settling _ => true
  | .none | .offTime _ => false

def lawView (y : BayState) : LawView where
  phase := y.phase
  on := y.supply.on
  retrying := y.supply.retry != .none
  settling := isSettling y.supply.retry
  faulted := y.supply.retryFault.isSome
  retries := y.supply.retryCount
  most := y.supply.setup.retryMax
  settle := y.supply.settle.map fun j => j.step
  safe := y.stim.safe
  stopped := y.net.state == .stopped
  slot := y.run.slot
  lastTaken := y.run.lastTaken
  reading := y.run.load.isSome
  next := y.run.next
  flight := y.run.inFlight.map flying
  results := y.run.results.map fun x => x.index
  prompts := y.panel.prompts.map fun q => q.step

/-- The bay holds no slot (R38, R47, R48). -/
def restPhase (p : Phase) : Prop := p = .offline ∨ p = .idle ∨ p = .halted

/-- The run of the bay is going on, with steps started or to be started (R43). -/
def livePhase (p : Phase) : Prop := p = .running ∨ p = .paused

/-- `SafeLaw`, `RunLaw` and `RetryLaw` as a view has them, with the part of `PromptLaw` that the end of a step rests on: a
prompt is that of a PROMPT step in flight. -/
structure LawView.Holds (v : LawView) : Prop where
  off : v.on = false → v.safe = true
  paused : v.phase = .paused → v.safe = true
  network : v.safe = true → v.stopped = true
  supplied : v.on = true → livePhase v.phase
  retrying : v.retrying = true → v.phase = .paused
  settling : v.settling = true → v.on = true
  held : v.slot = none ↔ restPhase v.phase
  taken : ∀ x, v.slot = some x → v.lastTaken = some x
  four : v.flight.length ≤ 4
  flight : v.flight ≠ [] → livePhase v.phase
  started : ∀ f ∈ v.flight, f.index < v.next
  ordered : ∀ f ∈ v.flight, f.overlap = false → v.next = f.index + 1
  distinctFlight : (v.flight.map Flying.index).Nodup
  distinctResults : v.results.Nodup
  apart : ∀ f ∈ v.flight, f.index ∉ v.results
  ended : livePhase v.phase → ∀ i ∈ v.results, i < v.next
  reads : v.reading = true ↔ v.phase = .loading
  fresh : v.phase = .loading ∨ v.phase = .checking ∨ v.phase = .arming → v.results = [] ∧ v.next = 0
  bounded : v.retries ≤ v.most
  loading : v.phase = .loading → v.retries = 0
  fault : v.faulted = v.retrying
  settle : ∀ i, v.settle = some i → ∃ f ∈ v.flight, f.index = i ∧ f.holder = .supply
  prompts : ∀ i ∈ v.prompts, ∃ f ∈ v.flight, f.index = i ∧ f.holder = .panel

/-- In the safe state the outputs are quiet (R89). -/
def QuietOutputs (u : Stimulus) : Prop :=
  u.safe = true → (∀ i : Fin 2, u.generators[i] = .stopped) ∧ (∀ i : Fin 4, u.levelOut[i] = .opened) ∧ u.lineOut = 0

/-- A STOPPED network is silent (R93). -/
def SilentNet (n : Network) : Prop := n.state = .stopped → n.queue = [] ∧ n.attempt = none

/-- The laws of a bay that go on together through a run. -/
structure BayLaw (y : BayState) : Prop where
  view : (lawView y).Holds
  outputs : QuietOutputs y.stim
  net : SilentNet y.net

theorem mem_flying {l : List InFlight} {f : Flying} : f ∈ l.map flying ↔ ∃ e ∈ l, flying e = f := List.mem_map

theorem retrying_iff {r : RetryPhase} : (r != .none) = true ↔ r ≠ .none := by simp

theorem isSettling_iff {r : RetryPhase} : isSettling r = true ↔ ∃ n, r = .settling n := by
  cases r <;> simp [isSettling]

theorem holder_supply {w : Work} : holder w = .supply ↔ w = .power := by cases w <;> simp [holder]

theorem holder_panel {w : Work} : holder w = .panel ↔ w = .prompt := by cases w <;> simp [holder]

/-- A step in flight of which a block holds something, in the view and in the run. -/
theorem exists_flying {l : List InFlight} {i : Nat} {h : Holder} :
    (∃ f ∈ l.map flying, f.index = i ∧ f.holder = h) ↔ ∃ e ∈ l, e.index = i ∧ holder e.work = h := by
  simp [flying]

theorem flying_indices (l : List InFlight) : (l.map flying).map Flying.index = l.map fun e => e.index := by
  simp [flying, Function.comp_def]

/-- The laws of a lawful bay. -/
theorem BayLaw.of_laws {y : BayState} (hs : SafeLaw y) (hr : RunLaw y) (ht : RetryLaw y) (hp : PromptLaw y) : BayLaw y where
  view :=
    { off := hs.off
      paused := hs.paused
      network := fun h => by simpa [lawView] using hs.network h
      supplied := hs.supplied
      retrying := fun h => hs.retrying (retrying_iff.1 h)
      settling := fun h => by
        obtain ⟨n, hn⟩ := isSettling_iff.1 h
        exact hs.settling n hn
      held := hr.held
      taken := hr.taken
      four := by simpa [lawView] using hr.four
      flight := fun h => hr.flight (by simpa [lawView] using h)
      started := fun f hf => by
        obtain ⟨e, he, rfl⟩ := mem_flying.1 hf
        exact hr.started e he
      ordered := fun f hf => by
        obtain ⟨e, he, rfl⟩ := mem_flying.1 hf
        exact hr.ordered e he
      distinctFlight := (flying_indices _).symm ▸ hr.distinctFlight
      distinctResults := hr.distinctResults
      apart := fun f hf hi => by
        obtain ⟨e, he, rfl⟩ := mem_flying.1 hf
        obtain ⟨x, hx, hxi⟩ := List.mem_map.1 hi
        exact hr.apart e he x hx hxi
      ended := fun h i hi => by
        obtain ⟨x, hx, rfl⟩ := List.mem_map.1 hi
        exact hr.ended h x hx
      reads := by
        have h := hr.reads
        rwa [← Option.isSome_iff_ne_none] at h
      fresh := fun h => by simpa [lawView] using hr.fresh h
      bounded := ht.bounded
      loading := ht.loading
      fault := by
        have h := ht.fault
        rw [← Option.isSome_iff_ne_none, ← retrying_iff] at h
        exact Bool.eq_iff_iff.2 h
      settle := fun i hi => by
        obtain ⟨j, hj, rfl⟩ := Option.map_eq_some_iff.1 hi
        obtain ⟨e, he, h1, h2⟩ := ht.settle j hj
        exact exists_flying.2 ⟨e, he, h1, holder_supply.2 h2⟩
      prompts := fun i hi => by
        obtain ⟨q, hq, rfl⟩ := List.mem_map.1 hi
        obtain ⟨e, he, h1, h2⟩ := hp.flight q hq
        exact exists_flying.2 ⟨e, he, h1, holder_panel.2 h2⟩ }
  outputs h := ⟨hs.pulses h, hs.levels h, hs.lines h⟩
  net := hs.silent

theorem BayLaw.safeLaw {y : BayState} (l : BayLaw y) : SafeLaw y where
  off := l.view.off
  paused := l.view.paused
  pulses h := (l.outputs h).1
  levels h := (l.outputs h).2.1
  lines h := (l.outputs h).2.2
  network h := by simpa [lawView] using l.view.network h
  silent := l.net
  supplied := l.view.supplied
  retrying h := l.view.retrying (retrying_iff.2 h)
  settling n h := l.view.settling (isSettling_iff.2 ⟨n, h⟩)

theorem BayLaw.runLaw {y : BayState} (l : BayLaw y) : RunLaw y where
  held := l.view.held
  taken := l.view.taken
  four := by simpa [lawView] using l.view.four
  flight h := l.view.flight (by simpa [lawView] using h)
  started e he := l.view.started _ (List.mem_map_of_mem he)
  ordered e he := l.view.ordered _ (List.mem_map_of_mem he)
  distinctFlight := flying_indices _ ▸ l.view.distinctFlight
  distinctResults := l.view.distinctResults
  apart e he x hx h := l.view.apart _ (List.mem_map_of_mem he) (List.mem_map.2 ⟨x, hx, h⟩)
  ended h x hx := l.view.ended h _ (List.mem_map_of_mem hx)
  reads := by
    rw [← Option.isSome_iff_ne_none]
    exact l.view.reads
  fresh h := by simpa [lawView] using l.view.fresh h

theorem BayLaw.retryLaw {y : BayState} (l : BayLaw y) : RetryLaw y where
  bounded := l.view.bounded
  loading := l.view.loading
  fault := by
    rw [← Option.isSome_iff_ne_none, ← retrying_iff]
    exact Bool.eq_iff_iff.1 l.view.fault
  settle j hj := by
    obtain ⟨e, he, h1, h2⟩ := exists_flying.1 (l.view.settle j.step (by simp [lawView, hj]))
    exact ⟨e, he, h1, holder_supply.1 h2⟩

theorem BayLaw.not_settling {y : BayState} (l : BayLaw y) (h : y.phase ≠ .paused) :
    isSettling y.supply.retry = false := by
  have hNone : ¬(y.supply.retry != .none) = true := fun hr => h (l.view.retrying hr)
  rw [retrying_iff, not_not] at hNone
  rw [hNone, isSettling]

/-! ## What goes on through a run -/

/-- From one state of a bay to a later one of the same run: the results that stand stay, no step comes back into flight or
changes its kind, and the laws go on to hold. -/
structure BayCarriesOn (y z : BayState) : Prop where
  results : y.run.results <+: z.run.results
  next : y.run.next ≤ z.run.next
  old : ∀ f ∈ (lawView z).flight, f.index < y.run.next →
    ∃ g ∈ (lawView y).flight, g.index = f.index ∧ g.holder = f.holder
  law : BayLaw y → BayLaw z

/-- A bay's run carries on from one state of the part to a later one. -/
def CarriesOn (b : Bay) (s t : State) : Prop := BayCarriesOn (s.bay b) (t.bay b)

theorem BayCarriesOn.refl (y : BayState) : BayCarriesOn y y :=
  ⟨List.prefix_rfl, Nat.le_refl _, fun f hf _ => ⟨f, hf, rfl, rfl⟩, id⟩

theorem BayCarriesOn.trans {x y z : BayState} (h : BayCarriesOn x y) (g : BayCarriesOn y z) : BayCarriesOn x z where
  results := h.results.trans g.results
  next := Nat.le_trans h.next g.next
  old f hf hi := by
    obtain ⟨f', hf', h1, h2⟩ := g.old f hf (Nat.lt_of_lt_of_le hi h.next)
    obtain ⟨f'', hf'', h3, h4⟩ := h.old f' hf' (h1 ▸ hi)
    exact ⟨f'', hf'', h3.trans h1, h4.trans h2⟩
  law l := g.law (h.law l)

/-- A change that the view does not show. -/
theorem BayCarriesOn.of_view {y z : BayState} (hv : lawView z = lawView y) (hr : z.run.results = y.run.results)
    (hq : QuietOutputs y.stim → QuietOutputs z.stim) (hn : SilentNet y.net → SilentNet z.net) : BayCarriesOn y z where
  results := hr ▸ List.prefix_rfl
  next := Nat.le_of_eq (congrArg LawView.next hv).symm
  old f hf _ := ⟨f, hv ▸ hf, rfl, rfl⟩
  law l := ⟨hv ▸ l.view, hq l.outputs, hn l.net⟩

/-- A change of the steps in flight, their results and what else the view shows. -/
theorem BayCarriesOn.of_flight {y z : BayState} (hr : y.run.results <+: z.run.results) (hn : y.run.next ≤ z.run.next)
    (hf : (lawView z).flight ⊆ (lawView y).flight) (hl : BayLaw y → BayLaw z) : BayCarriesOn y z :=
  ⟨hr, hn, fun f h _ => ⟨f, hf h, rfl, rfl⟩, hl⟩

/-- The same change after others, by which the laws hold again. -/
theorem BayCarriesOn.after_flight {x y z : BayState} (h : BayCarriesOn x y) (hr : y.run.results <+: z.run.results)
    (hn : y.run.next ≤ z.run.next) (hf : (lawView z).flight ⊆ (lawView y).flight)
    (hl : BayLaw x → BayLaw y → BayLaw z) : BayCarriesOn x z where
  results := h.results.trans hr
  next := Nat.le_trans h.next hn
  old f hz hi := h.old f (hf hz) hi
  law l := hl l (h.law l)

end Sys2Proof.Machine

namespace Sys2Proof.Machine

open Sys2Proof

/-- A change outside what the laws speak of. -/
theorem BayCarriesOn.same {y z : BayState} (hv : lawView z = lawView y) (hr : z.run.results = y.run.results)
    (hs : z.stim = y.stim) (hn : z.net = y.net) : BayCarriesOn y z :=
  .of_view hv hr (fun h => hs ▸ h) fun h => hn ▸ h

section
variable {b : Bay} {s t u : State}

/-! ### Elementary changes -/

theorem CarriesOn.of_bay (h : t.bay b = s.bay b) : CarriesOn b s t := by
  rw [CarriesOn, h]
  exact .refl _

theorem CarriesOn.trans (h : CarriesOn b s t) (g : CarriesOn b t u) : CarriesOn b s u := BayCarriesOn.trans h g

theorem CarriesOn.refl (b : Bay) (s : State) : CarriesOn b s s := BayCarriesOn.refl _

theorem modBay_carries {f : BayState → BayState} (h : BayCarriesOn (s.bay b) (f (s.bay b))) :
    CarriesOn b s (s.modBay b f) := by
  rwa [CarriesOn, bay_modBay]

theorem iteCarries {c : Prop} [Decidable c] (ht : c → CarriesOn b s t) (hu : ¬c → CarriesOn b s u) :
    CarriesOn b s (if c then t else u) := by
  split
  · exact ht ‹_›
  · exact hu ‹_›

theorem whenever_carries {c : Bool} {f : State → State} (h : c = true → CarriesOn b s (f s)) :
    CarriesOn b s (whenever c f s) :=
  iteCarries h fun _ => .refl b s

theorem forAll_carries {α : Type} {xs : List α} {f : α → State → State} (h : ∀ x t, CarriesOn b t (f x t)) :
    CarriesOn b s (forAll xs f s) :=
  forAll_keeps (P := fun t => CarriesOn b s t) xs f s (.refl b s) fun x _ t ht => ht.trans (h x t)

theorem modBayXu_carries (f : BayExchange → BayExchange) : CarriesOn b s (s.modBayXu b f) :=
  modBay_carries (.same rfl rfl rfl rfl)

theorem modStatus_carries (f : BayStatus → BayStatus) : CarriesOn b s (s.modStatus b f) :=
  modBay_carries (.same rfl rfl rfl rfl)

/-- A change of the panel that keeps the prompts' steps. -/
theorem modPanel_carries {f : Panel → Panel}
    (h : (f (s.bay b).panel).prompts.map (fun q => q.step) = (s.bay b).panel.prompts.map fun q => q.step) :
    CarriesOn b s (s.modPanel b f) :=
  modBay_carries (.same (by simp only [lawView, h]) rfl rfl rfl)

/-- Prompts that leave the queue. -/
theorem modPanel_carries_fewer {f : Panel → Panel} (h : (f (s.bay b).panel).prompts ⊆ (s.bay b).panel.prompts) :
    CarriesOn b s (s.modPanel b f) := by
  refine modBay_carries (.of_flight List.prefix_rfl (Nat.le_refl _) (List.Subset.refl _) fun l => ⟨?_, l.outputs, l.net⟩)
  exact { l.view with prompts := fun i hi => l.view.prompts i (List.map_subset _ h hi) }

/-- A change of the run engine that the view does not show. -/
theorem modRun_carries {f : RunEngine → RunEngine}
    (hv : lawView { s.bay b with run := f (s.bay b).run } = lawView (s.bay b))
    (hr : (f (s.bay b).run).results = (s.bay b).run.results) : CarriesOn b s (s.modRun b f) :=
  modBay_carries (.same hv hr rfl rfl)

/-- A change of entries in flight that leaves the steps and what other blocks hold of them. -/
theorem mapFlight_carries {f : InFlight → InFlight} (h : ∀ e, flying (f e) = flying e) :
    CarriesOn b s (s.modRun b fun r => { r with inFlight := r.inFlight.map f }) := by
  refine modRun_carries ?_ rfl
  simp only [lawView, List.map_map, Function.comp_def, h]

theorem modInFlight_carries {f : InFlight → InFlight} (i : Nat) (h : ∀ e, flying (f e) = flying e) :
    CarriesOn b s (s.modInFlight b i f) :=
  mapFlight_carries fun e => by
    split
    · exact h e
    · rfl

/-- A change of the supply monitor that the view does not show. -/
theorem modSupply_carries {f : Supply → Supply}
    (hv : lawView { s.bay b with supply := f (s.bay b).supply } = lawView (s.bay b)) : CarriesOn b s (s.modSupply b f) :=
  modBay_carries (.same hv rfl rfl rfl)

/-- A change of the stimulus unit that keeps the safe state. -/
theorem modStim_carries {f : Stimulus → Stimulus} (hs : (f (s.bay b).stim).safe = (s.bay b).stim.safe)
    (hq : QuietOutputs (s.bay b).stim → QuietOutputs (f (s.bay b).stim)) : CarriesOn b s (s.modStim b f) :=
  modBay_carries (.of_view (by simp only [lawView, hs]) rfl hq id)

/-- A change of the network that keeps it STOPPED or not, and silent. -/
theorem modNet_carries {f : Network → Network}
    (hs : (f (s.bay b).net).state = .stopped ↔ (s.bay b).net.state = .stopped)
    (hn : SilentNet (s.bay b).net → SilentNet (f (s.bay b).net)) : CarriesOn b s (s.modNet b f) :=
  modBay_carries (.of_view (by simp only [lawView, LawView.mk.injEq, and_true, beq_eq_beq, hs]) rfl id hn)

theorem QuietOutputs.of_eq {u v : Stimulus} (hs : v.safe = u.safe) (hg : v.generators = u.generators)
    (hl : v.levelOut = u.levelOut) (ho : v.lineOut = u.lineOut) (h : QuietOutputs u) : QuietOutputs v := by
  rwa [QuietOutputs, hs, hg, hl, ho]

theorem SilentNet.of_eq {m n : Network} (hs : n.state = m.state) (hq : n.queue = m.queue) (ha : n.attempt = m.attempt)
    (h : SilentNet m) : SilentNet n := by
  rwa [SilentNet, hs, hq, ha]

/-- A change of the stimulus unit apart from its outputs. -/
theorem modStim_carries_quiet {f : Stimulus → Stimulus} (hs : (f (s.bay b).stim).safe = (s.bay b).stim.safe)
    (hg : (f (s.bay b).stim).generators = (s.bay b).stim.generators)
    (hl : (f (s.bay b).stim).levelOut = (s.bay b).stim.levelOut)
    (ho : (f (s.bay b).stim).lineOut = (s.bay b).stim.lineOut) : CarriesOn b s (s.modStim b f) :=
  modStim_carries hs (.of_eq hs hg hl ho)

/-- A change of the network apart from its state, its queue and its attempt. -/
theorem modNet_carries_quiet {f : Network → Network} (hs : (f (s.bay b).net).state = (s.bay b).net.state)
    (hq : (f (s.bay b).net).queue = (s.bay b).net.queue) (ha : (f (s.bay b).net).attempt = (s.bay b).net.attempt) :
    CarriesOn b s (s.modNet b f) :=
  modNet_carries (by rw [hs]) (.of_eq hs hq ha)

/-! ### The stream, the status blocks and the bus queue -/

theorem writeArea_carries (k : WriteKind) (o : Nat) (d : List Byte) : CarriesOn b s (writeArea k o d s) :=
  .of_bay (writeArea_bay ..)

theorem setEvent_carries (n : Nat) : CarriesOn b s (setEvent n s) := .of_bay (setEvent_bay ..)

theorem recordError_carries (k : ErrorKind) (o : Option Bay) : CarriesOn b s (recordError k o s) :=
  .of_bay (recordError_bay ..)

theorem triggerBay_carries : CarriesOn b s (triggerBay b s) := by
  rw [CarriesOn, triggerBay_self]
  exact .same rfl rfl rfl rfl

theorem setWaiting_carries (w : Option Slot) : CarriesOn b s (setWaiting b w s) :=
  iteCarries (fun _ => .refl b s) fun _ => (modBayXu_carries _).trans triggerBay_carries

theorem addLatched_carries (f : FaultSet) : CarriesOn b s (addLatched b f s) :=
  iteCarries (fun _ => .refl b s) fun _ => CarriesOn.trans (modSupply_carries rfl) triggerBay_carries

theorem clearLatched_carries : CarriesOn b s (clearLatched b s) :=
  iteCarries (fun _ => .refl b s) fun _ => CarriesOn.trans (modSupply_carries rfl) triggerBay_carries

theorem addReported_carries (f : FaultSet) : CarriesOn b s (addReported b f s) :=
  iteCarries (fun _ => .refl b s) fun _ => CarriesOn.trans (modSupply_carries rfl) triggerBay_carries

theorem echoBay_carries (seq : Word16) (r : EchoResult) : CarriesOn b s (echoBay b seq r s) :=
  (modStatus_carries _).trans triggerBay_carries

theorem statusWriteEnd_carries : CarriesOn b s (statusWriteEnd (some b) s) := by
  simp only [statusWriteEnd]
  split
  · exact .refl b s
  · exact modBayXu_carries _
  · exact (modBayXu_carries _).trans (writeArea_carries ..)

theorem PanelAsks.carries (h : PanelAsks b s t) : CarriesOn b s t := by
  obtain ⟨p, f, hp, hb⟩ := h.bay
  rw [CarriesOn, hb]
  exact .same (by simp only [lawView, hp]) rfl rfl rfl

theorem busRequest_carries {e : BusEntry} (h : busRequest e s = some t) : CarriesOn b s t :=
  (busRequest_asks h).carries

theorem removeEntries_carries (test : BusEntry → Bool) : CarriesOn b s (removeEntries b test s) := by
  obtain ⟨w, hw⟩ := removeEntries_bay (b := b) (s := s) test
  rw [CarriesOn, hw]
  exact .same rfl rfl rfl rfl

/-! ### The stimulus unit -/

theorem flying_flagEntry (p : Nat) (e : InFlight) : flying (flagEntry p e) = flying e := by
  unfold flagEntry
  split <;> rfl

theorem flagClamped_carries (c : Fin 14) : CarriesOn b s (flagClamped b c s) := by
  unfold flagClamped
  split
  · exact .refl b s
  · exact CarriesOn.trans (modStim_carries_quiet rfl rfl rfl rfl) (modInFlight_carries _ (flying_flagEntry _))

theorem computeFrequency_carries (i : Fin 2) : CarriesOn b s (computeFrequency b i s) := by
  have h {r} : CarriesOn b s (s.modStim b fun u => { u with frequency := tabSet u.frequency i r }) :=
    modStim_carries_quiet rfl rfl rfl rfl
  exact iteCarries (fun _ => h.trans (flagClamped_carries _)) fun _ => h

/-- In the safe state no generator starts (R81). -/
theorem startGenerator_safe (u : Stimulus) (i : Fin 2) :
    (startGenerator u i).safe = u.safe ∧ (QuietOutputs u → QuietOutputs (startGenerator u i)) := by
  unfold startGenerator
  split
  · next hSafe => exact ⟨rfl, fun _ h => absurd (hSafe.symm.trans h) nofun⟩
  · exact ⟨rfl, id⟩

theorem foldl_safe {α : Type} (f : Stimulus → α → Stimulus)
    (h : ∀ u x, (f u x).safe = u.safe ∧ (QuietOutputs u → QuietOutputs (f u x))) (xs : List α) (u : Stimulus) :
    (xs.foldl f u).safe = u.safe ∧ (QuietOutputs u → QuietOutputs (xs.foldl f u)) := by
  induction xs generalizing u with
  | nil => exact ⟨rfl, id⟩
  | cons x rest ih => exact ⟨(ih _).1.trans (h u x).1, fun hq => (ih _).2 ((h u x).2 hq)⟩

/-- In the safe state a level output is made OPEN, whatever its form (R83, R89). -/
theorem QuietOutputs.setLevel {u v : Stimulus} {i : Fin 4} {o : LevelOut} (hs : v.safe = u.safe)
    (hg : v.generators = u.generators) (hl : v.levelOut = tabSet u.levelOut i o) (ho : v.lineOut = u.lineOut)
    (hOpen : u.safe = true → o = .opened) (h : QuietOutputs u) : QuietOutputs v := by
  intro hSafe
  rw [hs] at hSafe
  obtain ⟨h1, h2, h3⟩ := h hSafe
  refine ⟨hg ▸ h1, fun j => ?_, ho ▸ h3⟩
  rw [hl, getElem_tabSet]
  split
  · exact hOpen hSafe
  · exact h2 j

theorem setLevel_carries (i : Fin 4) : CarriesOn b s (setLevel b i s) := by
  simp only [setLevel]
  split
  · exact modStim_carries rfl (.setLevel rfl rfl rfl rfl fun _ => rfl)
  · next hSafe =>
    split
    · exact modStim_carries rfl (.setLevel rfl rfl rfl rfl fun _ => rfl)
    · exact modStim_carries rfl (.setLevel rfl rfl rfl rfl fun h => absurd h hSafe)
    · have h {o : LevelOut} {j : Option Nat} : CarriesOn b s (s.modStim b fun u =>
          { u with levelOut := tabSet u.levelOut i o, stair := tabSet u.stair i j }) :=
        modStim_carries rfl (.setLevel rfl rfl rfl rfl fun h => absurd h hSafe)
      exact iteCarries (fun _ => h.trans (flagClamped_carries _)) fun _ => h

theorem convertAll_carries : CarriesOn b s (convertAll b s) := by
  have h (t : State) := foldl_safe startGenerator startGenerator_safe (indices 2) (t.bay b).stim
  exact (forAll_carries fun _ _ => computeFrequency_carries _).trans
    (CarriesOn.trans (modStim_carries (h _).1 (h _).2) (forAll_carries fun _ _ => setLevel_carries _))

/-- A generator in the safe state stays STOPPED at the end of a period (R81, R89). -/
theorem endPeriod_safe (u : Stimulus) (i : Fin 2) :
    (endPeriod u i).safe = u.safe ∧ (QuietOutputs u → QuietOutputs (endPeriod u i)) := by
  unfold endPeriod
  split
  · exact ⟨rfl, id⟩
  · next p g hg =>
    have h {v : Stimulus} (hs : v.safe = u.safe) : QuietOutputs u → QuietOutputs v :=
      fun hq h => absurd (hg.symm.trans ((hq (hs ▸ h)).1 i)) nofun
    split <;> exact ⟨rfl, h rfl⟩

/-- A change of the stimulus unit that leaves its outputs as they are. -/
structure SameOutputs (u v : Stimulus) : Prop where
  safe : v.safe = u.safe
  generators : v.generators = u.generators
  levelOut : v.levelOut = u.levelOut
  lineOut : v.lineOut = u.lineOut

theorem SameOutputs.refl (u : Stimulus) : SameOutputs u u := ⟨rfl, rfl, rfl, rfl⟩

theorem SameOutputs.trans {u v w : Stimulus} (h : SameOutputs u v) (g : SameOutputs v w) : SameOutputs u w :=
  ⟨g.safe.trans h.safe, g.generators.trans h.generators, g.levelOut.trans h.levelOut, g.lineOut.trans h.lineOut⟩

theorem foldl_outputs {α : Type} (f : Stimulus → α → Stimulus) (h : ∀ u x, SameOutputs u (f u x)) (xs : List α)
    (u : Stimulus) : SameOutputs u (xs.foldl f u) := by
  induction xs generalizing u with
  | nil => exact .refl u
  | cons x rest ih => exact (h u x).trans (ih _)

theorem SameOutputs.carries {f : Stimulus → Stimulus} (h : SameOutputs (s.bay b).stim (f (s.bay b).stim)) :
    CarriesOn b s (s.modStim b f) :=
  modStim_carries_quiet h.safe h.generators h.levelOut h.lineOut

theorem setForm_outputs (c : Fin 14) (kind : ActKind) (u : Stimulus) : SameOutputs u (setForm c kind u) := by
  unfold setForm
  split
  · exact .refl u
  · split <;> exact ⟨rfl, rfl, rfl, rfl⟩

theorem advanceChannel_outputs (u : Stimulus) (c : Fin 14) : SameOutputs u (advanceChannel u c) := by
  unfold advanceChannel
  split
  · exact .refl u
  · split <;> exact ⟨rfl, rfl, rfl, rfl⟩

theorem handChannel_outputs (here : Handed → Bool) (u : Stimulus) (c : Fin 14) :
    SameOutputs u (handChannel here u c) := by
  rcases handChannel_cases here u c with h | ⟨a, v, -, -, h⟩ <;> rw [h] <;> exact ⟨rfl, rfl, rfl, rfl⟩

theorem advanceAll_outputs (atStart : Nat → Bool) (here : Handed → Bool) (u : Stimulus) :
    SameOutputs u (advanceAll atStart here u) := by
  refine foldl_outputs _ (fun v c => ?_) _ _
  split
  · exact .refl v
  · split
    · exact handChannel_outputs ..
    · exact advanceChannel_outputs ..

theorem handStopped_outputs (here : Handed → Bool) (u : Stimulus) : SameOutputs u (handStopped here u) := by
  refine foldl_outputs _ (fun v c => ?_) _ _
  split <;> exact ⟨rfl, rfl, rfl, rfl⟩

/-! ### The network emulator -/

theorem flagPacked_carries (e : Fin 16) : CarriesOn b s (flagPacked b e s) :=
  forAll_carries fun _ _ => iteCarries (fun _ => flagClamped_carries _) fun _ => .refl _ _

theorem buildFrame_carries (e : Fin 16) (probe : Bool) : CarriesOn b s (buildFrame b e probe s).2 := by
  simp only [buildFrame]
  exact CarriesOn.trans (flagPacked_carries e) (modNet_carries_quiet rfl rfl rfl)

/-- The network of a bay with its frame built: STOPPED where it was. -/
theorem flagClamped_net (c : Fin 14) : ((flagClamped b c s).bay b).net = (s.bay b).net := by
  unfold flagClamped
  split
  · rfl
  · simp [State.modInFlight]

theorem flagPacked_net (e : Fin 16) : ((flagPacked b e s).bay b).net = (s.bay b).net :=
  forAll_keeps (P := fun t => (t.bay b).net = (s.bay b).net) _ _ s rfl fun _ _ t ht => by
    dsimp only
    split
    · rw [flagClamped_net, ht]
    · exact ht

theorem buildFrame_state (e : Fin 16) (probe : Bool) :
    ((buildFrame b e probe s).2.bay b).net.state = (s.bay b).net.state := by
  simp [buildFrame, flagPacked_net]

/-- Frames join the queue of a network that is not STOPPED only. -/
theorem SilentNet.of_ne_stopped {n : Network} (h : n.state ≠ .stopped) : SilentNet n := fun hs => absurd hs h

theorem offerFrame_state (f : QFrame) (n : Network) : (offerFrame f n).state = n.state := by
  unfold offerFrame
  split
  · rfl
  · split <;> rfl

/-- A change of a network that is not STOPPED, nor by it. -/
theorem modNet_carries_on {f : Network → Network} (hs : (s.bay b).net.state ≠ .stopped)
    (hf : (f (s.bay b).net).state ≠ .stopped) : CarriesOn b s (s.modNet b f) :=
  modNet_carries (by simp [hs, hf]) fun _ => .of_ne_stopped hf

theorem releaseEntry_carries (e : Fin 16) : CarriesOn b s (releaseEntry b e s) := by
  simp only [releaseEntry]
  have h1 : CarriesOn b s (s.modNet b fun n => { n with work := tabSet n.work e { n.work[e] with due := false } }) :=
    modNet_carries_quiet rfl rfl rfl
  refine iteCarries (fun hc => h1.trans ?_) fun _ => h1
  refine iteCarries (fun hLive => (buildFrame_carries e false).trans ?_) fun _ => buildFrame_carries e false
  have hState : ((buildFrame b e false (s.modNet b fun n =>
      { n with work := tabSet n.work e { n.work[e] with due := false } })).2.bay b).net.state ≠ .stopped := by
    simp [buildFrame_state, hLive]
  exact modNet_carries_on hState (by rwa [offerFrame_state])

theorem startAttempt_carries : CarriesOn b s (s.modNet b startAttempt) := by
  have h (n : Network) : (startAttempt n).state = n.state ∧ (SilentNet n → SilentNet (startAttempt n)) := by
    unfold startAttempt
    split
    · exact ⟨rfl, id⟩
    · exact ⟨rfl, id⟩
    · next hs =>
      split
      · exact ⟨rfl, id⟩
      · exact ⟨rfl, fun _ h => absurd h hs⟩
  exact modNet_carries (by rw [(h _).1]) (h _).2

/-- A network goes on: it does not become STOPPED or leave that state, and a silent one stays silent. -/
structure NetGoesOn (m n : Network) : Prop where
  stopped : n.state = .stopped ↔ m.state = .stopped
  silent : SilentNet m → SilentNet n

theorem NetGoesOn.refl (n : Network) : NetGoesOn n n := ⟨.rfl, id⟩

theorem NetGoesOn.trans {l m n : Network} (h : NetGoesOn l m) (g : NetGoesOn m n) : NetGoesOn l n :=
  ⟨g.stopped.trans h.stopped, fun hl => g.silent (h.silent hl)⟩

theorem NetGoesOn.of_eq {m n : Network} (hs : n.state = m.state) (hq : n.queue = m.queue)
    (ha : n.attempt = m.attempt) : NetGoesOn m n :=
  ⟨by rw [hs], .of_eq hs hq ha⟩

theorem NetGoesOn.of_ne {m n : Network} (hm : m.state ≠ .stopped) (hn : n.state ≠ .stopped) : NetGoesOn m n :=
  ⟨by simp [hm, hn], fun _ => .of_ne_stopped hn⟩

theorem NetGoesOn.changeNet {f : Network → Network} (h : NetGoesOn (s.bay b).net (f (s.bay b).net)) :
    CarriesOn b s (changeNet b f s) :=
  iteCarries (fun _ => modNet_carries h.stopped h.silent) fun _ =>
    CarriesOn.trans (modNet_carries h.stopped h.silent) triggerBay_carries

/-- The end of an attempt changes the network's state between LIVE and NO_PARTNER only (R104 to R106). -/
theorem attemptCount_goesOn (now : RackTime) (probe : Bool) (o : AttemptOutcome) (n : Network) :
    NetGoesOn n (attemptCount now probe o n) := by
  unfold attemptCount
  split
  · next h =>
    split
    · exact .of_ne (by simp [h]) (by simp [partnerFound])
    · exact .of_eq rfl rfl rfl
  · exact .of_eq rfl rfl rfl
  · exact .refl n
  · next h =>
    split
    · exact .of_ne (by simp [h]) (by simp [partnerLost])
    · exact .of_eq rfl rfl rfl
  · exact .refl n

theorem endAttempt_goesOn (now : RackTime) (o : AttemptOutcome) (n : Network) : NetGoesOn n (endAttempt now o n) := by
  simp only [endAttempt]
  split
  · exact .refl n
  · next a ha =>
    have hNone {q : List QFrame} : NetGoesOn n { n with attempt := none, queue := q } :=
      ⟨.rfl, fun h hs => absurd (ha.symm.trans (h hs).2) nofun⟩
    split
    · exact hNone.trans (attemptCount_goesOn ..)
    · exact hNone.trans (attemptCount_goesOn ..)

theorem receive_goesOn (now : RackTime) (f : RxFrame) (n : Network) : NetGoesOn n (receive now f n) := by
  unfold receive
  split
  · exact .refl n
  · next h =>
    have hFound : NetGoesOn n (if n.state = .noPartner then partnerFound n else n) := by
      split
      · exact .of_ne h (by simp [partnerFound])
      · exact .refl n
    dsimp only
    generalize (if n.state = .noPartner then partnerFound n else n) = m at hFound ⊢
    refine hFound.trans ?_
    split
    · exact .refl _
    · exact .of_eq rfl rfl rfl

theorem probeExpiry_carries : CarriesOn b s (probeExpiry b s) := by
  unfold probeExpiry
  split
  · exact .refl b s
  · next t ht =>
    have hState : (s.bay b).net.state ≠ .stopped := by
      unfold probeDue at ht
      split at ht
      · next h _ => simp [h]
      · cases ht
    refine CarriesOn.trans (t := s.modNet b fun n => { n with probeTimer := some (t + BitVec.ofNat 32 probePeriod) })
      (modNet_carries_quiet rfl rfl rfl) ?_
    simp only [makeProbe]
    split
    · refine CarriesOn.trans (buildFrame_carries _ _) (modNet_carries_on ?_ ?_) <;> simpa [buildFrame_state] using hState
    · exact .refl _ _

theorem dropWaiting_goesOn (e : Fin 16) (n : Network) : NetGoesOn n (dropWaiting e n) := by
  unfold dropWaiting
  split
  · exact .refl n
  · exact ⟨.rfl, fun h hs => ⟨by simp [(h hs).1], (h hs).2⟩⟩

theorem frameAction_goesOn (now : RackTime) (e : Fin 16) (act : FrameAction) (n : Network) :
    NetGoesOn n (frameAction now e act n) := by
  have hWork {w : Vector EntryWork 16} : NetGoesOn n { n with work := w } := .of_eq rfl rfl rfl
  simp only [frameAction]
  split
  · split
    · exact .refl n
    · exact hWork
  · split
    · exact hWork.trans (dropWaiting_goesOn ..)
    · exact .refl n
  · exact hWork
  · split
    · exact hWork.trans (dropWaiting_goesOn ..)
    · exact hWork

end

end Sys2Proof.Machine

namespace Sys2Proof.Machine

open Sys2Proof

section
variable {b : Bay} {s t : State}

/-! ### The supply output and the safe state -/

theorem quietOutputs_stimSafe (u : Stimulus) : QuietOutputs (stimSafe u) := by
  refine fun _ => ⟨fun i => ?_, fun i => ?_, rfl⟩ <;> simp [stimSafe]

theorem silentNet_netStopped (n : Network) : SilentNet (netStopped n) := fun _ => ⟨rfl, rfl⟩

/-- A bay whose outputs and network go quiet, with what else its view shows. -/
theorem BayLaw.quiet {z : BayState} {u : Stimulus} {n : Network} (hs : z.stim = stimSafe u) (hn : z.net = netStopped n)
    (hv : (lawView z).Holds) : BayLaw z :=
  ⟨hv, hs ▸ quietOutputs_stimSafe u, hn ▸ silentNet_netStopped n⟩

theorem enterSafe_carries : CarriesOn b s (enterSafe b s) := by
  obtain ⟨w, hw⟩ := enterSafe_bay (b := b) (s := s)
  rw [CarriesOn, hw]
  refine .of_flight List.prefix_rfl (Nat.le_refl _) (List.Subset.refl _) fun l => ?_
  exact .quiet rfl rfl { l.view with off := fun _ => rfl, paused := fun _ => rfl, network := fun _ => rfl }

/-- The bay at a switch-off: the outputs quiet, and the supply monitor without its output (R144). -/
theorem switchOff_bay (keep : Bool) : switchOff b keep s = s ∧ (s.bay b).supply.on = false ∨
    ∃ w, (switchOff b keep s).bay b = { s.bay b with
      supply := supplyOff keep (s.bay b).supply
      stim := stimSafe (s.bay b).stim
      net := netStopped (s.bay b).net
      xu := { (s.bay b).xu with write := w } } := by
  unfold switchOff
  split
  · obtain ⟨w, hw⟩ := enterSafe_bay (b := b) (s := s.modSupply b (supplyOff keep))
    exact .inr ⟨w, by rw [hw, bay_modSupply]⟩
  · next h => exact .inl ⟨rfl, by simpa using h⟩

/-- A switch-off of a bay whose supply waits for no settle of a retry (R144). -/
theorem switchOff_after (h : CarriesOn b s t) (keep : Bool)
    (hs : BayLaw (s.bay b) → BayLaw (t.bay b) → isSettling (t.bay b).supply.retry = false) :
    CarriesOn b s (switchOff b keep t) := by
  rcases switchOff_bay (b := b) (s := t) keep with ⟨ht, -⟩ | ⟨w, hw⟩
  · rwa [ht]
  rw [CarriesOn, hw]
  refine .after_flight h List.prefix_rfl (Nat.le_refl _) (List.Subset.refl _) fun l l' => ?_
  exact .quiet rfl rfl { l'.view with
    off := fun _ => rfl
    paused := fun _ => rfl
    network := fun _ => rfl
    supplied := nofun
    settling := fun h => absurd ((hs l l').symm.trans h) nofun
    settle := by cases keep <;> [nofun; exact l'.view.settle] }

/-! ### The way through CLOSING -/

theorem settlePending_carries (c : Condition) : CarriesOn b s (settlePending b c s) := by
  simp only [settlePending]
  split
  · refine CarriesOn.trans (t := s.modSupply b fun p =>
      { p with watches := condSet p.watches c { condGet p.watches c with pending := false } })
      (modSupply_carries rfl) ?_
    split
    · exact addLatched_carries _
    · exact addLatched_carries _
    · exact addReported_carries _
    · exact .refl b _
  · exact .refl b s

theorem loseRun_carries : CarriesOn b s (loseRun b s) := by
  cases hl : (s.bay b).run.lost with
  | true =>
    rw [loseRun, if_pos hl]
    exact .refl b s
  | false =>
    obtain ⟨w, hw⟩ := loseRun_bay hl
    rw [CarriesOn, hw]
    exact .same rfl rfl rfl rfl

theorem handBackFails_carries : CarriesOn b s (handBackFails b s) :=
  (recordError_carries _ _).trans (loseRun_carries.trans (addLatched_carries _))

theorem writeFinished_carries : CarriesOn b s (writeFinished b s) := .of_bay (writeFinished_bay b s b)

theorem countRun_carries : CarriesOn b s (countRun b s) := modStatus_carries _

theorem handBack_carries : CarriesOn b s (handBack b s) := by
  simp only [handBack]
  split
  · exact (writeArea_carries ..).trans handBackFails_carries
  · exact (writeArea_carries ..).trans (writeFinished_carries.trans handBackFails_carries)
  · exact (writeArea_carries ..).trans (writeFinished_carries.trans countRun_carries)
  · exact (writeArea_carries ..).trans (writeFinished_carries.trans countRun_carries)

theorem handBackUnlessLost_carries : CarriesOn b s (handBackUnlessLost b s) :=
  iteCarries (fun _ => .refl b s) fun _ => handBack_carries

/-- In CLOSING and with no slot held nothing of a run goes on. -/
def outOfRun (p : Phase) : Prop := p = .closing ∨ restPhase p

theorem outOfRun_not_live {p : Phase} (h : outOfRun p) : ¬livePhase p := by
  rcases h with rfl | rfl | rfl | rfl <;> simp [livePhase]

theorem LawView.Holds.flight_nil {v : LawView} (l : v.Holds) (h : ¬livePhase v.phase) : v.flight = [] :=
  Classical.not_not.1 fun hf => h (l.flight hf)

/-- A bay that is out of its run comes to hold no slot (R38, R47, R48). -/
theorem LawView.Holds.rests {v : LawView} (l : v.Holds) (h : outOfRun v.phase) {p : Phase} (hp : restPhase p) :
    { v with phase := p, slot := none, flight := [] }.Holds := by
  have hLive : ¬livePhase v.phase := outOfRun_not_live h
  have hNil : v.flight = [] := l.flight_nil hLive
  have hOut : p ≠ .paused ∧ p ≠ .loading ∧ p ≠ .checking ∧ p ≠ .arming ∧ ¬livePhase p := by
    rcases hp with rfl | rfl | rfl <;> simp [livePhase]
  have hLoading : v.phase ≠ .loading := by
    rcases h with h | h | h | h <;> simp [h]
  exact {
    off := l.off
    paused := fun h => absurd h hOut.1
    network := l.network
    supplied := fun h => absurd (l.supplied h) hLive
    retrying := fun h => absurd (.inr (l.retrying h)) hLive
    settling := l.settling
    held := by simp [hp]
    taken := nofun
    four := by simp
    flight := by simp
    started := nofun
    ordered := nofun
    distinctFlight := List.nodup_nil
    distinctResults := l.distinctResults
    apart := nofun
    ended := fun h => absurd h hOut.2.2.2.2
    reads := by simpa [hOut.2.1, hLoading] using l.reads
    fresh := fun h => by simp [hOut] at h
    bounded := l.bounded
    loading := fun h => absurd h hOut.2.1
    fault := l.fault
    settle := fun i hi => by
      obtain ⟨f, hf, -⟩ := l.settle i hi
      rw [hNil] at hf
      cases hf
    prompts := fun i hi => by
      obtain ⟨f, hf, -⟩ := l.prompts i hi
      rw [hNil] at hf
      cases hf }

/-- A bay that is out of its run with its slot and its steps freed. -/
theorem BayCarriesOn.freed {y z : BayState} {p : Phase} (h : outOfRun y.phase) (hp : restPhase p)
    (hv : lawView z = { lawView y with phase := p, slot := none, flight := [] }) (hr : z.run.results = y.run.results)
    (hs : z.stim = y.stim) (hn : z.net = y.net) : BayCarriesOn y z :=
  .of_flight (hr ▸ List.prefix_rfl) (Nat.le_of_eq (congrArg LawView.next hv).symm) (by rw [hv]; exact List.nil_subset _)
    fun l => ⟨hv ▸ l.view.rests h hp, hs ▸ l.outputs, hn ▸ l.net⟩

/-- A bay that holds no slot goes to another such state. -/
theorem BayCarriesOn.rests {y z : BayState} {p : Phase} (h : restPhase y.phase) (hp : restPhase p)
    (hv : lawView z = { lawView y with phase := p }) (hr : z.run.results = y.run.results) (hs : z.stim = y.stim)
    (hn : z.net = y.net) : BayCarriesOn y z := by
  refine .of_flight (hr ▸ List.prefix_rfl) (Nat.le_of_eq (congrArg LawView.next hv).symm)
    (by rw [hv]; exact List.Subset.refl _) fun l => ⟨?_, hs ▸ l.outputs, hn ▸ l.net⟩
  have hFree := l.view.rests (.inr h) hp
  have hNil := l.view.flight_nil (outOfRun_not_live (.inr h))
  have hSlot : (lawView y).slot = none := l.view.held.2 h
  rw [← hNil, ← hSlot] at hFree
  rwa [hv]

theorem setPhase_rests_carries {p : Phase} (h : restPhase (s.bay b).phase) (hp : restPhase p) :
    CarriesOn b s (setPhase b p s) := by
  rw [CarriesOn, setPhase_self]
  exact .rests h hp rfl rfl rfl rfl

theorem goOffline_bay : ∃ w, (goOffline b s).bay b = { s.bay b with
    phase := .offline
    supply := { (s.bay b).supply with latched := 0 }
    xu := { (s.bay b).xu with write := w } } := by
  obtain ⟨w, hw⟩ := clearLatched_bay (b := b) (s := s)
  exact ⟨_, by rw [goOffline, setPhase_self, hw]⟩

theorem goHalted_bay : ∃ w, (goHalted b s).bay b = { s.bay b with
    phase := .halted
    xu := { (s.bay b).xu with write := w } } :=
  ⟨_, by rw [goHalted, setEvent_bay, setPhase_self]⟩

theorem goOffline_carries (h : restPhase (s.bay b).phase) : CarriesOn b s (goOffline b s) := by
  obtain ⟨w, hw⟩ := goOffline_bay (b := b) (s := s)
  rw [CarriesOn, hw]
  exact .rests (p := .offline) h (.inl rfl) rfl rfl rfl rfl

theorem goHalted_carries (h : restPhase (s.bay b).phase) : CarriesOn b s (goHalted b s) := by
  obtain ⟨w, hw⟩ := goHalted_bay (b := b) (s := s)
  rw [CarriesOn, hw]
  exact .rests (p := .halted) h (.inr (.inr rfl)) rfl rfl rfl rfl

theorem readBackToBack_carries : CarriesOn b s (readBackToBack b s) :=
  iteCarries (fun _ => modBayXu_carries _) fun _ => .refl b s

/-- The slot freed, and the bay out of CLOSING (R47). -/
theorem leaveClosing_carries (hp : (s.bay b).phase = .closing) (held : Option Slot) :
    CarriesOn b s (leaveClosing b (slotFreed b held s)) := by
  have hOut : outOfRun (s.bay b).phase := .inl hp
  unfold leaveClosing
  refine iteCarries (fun _ => ?_) fun _ => iteCarries (fun _ => ?_) fun _ => CarriesOn.trans ?_ readBackToBack_carries
  · obtain ⟨w, hw⟩ := goOffline_bay (b := b) (s := slotFreed b held s)
    rw [CarriesOn, hw, slotFreed, bay_modBay]
    exact .freed (p := .offline) hOut (.inl rfl) rfl rfl rfl rfl
  · obtain ⟨w, hw⟩ := goHalted_bay (b := b) (s := slotFreed b held s)
    rw [CarriesOn, hw, slotFreed, bay_modBay]
    exact .freed (p := .halted) hOut (.inr (.inr rfl)) rfl rfl rfl rfl
  · rw [CarriesOn, setPhase_self, slotFreed, bay_modBay]
    exact .freed (p := .idle) hOut (.inr (.inl rfl)) rfl rfl rfl rfl

theorem closingEnd_carries (hp : (s.bay b).phase = .closing) : CarriesOn b s (closingEnd b s) := by
  rw [closingEnd_eq]
  have hStays : StaysOn b s (handBackUnlessLost b (forAll allConditions (settlePending b) s)) :=
    (forAll_stays fun _ _ => settlePending_stays _).trans handBackUnlessLost_stays
  exact CarriesOn.trans (forAll_carries fun _ _ => settlePending_carries _) (handBackUnlessLost_carries.trans
    ((leaveClosing_carries (hStays.phase.trans hp) _).trans pollKeys_asks_only.carries))

theorem closingPanelDone_carries (hp : (s.bay b).phase = .closing) : CarriesOn b s (closingPanelDone b s) :=
  iteCarries (fun _ => closingEnd_carries hp) fun _ => .refl b s

theorem closingMark_carries (c : ClosingStage) : CarriesOn b s (s.modRun b fun r => { r with closing := c }) :=
  modRun_carries rfl rfl

theorem verdictLampWanted_carries (v : Option Verdict) : CarriesOn b s (verdictLampWanted b v s) := by
  unfold verdictLampWanted
  split
  · exact (wantLamp_asks _).carries
  · exact .refl b s

theorem verdictTextWanted_carries (text : Option (List Byte)) : CarriesOn b s (verdictTextWanted b text s) := by
  unfold verdictTextWanted
  split
  · exact .refl b s
  · split
    · exact ((busRequest_asks ‹_›).trans (modPanel_asks rfl)).carries
    · exact flagLampFailed_asks.carries

theorem closingPanel_carries (hp : (s.bay b).phase = .closing) : CarriesOn b s (closingPanel b s) := by
  rw [closingPanel_eq]
  have hStays := (closingMark_stays (b := b) (s := s) .panel).trans ((verdictLampWanted_stays (s.bay b).run.verdict).trans
    (verdictTextWanted_stays (verdictText (s.bay b).run)))
  exact (closingMark_carries _).trans ((verdictLampWanted_carries _).trans ((verdictTextWanted_carries _).trans
    (closingPanelDone_carries (hStays.phase.trans hp))))

theorem cycleEnded_carries (hp : (s.bay b).phase = .closing) (o : BusOutcome) : CarriesOn b s (cycleEnded b o s) := by
  simp only [cycleEnded]
  split
  · have hRun : CarriesOn b s (s.modRun b fun r => { r with cycleAfter := cycleValue (s.bay b).run }) :=
      modRun_carries rfl rfl
    exact hRun.trans ((modStatus_carries _).trans (closingPanel_carries (by simpa using hp)))
  · exact (modStatus_carries _).trans (closingPanel_carries (by simpa using hp))

theorem closingCycle_carries (hp : (s.bay b).phase = .closing) : CarriesOn b s (closingCycle b s) := by
  refine iteCarries (fun _ => ?_) fun _ => closingPanel_carries hp
  split
  · exact (busRequest_carries ‹_›).trans (closingMark_carries _)
  · exact cycleEnded_carries hp _

theorem closingBus_carries (hp : (s.bay b).phase = .closing) : CarriesOn b s (closingBus b s) :=
  iteCarries (fun _ => closingMark_carries _) fun _ => closingCycle_carries hp

theorem closingRelease_carries : CarriesOn b s (closingRelease b s) := by
  refine iteCarries (fun h => closingCycle_carries ?_) fun _ => .refl b s
  simp only [Bool.and_eq_true, decide_eq_true_eq] at h
  exact h.1.1

theorem writeResult_carries (x : StepResult) : CarriesOn b s (writeResult b x s) :=
  iteCarries (fun _ => .refl b s) fun _ => writeArea_carries ..

theorem handOver_carries (results : List StepResult) : CarriesOn b s (handOver b results s) :=
  forAll_carries fun _ _ => (writeResult_carries _).trans triggerBay_carries

theorem recordsRefused_carries (results : List StepResult) : CarriesOn b s (recordsRefused b results s) :=
  iteCarries (fun _ => handBackFails_carries) fun _ => .refl b s

/-! ### The entry to CLOSING -/

/-- The bay in CLOSING: its outputs and its network quiet, its supply without output (R46). -/
theorem closingEntered_bay : ∃ u n p w, (closingEntered b s).bay b = { s.bay b with
      phase := .closing
      stim := stimSafe u
      net := netStopped n
      supply := p
      xu := { (s.bay b).xu with write := w } } ∧
    (p = (s.bay b).supply ∧ p.on = false ∨ p = supplyOff false (s.bay b).supply) := by
  obtain ⟨w, hw⟩ := enterSafe_bay (b := b) (s := switchOff b false s)
  obtain ⟨v, hv⟩ := removeEntries_bay (b := b) (s := enterSafe b (switchOff b false s)) fun _ => true
  rw [closingEntered, setPhase_self, hv, hw]
  rcases switchOff_bay (b := b) (s := s) false with ⟨h, hon⟩ | ⟨x, h⟩ <;> rw [h]
  · exact ⟨_, _, _, _, rfl, .inl ⟨rfl, hon⟩⟩
  · exact ⟨_, _, _, _, rfl, .inr rfl⟩

/-- No step has two results after the entry to CLOSING, when none had before and the results given there are of further
steps (R62). -/
theorem closingResults_distinct {r : RunEngine} {ended : List StepResult}
    (h : ((r.results ++ ended).map fun x => x.index).Nodup) :
    ((r.results ++ closingResults ended r).map fun x => x.index).Nodup := by
  have hSkipped : ((closingResults ended r).map fun x => x.index) = ended.map (fun x => x.index) ++
      (List.range (stepCount r)).filter fun i => !hasResult { r with results := r.results ++ ended } i := by
    simp [closingResults, skippedResult, Function.comp_def]
  rw [List.map_append, hSkipped, ← List.append_assoc, ← List.map_append]
  refine List.nodup_append.2 ⟨h, List.nodup_range.filter _, fun i hi j hj hij => ?_⟩
  subst hij
  obtain ⟨x, hx, rfl⟩ := List.mem_map.1 hi
  simp only [List.mem_filter, Bool.not_eq_true', hasResult, List.any_eq_false, decide_eq_true_eq] at hj
  exact hj.2 x hx rfl

/-- The run of a bay ends with results of steps that had none, and the bay goes through CLOSING (R46, R62). -/
theorem enterClosing_after (hc : CarriesOn b s t) (verdict : Verdict) (cause : EndCause) (offending : Nat)
    (ended : List StepResult)
    (h : BayLaw (s.bay b) → BayLaw (t.bay b) →
      (t.bay b).run.slot ≠ none ∧ (((t.bay b).run.results ++ ended).map fun x => x.index).Nodup) :
    CarriesOn b s (enterClosing b verdict cause offending ended t) := by
  have hRest : CarriesOn b s (atRest b verdict cause offending ended t) := by
    obtain ⟨u, n, p, w, hb, hp⟩ := closingEntered_bay (b := b) (s := bayAtClosing b verdict cause offending ended t)
    rw [CarriesOn, atRest, hb]
    rw [bayAtClosing_bay] at hp ⊢
    have hOn : p.on = false := by rcases hp with ⟨-, h⟩ | rfl <;> [exact h; rfl]
    have hRetry : p.retry = .none ∧ p.retryFault = none ∧ p.settle = none ∧
        p.retryCount = (t.bay b).supply.retryCount ∧ p.setup = (t.bay b).supply.setup := by
      rcases hp with ⟨rfl, -⟩ | rfl <;> exact ⟨rfl, rfl, rfl, rfl, rfl⟩
    obtain ⟨hNone, hFault, hSettle, hCount, hSetup⟩ := hRetry
    refine .after_flight hc (List.prefix_append ..) (Nat.le_refl _) (List.nil_subset _) fun l l' => .quiet rfl rfl ?_
    obtain ⟨hSlot, hDistinct⟩ := h l l'
    exact {
      off := fun _ => rfl
      paused := nofun
      network := fun _ => rfl
      supplied := fun h => absurd (hOn.symm.trans h) nofun
      retrying := fun h => absurd hNone (retrying_iff.1 h)
      settling := fun h => by simp [lawView, hNone, isSettling] at h
      held := ⟨fun h => absurd h hSlot, by simp [restPhase, lawView]⟩
      taken := l'.view.taken
      four := by simp [lawView, runAtClosing]
      flight := fun h => absurd rfl h
      started := nofun
      ordered := nofun
      distinctFlight := List.nodup_nil
      distinctResults := closingResults_distinct hDistinct
      apart := nofun
      ended := by simp [livePhase, lawView]
      reads := by simp [lawView, runAtClosing]
      fresh := by simp [lawView]
      bounded := by
        have := l'.view.bounded
        simpa only [lawView, hCount, hSetup] using this
      loading := nofun
      fault := by simp [lawView, hNone, hFault]
      settle := by simp [lawView, hSettle]
      prompts := by simp [lawView, panelAtClosing] }
  have hStays := (handOver_stays (b := b) (s := atRest b verdict cause offending ended t)
    (closingResults ended (t.bay b).run)).trans (recordsRefused_stays (closingResults ended (t.bay b).run))
  rw [enterClosing_eq]
  exact hRest.trans ((handOver_carries _).trans ((recordsRefused_carries _).trans
    (closingBus_carries (hStays.phase.trans closingEntered_safe.1))))

end

end Sys2Proof.Machine

namespace Sys2Proof.Machine

open Sys2Proof

section
variable {b : Bay} {s t u : State}

/-! ### The end of a step -/

theorem insertByIndex_perm (e : InFlight) (l : List InFlight) : (insertByIndex e l).Perm (e :: l) := by
  induction l with
  | nil => exact .refl _
  | cons x rest ih =>
    unfold insertByIndex
    split
    · exact .refl _
    · exact (ih.cons x).trans (.swap e x rest)

theorem byIndex_perm (l : List InFlight) : (byIndex l).Perm l := by
  induction l with
  | nil => exact .refl _
  | cons x rest ih => exact (insertByIndex_perm x _).trans (ih.cons x)

/-- The results of a run and of all its steps in flight are of different steps (R58, R62). -/
theorem LawView.Holds.distinct_endAll {y : BayState} (l : (lawView y).Holds) (o : StepOutcome) (d : Detail)
    (now : RackTime) : ((y.run.results ++ endAll y.run o d now).map fun x => x.index).Nodup := by
  have hEnded : ((endAll y.run o d now).map fun x => x.index).Perm ((lawView y).flight.map Flying.index) := by
    have hIndex : (endAll y.run o d now).map (fun x => x.index) = (byIndex y.run.inFlight).map fun e => e.index := by
      simp [endAll, resultOf, Function.comp_def]
    rw [hIndex, lawView, flying_indices]
    exact (byIndex_perm _).map _
  rw [List.map_append]
  refine List.nodup_append.2 ⟨l.distinctResults, hEnded.nodup_iff.2 l.distinctFlight, fun i hi j hj hij => ?_⟩
  subst hij
  obtain ⟨f, hf, rfl⟩ := List.mem_map.1 (hEnded.mem_iff.1 hj)
  exact l.apart f hf hi

/-- No other block of the bay holds anything of the step. -/
structure Free (y : BayState) (i : Nat) : Prop where
  settle : (lawView y).settle ≠ some i
  prompts : i ∉ (lawView y).prompts

/-- The step, where it is in flight, is of a kind of which one block holds something. -/
def HeldBy (y : BayState) (i : Nat) (h : Holder) : Prop := ∀ f ∈ (lawView y).flight, f.index = i → f.holder = h

theorem HeldBy.settle {y : BayState} {i : Nat} {h : Holder} (hy : HeldBy y i h) (l : BayLaw y) (hh : h ≠ .supply) :
    (lawView y).settle ≠ some i := fun hs => by
  obtain ⟨f, hf, hi, hf'⟩ := l.view.settle i hs
  exact hh ((hy f hf hi).symm.trans hf')

theorem HeldBy.prompts {y : BayState} {i : Nat} {h : Holder} (hy : HeldBy y i h) (l : BayLaw y) (hh : h ≠ .panel) :
    i ∉ (lawView y).prompts := fun hs => by
  obtain ⟨f, hf, hi, hf'⟩ := l.view.prompts i hs
  exact hh ((hy f hf hi).symm.trans hf')

theorem HeldBy.free {y : BayState} {i : Nat} (hy : HeldBy y i .none) (l : BayLaw y) : Free y i :=
  ⟨hy.settle l nofun, hy.prompts l nofun⟩

/-- The kind of a step in flight, whose index no other step in flight has. -/
theorem BayLaw.heldBy {y : BayState} (l : BayLaw y) {e : InFlight} (he : e ∈ y.run.inFlight) :
    HeldBy y e.index (holder e.work) := fun f hf hi => by
  have hEq : f = flying e :=
    List.inj_on_of_nodup_map l.view.distinctFlight hf (List.mem_map_of_mem he) hi
  rw [hEq, flying]

theorem mem_of_find {r : RunEngine} {i : Nat} {e : InFlight} (h : findInFlight r i = some e) :
    e ∈ r.inFlight ∧ e.index = i :=
  ⟨List.mem_of_find?_eq_some h, by simpa using List.find?_some h⟩

/-- A step that was in flight stays of its kind. -/
theorem HeldBy.carries {y z : BayState} {i : Nat} {h : Holder} (hy : HeldBy y i h) (hi : i < y.run.next)
    (hc : BayCarriesOn y z) : HeldBy z i h := fun f hf hfi => by
  obtain ⟨g, hg, h1, h2⟩ := hc.old f hf (hfi ▸ hi)
  exact h2.symm.trans (hy g hg (h1.trans hfi))

theorem leaveTable_self (x : StepResult) : (leaveTable b x s).bay b = { s.bay b with
    run := { releaseClaims x.index (s.bay b).run with
      inFlight := (s.bay b).run.inFlight.filter fun e => e.index ≠ x.index
      results := (s.bay b).run.results ++ [x] } } := by
  simp only [leaveTable, addResult, bay_modRun]
  rfl

theorem lawView_leaveTable (x : StepResult) : lawView ((leaveTable b x s).bay b) = { lawView (s.bay b) with
    flight := (lawView (s.bay b)).flight.filter fun f => f.index ≠ x.index
    results := (lawView (s.bay b)).results ++ [x.index] } := by
  rw [leaveTable_self]
  simp only [lawView, List.filter_map, List.map_append, List.map_cons, List.map_nil, Function.comp_def, releaseClaims]
  rfl

/-- A step of the view that is ended leaves the steps in flight for the results (R50). -/
theorem LawView.Holds.ends {v : LawView} (l : v.Holds) {f : Flying} (hf : f ∈ v.flight) (hs : v.settle ≠ some f.index)
    (hp : f.index ∉ v.prompts) : { v with
      flight := v.flight.filter fun g => g.index ≠ f.index
      results := v.results ++ [f.index] }.Holds := by
  have hMem {g : Flying} (hg : g ∈ v.flight.filter fun g => g.index ≠ f.index) : g ∈ v.flight ∧ g.index ≠ f.index := by
    simpa using hg
  have hLive : livePhase v.phase := l.flight (List.ne_nil_of_mem hf)
  exact { l with
    four := Nat.le_trans (List.length_filter_le ..) l.four
    flight := fun _ => hLive
    started := fun g hg => l.started g (hMem hg).1
    ordered := fun g hg => l.ordered g (hMem hg).1
    distinctFlight := l.distinctFlight.sublist (List.filter_sublist.map _)
    distinctResults := by
      refine List.nodup_append.2 ⟨l.distinctResults, by simp, fun i hi j hj hij => ?_⟩
      rw [hij, List.mem_singleton.1 hj] at hi
      exact l.apart f hf hi
    apart := fun g hg hi => by
      rcases List.mem_append.1 hi with h | h
      · exact l.apart g (hMem hg).1 h
      · exact (hMem hg).2 (List.mem_singleton.1 h)
    ended := fun _ i hi => by
      rcases List.mem_append.1 hi with h | h
      · exact l.ended hLive i h
      · exact List.mem_singleton.1 h ▸ l.started f hf
    fresh := fun h => by rcases hLive with hp | hp <;> simp [hp] at h
    settle := fun i hi => by
      obtain ⟨g, hg, h1, h2⟩ := l.settle i hi
      exact ⟨g, List.mem_filter.2 ⟨hg, by simpa using fun h : g.index = f.index => hs (hi.trans (congrArg some (h1.symm.trans h)))⟩, h1, h2⟩
    prompts := fun i hi => by
      obtain ⟨g, hg, h1, h2⟩ := l.prompts i hi
      exact ⟨g, List.mem_filter.2 ⟨hg, by simpa using fun h : g.index = f.index => hp (h ▸ h1 ▸ hi)⟩, h1, h2⟩ }

/-- A step out of the in-flight table, of which no block holds anything. -/
theorem leaveTable_after (h : CarriesOn b s t) {e : InFlight} (he : e ∈ (t.bay b).run.inFlight) {x : StepResult}
    (hx : x.index = e.index) (hf : BayLaw (s.bay b) → BayLaw (t.bay b) → Free (t.bay b) e.index) :
    CarriesOn b s (leaveTable b x t) := by
  have hResults : (t.bay b).run.results <+: ((leaveTable b x t).bay b).run.results := by
    rw [leaveTable_self]
    exact List.prefix_append ..
  have hNext : (t.bay b).run.next ≤ ((leaveTable b x t).bay b).run.next := by
    rw [leaveTable_self]
    exact Nat.le_refl _
  refine .after_flight h hResults hNext ?_ fun l l' => ⟨?_, ?_, ?_⟩
  · rw [lawView_leaveTable]
    exact fun f hf => (List.mem_filter.1 hf).1
  · rw [lawView_leaveTable, hx]
    exact l'.view.ends (f := flying e) (List.mem_map_of_mem he) (hf l l').settle (hf l l').prompts
  · rw [leaveTable_self]
    exact l'.outputs
  · rw [leaveTable_self]
    exact l'.net

/-- The stop of a run that is going on (R56). -/
theorem stopRun_after (h : CarriesOn b s t) (i : Nat) (hp : BayLaw (s.bay b) → BayLaw (t.bay b) → livePhase (t.bay b).phase) :
    CarriesOn b s (stopRun b i t) := by
  refine enterClosing_after h _ _ _ _ fun l l' => ⟨fun hSlot => ?_, l'.view.distinct_endAll ..⟩
  have hRest := l'.view.held.1 hSlot
  rcases hp l l' with h | h <;> simp [restPhase, lawView, h] at hRest

theorem writeResult_bay (x : StepResult) (o : Bay) : (writeResult b x s).bay o = s.bay o := by
  simp only [writeResult]
  split <;> rfl

/-- The end of a step of which no block holds anything any more (R50). -/
theorem endStep_after (h : CarriesOn b s t) (i : Nat) (o : StepOutcome) (d : Detail)
    (hf : BayLaw (s.bay b) → BayLaw (t.bay b) → Free (t.bay b) i) : CarriesOn b s (endStep b i o d t) := by
  simp only [endStep]
  split
  · exact h
  · next e he =>
    obtain ⟨hMem, rfl⟩ := mem_of_find he
    have hEnd : CarriesOn b s (triggerBay b (writeResult b (resultOf e o d t.rackTime)
        (leaveTable b (resultOf e o d t.rackTime) t))) :=
      (leaveTable_after h hMem rfl hf).trans ((writeResult_carries _).trans triggerBay_carries)
    refine iteCarries (fun _ => stopRun_after hEnd _ fun l _ => ?_) fun _ => hEnd
    have hPhase : ((triggerBay b (writeResult b (resultOf e o d t.rackTime)
        (leaveTable b (resultOf e o d t.rackTime) t))).bay b).phase = (t.bay b).phase := by
      rw [triggerBay_self, writeResult_bay, leaveTable_self]
    rw [hPhase]
    exact (h.law l).view.flight (List.ne_nil_of_mem (List.mem_map_of_mem hMem))

theorem endStep_carries (i : Nat) (o : StepOutcome) (d : Detail) (hf : BayLaw (s.bay b) → Free (s.bay b) i) :
    CarriesOn b s (endStep b i o d s) :=
  endStep_after (.refl b s) i o d fun l _ => hf l

/-- The end of a step in flight of which no other block holds anything. -/
theorem endEntry_carries {e : InFlight} (he : e ∈ (s.bay b).run.inFlight) (hh : holder e.work = .none) (o : StepOutcome)
    (d : Detail) : CarriesOn b s (endStep b e.index o d s) :=
  endStep_carries _ _ _ fun l => HeldBy.free (hh ▸ l.heldBy he) l

theorem joinTest_carries : CarriesOn b s (joinTest b s) := by
  unfold joinTest
  split
  · next e he =>
    have hJoin := List.find?_some he
    refine endEntry_carries (List.mem_of_find?_eq_some he) ?_ ..
    cases hw : e.work <;> simp [hw, holder] at hJoin ⊢
  · exact .refl b s

/-! ### The display -/

theorem pumpText_carries : CarriesOn b s (pumpText b s) := by
  unfold pumpText
  split
  · exact (modPanel_carries (s := s) rfl).trans (requestFixed_asks _).carries
  · exact .refl b s

/-- The head prompt leaves the queue, and its step ends (R208). -/
theorem takePrompt_free {i : Nat} {y : BayState} (hq : i ∈ (lawView y).prompts) (l : BayLaw y) :
    Free { y with panel := takePrompt i y.panel } i where
  settle hs := by
    obtain ⟨f, hf, h1, h2⟩ := l.view.settle i hs
    obtain ⟨g, hg, h3, h4⟩ := l.view.prompts i hq
    have := List.inj_on_of_nodup_map l.view.distinctFlight hf hg (h1.trans h3.symm)
    subst this
    exact absurd (h2.symm.trans h4) nofun
  prompts := by simp [lawView, takePrompt]

theorem takePrompt_carries (i : Nat) : CarriesOn b s (s.modPanel b (takePrompt i)) :=
  modPanel_carries_fewer fun _ h => (List.mem_filter.1 h).1

/-- A prompt's end (R207, R208). -/
theorem endPrompt_carries {q : Prompt} (hq : q ∈ (s.bay b).panel.prompts) (o : StepOutcome) (d : Detail) :
    CarriesOn b s (endStep b q.step o d (s.modPanel b (takePrompt q.step))) :=
  endStep_after (takePrompt_carries _) _ _ _ fun l _ => by
    rw [bay_modPanel]
    exact takePrompt_free (List.mem_map_of_mem hq) l

theorem markPrompt_steps {f : Prompt → Prompt} (hf : ∀ q, (f q).step = q.step) (i : Nat) (p : Panel) :
    (markPrompt i f p).prompts.map (fun q => q.step) = p.prompts.map fun q => q.step := by
  simp only [markPrompt, List.map_map]
  refine List.map_congr_left fun q _ => ?_
  dsimp only [Function.comp]
  split
  · exact hf q
  · rfl

theorem markPrompt_carries {f : Prompt → Prompt} (hf : ∀ q, (f q).step = q.step) (i : Nat) (d : Option DisplayPurpose) :
    CarriesOn b s (s.modPanel b fun p => { markPrompt i f p with display := d }) :=
  modPanel_carries (markPrompt_steps hf i _)

theorem mem_of_writable {y : BayState} {q : Prompt} (h : writable y = some q) : q ∈ y.panel.prompts := by
  simp only [writable] at h
  split at h
  · exact List.mem_of_mem_head? h
  · cases h

theorem pumpPrompts_carries (n : Nat) : CarriesOn b s (pumpPrompts b n s) := by
  induction n generalizing s with
  | zero => exact .refl b s
  | succ n ih =>
    unfold pumpPrompts
    split
    · exact .refl b s
    · next q hq =>
      split
      · exact (busRequest_carries ‹_›).trans
          (markPrompt_carries (f := fun x => { x with state := .writing }) (fun _ => rfl) ..)
      · exact iteCarries (fun _ => .refl b s) fun _ =>
          (endPrompt_carries (mem_of_writable hq) ..).trans (joinTest_carries.trans ih)

theorem pumpDisplay_carries : CarriesOn b s (pumpDisplay b s) := pumpText_carries.trans (pumpPrompts_carries _)

/-! ### The start of a step -/

theorem flying_finishAction (p : Nat) (r : Bool) (e : InFlight) : flying (finishAction p r e) = flying e := by
  unfold finishAction
  split
  · next h => simp [flying, holder, h]
  · rfl

theorem endAction_carries (c : Fin 14) (reached : Bool) : CarriesOn b s (endAction b c reached s) := by
  unfold endAction
  split
  · exact .refl b s
  · exact CarriesOn.trans (modStim_carries_quiet rfl rfl rfl rfl)
      (CarriesOn.trans (modRun_carries rfl rfl) (modInFlight_carries _ fun _ => flying_finishAction ..))

theorem olderEnded_carries (c : Fin 14) : CarriesOn b s (olderEnded b c s) := by
  unfold olderEnded
  split
  · exact endAction_carries ..
  · exact .refl b s

theorem actionStarted_carries (i : Nat) (a : DriveAction) (x : Action) : CarriesOn b s (actionStarted b i a x s) := by
  simp only [actionStarted]
  have hForm : CarriesOn b s (s.modStim b (setForm a.channel a.kind)) := (setForm_outputs ..).carries
  have hFlag : CarriesOn b s (if x.clamped then (s.modStim b (setForm a.channel a.kind)).modInFlight b i
      fun e => { e with clamped := e.clamped ||| BitVec.ofNat 4 (2 ^ a.position) }
      else s.modStim b (setForm a.channel a.kind)) :=
    iteCarries (fun _ => hForm.trans (modInFlight_carries _ fun _ => rfl)) fun _ => hForm
  refine iteCarries (fun _ => hFlag.trans (modInFlight_carries _ fun e => ?_)) fun _ => hFlag.trans
    (CarriesOn.trans (modStim_carries_quiet rfl rfl rfl rfl) (modRun_carries rfl rfl))
  exact flying_finishAction ..

theorem startAction_carries (i : Nat) (a : DriveAction) : CarriesOn b s (startAction b i a s) := by
  rw [startAction_eq]
  exact (olderEnded_carries _).trans (actionStarted_carries ..)

theorem endDrive_carries (i : Nat) : CarriesOn b s (endDrive b i s) := by
  have hEnd {any : Bool} (h : (findInFlight (s.bay b).run i).bind driveOver = some any) (o : StepOutcome) (d : Detail) :
      CarriesOn b s (endStep b i o d s) := by
    obtain ⟨e, he, hOver⟩ := Option.bind_eq_some_iff.1 h
    obtain ⟨hMem, rfl⟩ := mem_of_find he
    refine endEntry_carries hMem ?_ ..
    unfold driveOver at hOver
    split at hOver
    · next hw => rw [hw, holder]
    · cases hOver
  unfold endDrive
  split
  · exact hEnd ‹_› ..
  · exact hEnd ‹_› ..
  · exact .refl b s

theorem applyLines_quiet (on off : BitVec 16) {u : Stimulus} (h : QuietOutputs u) : QuietOutputs (applyLines on off u) := by
  intro hSafe
  have hu : u.safe = true := hSafe
  obtain ⟨h1, h2, h3⟩ := h hu
  exact ⟨h1, h2, by simp [applyLines, hu, h3]⟩

theorem startDrive_carries (i : Nat) (actions : List DriveAction) (on off : BitVec 16) :
    CarriesOn b s (startDrive b i actions on off s) :=
  (forAll_carries fun a _ => startAction_carries i a).trans
    (CarriesOn.trans (modStim_carries rfl (applyLines_quiet on off)) (forAll_carries fun i _ => endDrive_carries i))

/-- A step that the walker has just put in flight (R49). -/
structure Begun (y : BayState) (i : Nat) (h : Holder) : Prop where
  running : y.phase = .running
  entry : ∃ f ∈ (lawView y).flight, f.index = i ∧ f.holder = h
  free : Free y i

theorem startPrompt_after (h : CarriesOn b s t) (i : Nat) (text : List Byte) (form : PromptForm) (timeout : Nat)
    (hB : BayLaw (s.bay b) → BayLaw (t.bay b) → Begun (t.bay b) i .panel) :
    CarriesOn b s (startPrompt b i text form timeout t) := by
  refine CarriesOn.trans ?_ pumpDisplay_carries
  rw [CarriesOn, bay_modPanel]
  refine .after_flight h List.prefix_rfl (Nat.le_refl _) (List.Subset.refl _) fun l l' => ⟨?_, l'.outputs, l'.net⟩
  refine { l'.view with prompts := fun j hj => ?_ }
  have hj' : j ∈ (lawView (t.bay b)).prompts ∨ j = i := by simpa [lawView] using hj
  rcases hj' with hOld | rfl
  · exact l'.view.prompts j hOld
  · exact (hB l l').entry

theorem frameActed_carries (i : Fin 16) (act : FrameAction) (now : RackTime) : CarriesOn b s
    (if (s.bay b).net.setup.entries[i].enabled then s.modNet b (frameAction now i act) else s) :=
  iteCarries (fun _ => modNet_carries (frameAction_goesOn ..).stopped (frameAction_goesOn ..).silent) fun _ => .refl b s

theorem frameActed_view (i : Fin 16) (act : FrameAction) (now : RackTime) :
    ((if (s.bay b).net.setup.entries[i].enabled then s.modNet b (frameAction now i act) else s).bay b).panel =
      (s.bay b).panel ∧
    ((if (s.bay b).net.setup.entries[i].enabled then s.modNet b (frameAction now i act) else s).bay b).supply =
      (s.bay b).supply := by
  split <;> simp

theorem startFrame_after (h : CarriesOn b s t) (i : Nat) (e : Fin 16) (act : FrameAction)
    (hB : BayLaw (s.bay b) → BayLaw (t.bay b) → Begun (t.bay b) i .none) :
    CarriesOn b s (startFrame b i e act t) := by
  obtain ⟨hPanel, hSupply⟩ := frameActed_view (b := b) (s := t) e act t.rackTime
  refine endStep_after (h.trans (frameActed_carries ..)) _ _ _ fun l _ => ?_
  obtain ⟨hSettle, hPrompts⟩ := (hB l (h.law l)).free
  exact ⟨by simpa only [lawView, hSupply] using hSettle, by simpa only [lawView, hPanel] using hPrompts⟩

theorem startFixture_after (h : CarriesOn b s t) (i : Nat) (m : Fin 16) (write : Bool) (index : Byte) (data : List Byte)
    (hB : BayLaw (s.bay b) → BayLaw (t.bay b) → Begun (t.bay b) i .none) :
    CarriesOn b s (startFixture b i m write index data t) := by
  simp only [startFixture]
  split
  · exact h.trans (busRequest_carries ‹_›)
  · exact iteCarries (fun _ => h) fun _ => endStep_after h _ _ _ fun l l' => (hB l l').free

/-! ### The supply at a POWER step -/

theorem QuietOutputs.of_unsafe {u : Stimulus} (h : u.safe = false) : QuietOutputs u :=
  fun hs => absurd (h.symm.trans hs) nofun

theorem flagClamped_safe (c : Fin 14) : ((flagClamped b c s).bay b).stim.safe = (s.bay b).stim.safe := by
  unfold flagClamped
  split
  · rfl
  · simp [State.modInFlight]

theorem setLevel_safe (i : Fin 4) : ((setLevel b i s).bay b).stim.safe = (s.bay b).stim.safe := by
  simp only [setLevel]
  split
  · simp
  · split
    · simp
    · simp
    · split <;> simp [flagClamped_safe]

theorem stimUnsafe_safe : ((stimUnsafe b s).bay b).stim.safe = false :=
  forAll_keeps (P := fun t => (t.bay b).stim.safe = false) _ _ _ (by simp) fun _ _ _ ht =>
    (setLevel_safe _).trans ht

/-- The safe state ends while the supply output is on and the bay is not PAUSED (R90, R94). -/
theorem endSafe_after (h : CarriesOn b s t)
    (hl : BayLaw (s.bay b) → BayLaw (t.bay b) → (t.bay b).supply.on = true ∧ (t.bay b).phase ≠ .paused) :
    CarriesOn b s (endSafe b t) := by
  have hUnsafe : CarriesOn b s (t.modStim b fun u => { u with safe := false, lineOut := u.lines }) := by
    rw [CarriesOn, bay_modStim]
    refine .after_flight h List.prefix_rfl (Nat.le_refl _) (List.Subset.refl _) fun l l' => ?_
    obtain ⟨hOn, hPhase⟩ := hl l l'
    exact ⟨{ l'.view with
      off := fun h => absurd (hOn.symm.trans h) nofun
      paused := fun h => absurd h hPhase
      network := nofun }, .of_unsafe rfl, l'.net⟩
  have hOutputs : CarriesOn b s (stimUnsafe b t) := hUnsafe.trans (forAll_carries fun _ _ => setLevel_carries _)
  have hSafe : ((stimUnsafe b t).bay b).stim.safe = false := stimUnsafe_safe
  obtain ⟨w, hw⟩ := changeNet_bay (b := b) (s := stimUnsafe b t) (netLive t.rackTime)
  rw [endSafe, CarriesOn, hw]
  refine .after_flight hOutputs List.prefix_rfl (Nat.le_refl _) (List.Subset.refl _) fun l l' => ?_
  exact ⟨{ l'.view with network := fun h => absurd (hSafe.symm.trans h) nofun }, l'.outputs, .of_ne_stopped nofun⟩

theorem powerOn_after (h : CarriesOn b s t) (i setting : Nat)
    (hB : BayLaw (s.bay b) → BayLaw (t.bay b) → Begun (t.bay b) i .supply) :
    CarriesOn b s (t.modSupply b (powerOn i setting)) := by
  rw [CarriesOn, bay_modSupply]
  refine .after_flight h List.prefix_rfl (Nat.le_refl _) (List.Subset.refl _) fun l l' => ⟨?_, l'.outputs, l'.net⟩
  exact { l'.view with
    off := nofun
    supplied := fun _ => .inl (hB l l').running
    settling := fun _ => rfl
    settle := fun j hj => by
      cases hj
      exact (hB l l').entry }

/-- A switch-off leaves the prompts, and abandons the settle judgement where there was an output (R144). -/
theorem switchOff_free {i : Nat} (hf : Free (s.bay b) i) : Free ((switchOff b false s).bay b) i := by
  rcases switchOff_bay (b := b) (s := s) false with ⟨h, -⟩ | ⟨w, h⟩ <;> rw [h]
  · exact hf
  · exact ⟨nofun, hf.prompts⟩

theorem startPower_after (h : CarriesOn b s t) (i : Nat) (on : Bool) (setting : Nat)
    (hB : BayLaw (s.bay b) → BayLaw (t.bay b) → Begun (t.bay b) i .supply) :
    CarriesOn b s (startPower b i on setting t) := by
  refine iteCarries (fun _ => ?_) fun _ => ?_
  · have hOn := powerOn_after h i setting hB
    refine iteCarries (fun _ => endSafe_after hOn fun l _ => ?_) fun _ => hOn
    rw [bay_modSupply]
    exact ⟨rfl, by simp [(hB l (h.law l)).running]⟩
  · refine endStep_after (switchOff_after h _ fun l l' => ?_) _ _ _ fun l _ => switchOff_free (hB l (h.law l)).free
    exact l'.not_settling (by simp [(hB l l').running])

theorem startBody_after (h : CarriesOn b s t) (i : Nat) (body : StepBody)
    (hB : BayLaw (s.bay b) → BayLaw (t.bay b) → Begun (t.bay b) i (holder (startWork body))) :
    CarriesOn b s (startBody b i body t) := by
  cases body with
  | drive actions on off => exact h.trans (startDrive_carries ..)
  | dwell ms => exact h
  | check period probes => exact h
  | prompt text form timeout => exact startPrompt_after h _ _ _ _ hB
  | frame e act => exact startFrame_after h _ _ _ hB
  | fixture m write index data expected mask => exact startFixture_after h _ _ _ _ _ hB
  | power on setting => exact startPower_after h _ _ _ hB
  | join tag => exact h.trans joinTest_carries

/-! ### The walker -/

/-- The walker starts a step only while the bay is RUNNING, with fewer than 4 steps in flight and each with OVERLAP
(R49). -/
theorem canStart_iff {y : BayState} : canStart y = true ↔
    y.phase = .running ∧ y.run.next < stepCount y.run ∧ y.run.inFlight.length < 4 ∧
      y.run.inFlight.all letsNextStart = true := by
  simp [canStart, and_assoc]

/-- The walker moves to the following step. -/
theorem LawView.Holds.moves {v : LawView} (l : v.Holds) (hp : v.phase = .running) (ho : ∀ f ∈ v.flight, f.overlap = true) :
    { v with next := v.next + 1 }.Holds :=
  { l with
    started := fun f hf => Nat.lt_succ_of_lt (l.started f hf)
    ordered := fun f hf h => absurd ((ho f hf).symm.trans h) nofun
    ended := fun h i hi => Nat.lt_succ_of_lt (l.ended h i hi)
    fresh := fun h => by simp [hp] at h }

/-- The next step comes into flight (R32, R49). -/
theorem LawView.Holds.starts {v : LawView} (l : v.Holds) (hp : v.phase = .running) (ho : ∀ f ∈ v.flight, f.overlap = true)
    (h4 : v.flight.length < 4) {f : Flying} (hf : f.index = v.next) :
    { v with next := v.next + 1, flight := v.flight ++ [f] }.Holds := by
  have hMem {g : Flying} (hg : g ∈ v.flight ++ [f]) : g ∈ v.flight ∨ g = f := by simpa using hg
  have hOld {i : Nat} {h : Holder} : (∃ g ∈ v.flight, g.index = i ∧ g.holder = h) →
      ∃ g ∈ v.flight ++ [f], g.index = i ∧ g.holder = h := fun ⟨g, hg, hi⟩ => ⟨g, List.mem_append_left _ hg, hi⟩
  have hm := l.moves hp ho
  exact { hm with
    four := by simpa using h4
    flight := fun _ => .inl hp
    started := fun g hg => by
      rcases hMem hg with h | rfl
      · exact hm.started g h
      · exact hf ▸ Nat.lt_succ_self _
    ordered := fun g hg h => by
      rcases hMem hg with hg | rfl
      · exact hm.ordered g hg h
      · exact congrArg (· + 1) hf.symm
    distinctFlight := by
      rw [List.map_append]
      refine List.nodup_append.2 ⟨l.distinctFlight, by simp, fun i hi j hj hij => ?_⟩
      obtain ⟨g, hg, rfl⟩ := List.mem_map.1 hi
      have hj' : j = f.index := by simpa using hj
      exact absurd (l.started g hg) (by omega)
    apart := fun g hg hi => by
      rcases hMem hg with h | rfl
      · exact l.apart g h hi
      · exact absurd (l.ended (.inl hp) _ hi) (by omega)
    settle := fun i hi => hOld (l.settle i hi)
    prompts := fun i hi => hOld (l.prompts i hi) }

theorem startStep_carries (h : canStart (s.bay b) = true) : CarriesOn b s (startStep b s) := by
  obtain ⟨hp, -, h4, hLets⟩ := canStart_iff.1 h
  have ho : ∀ f ∈ (lawView (s.bay b)).flight, f.overlap = true := fun f hf => by
    obtain ⟨e, he, rfl⟩ := mem_flying.1 hf
    have := List.all_eq_true.1 hLets e he
    simp only [letsNextStart, Bool.and_eq_true] at this
    exact this.1
  simp only [startStep]
  split
  · rw [CarriesOn, bay_modRun]
    refine .of_flight List.prefix_rfl (Nat.le_succ _) (List.Subset.refl _) fun l => ⟨?_, l.outputs, l.net⟩
    exact l.view.moves hp ho
  · next x _ =>
    have hView : lawView (((s.modRun b fun r => { r with next := r.next + 1 }).modRun b fun r' =>
        { r' with inFlight := r'.inFlight ++ [startEntry (s.bay b).run.next x s.rackTime] }).bay b) =
          { lawView (s.bay b) with
            next := (lawView (s.bay b)).next + 1
            flight := (lawView (s.bay b)).flight ++ [flying (startEntry (s.bay b).run.next x s.rackTime)] } := by
      simp [lawView]
    refine startBody_after ?_ _ _ fun l _ => ?_
    · refine ⟨?_, ?_, fun f hf hi => ?_, fun l => ⟨?_, ?_, ?_⟩⟩
      · simp
      · simp
      · rw [hView] at hf
        rcases List.mem_append.1 hf with hf | hf
        · exact ⟨f, hf, rfl, rfl⟩
        · rw [List.mem_singleton.1 hf] at hi
          exact absurd hi (Nat.lt_irrefl _)
      · rw [hView]
        exact l.view.starts hp ho (by simpa [lawView] using h4) rfl
      · simpa using l.outputs
      · simpa using l.net
    · refine ⟨by simpa using hp, ?_, ⟨?_, ?_⟩⟩ <;> rw [hView]
      · exact ⟨_, List.mem_append_right _ (List.mem_singleton_self _), rfl, rfl⟩
      · intro hs
        obtain ⟨f, hf, hi, -⟩ := l.view.settle _ hs
        exact absurd (hi ▸ l.view.started f hf) (Nat.lt_irrefl _)
      · intro hs
        obtain ⟨f, hf, hi, -⟩ := l.view.prompts _ hs
        exact absurd (hi ▸ l.view.started f hf) (Nat.lt_irrefl _)

/-- A run that is going on ends with its results, and no step in flight is left over (R49). -/
theorem runEnd_carries : CarriesOn b s (runEnd b s) := by
  refine iteCarries (fun h => enterClosing_after (.refl b s) _ _ _ _ fun _ l => ⟨fun hSlot => ?_, ?_⟩) fun _ => .refl b s
  · simp only [atRunEnd, Bool.and_eq_true, Bool.or_eq_true, decide_eq_true_eq] at h
    have hRest := l.view.held.1 hSlot
    rcases h.1.1 with h | h <;> simp [restPhase, lawView, h] at hRest
  · rw [List.append_nil]
    exact l.view.distinctResults

theorem walkSteps_carries (n : Nat) : CarriesOn b s (walkSteps b n s) := by
  induction n generalizing s with
  | zero => exact runEnd_carries
  | succ n ih => exact iteCarries (fun h => (startStep_carries h).trans ih) fun _ => runEnd_carries

theorem walk_carries : CarriesOn b s (walk b s) := walkSteps_carries _

theorem mem_of_failingPrompt {q : Prompt} (h : failingPrompt b s = some q) : q ∈ (s.bay b).panel.prompts := by
  unfold failingPrompt at h
  split at h
  · exact mem_of_writable (Option.filter_eq_some_iff.1 h).1
  · cases h

theorem afterPrompts_carries (n : Nat) : CarriesOn b s (afterPrompts b n s) := by
  induction n generalizing s with
  | zero => exact pumpDisplay_carries.trans walk_carries
  | succ n ih =>
    simp only [afterPrompts]
    split
    · exact pumpDisplay_carries.trans walk_carries
    · split
      · exact walk_carries
      · exact walk_carries.trans ((endPrompt_carries (mem_of_failingPrompt ‹_›) ..).trans (joinTest_carries.trans ih))

theorem failHeld_carries : CarriesOn b s (failHeld b s) := by
  unfold failHeld
  split
  · exact .refl b s
  · next e he =>
    refine iteCarries (fun _ => .refl b s) fun _ => ?_
    unfold heldFixture at he
    split at he
    · have hFixture := List.find?_some he
      refine endEntry_carries (List.mem_of_find?_eq_some he) ?_ ..
      cases hw : e.work <;> simp [hw, holder] at hFixture ⊢
    · cases he

theorem afterEnds_carries : CarriesOn b s (afterEnds b s) :=
  joinTest_carries.trans (pumpText_carries.trans ((afterPrompts_carries _).trans failHeld_carries))

theorem takeEnd_after (h : CarriesOn b s t) (i : Nat) (o : StepOutcome) (d : Detail)
    (hf : BayLaw (s.bay b) → BayLaw (t.bay b) → Free (t.bay b) i) : CarriesOn b s (takeEnd b i o d t) :=
  (endStep_after h i o d hf).trans afterEnds_carries

/-! ### The ends of CHECK steps -/

theorem flying_decideEntry (e : InFlight) : flying (decideEntry e) = flying e := by
  unfold decideEntry
  split
  · next h => simp [flying, holder, h]
  · rfl

theorem endCheck_carries (i : Nat) : CarriesOn b s (endCheck b i s) := by
  unfold endCheck
  split
  · exact .refl b s
  · next e he =>
    obtain ⟨hMem, rfl⟩ := mem_of_find he
    split
    · next c hw =>
      have hDecide : CarriesOn b s (s.modInFlight b e.index decideEntry) := modInFlight_carries _ flying_decideEntry
      refine endStep_after hDecide _ _ _ fun l l' => ?_
      have hHeld := l.heldBy hMem
      rw [hw] at hHeld
      exact (hHeld.carries (l.view.started _ (List.mem_map_of_mem hMem)) hDecide).free l'
    · exact .refl b s

theorem decideDue_carries (x : Option Nat) : CarriesOn b s (decideDue b x s) :=
  forAll_carries fun _ _ => modInFlight_carries _ flying_decideEntry

theorem nextCheck_carries (i : Nat) : CarriesOn b s (nextCheck b i s) := by
  unfold nextCheck
  split
  · exact .refl b s
  · exact (endCheck_carries _).trans afterEnds_carries

theorem takeChecks_carries (steps : List Nat) : CarriesOn b s (takeChecks b steps s) :=
  forAll_carries fun i _ => nextCheck_carries i

theorem withChecks_carries (x : Option Nat) (stops : Bool) {f : State → State}
    (h : ∀ t, CarriesOn b s t → CarriesOn b s (f t)) : CarriesOn b s (withChecks b x stops f s) :=
  iteCarries (fun _ => (h _ ((decideDue_carries _).trans (takeChecks_carries _))).trans afterEnds_carries) fun _ =>
    (h _ (decideDue_carries _)).trans (afterEnds_carries.trans (takeChecks_carries _))

theorem settleOthers_carries (x : Option Nat) : CarriesOn b s (settleOthers b x s) :=
  (decideDue_carries _).trans (takeChecks_carries _)

theorem settleChecks_carries : CarriesOn b s (settleChecks b s) := settleOthers_carries none

/-- What the block does at the end of a step lets go of what it holds of that step. -/
def LetsGo (b : Bay) (i : Nat) (block : State → State) (s : State) : Prop :=
  ∀ t, CarriesOn b s t → CarriesOn b t (block t) ∧
    (BayLaw (s.bay b) → BayLaw (t.bay b) → BayLaw ((block t).bay b) → Free ((block t).bay b) i)

theorem endInFlight_after (h : CarriesOn b s t) (i : Nat) (o : StepOutcome) (d : Detail) {block : State → State}
    (hb : LetsGo b i block s) : CarriesOn b s (endInFlight b i o d block t) := by
  obtain ⟨hBlock, hFree⟩ := hb t h
  unfold endInFlight
  split
  · exact h
  · exact endStep_after (h.trans hBlock) _ _ _ fun l l' => hFree l (h.law l) l'

theorem endWithChecks_carries (i : Nat) (o : StepOutcome) (d : Detail) {block : State → State}
    (hb : LetsGo b i block s) : CarriesOn b s (endWithChecks b i o d block s) :=
  iteCarries (fun _ => (endInFlight_after (settleOthers_carries _) _ _ _ hb).trans afterEnds_carries) fun _ =>
    withChecks_carries _ _ fun _ h => endInFlight_after h _ _ _ hb

/-- A step of which no other block holds anything. -/
theorem LetsGo.none {e : InFlight} (he : e ∈ (s.bay b).run.inFlight) (hh : holder e.work = .none) {block : State → State}
    (hb : ∀ t, CarriesOn b t (block t)) : LetsGo b e.index block s := fun t ht =>
  ⟨hb t, fun l _ l'' => ((hh ▸ l.heldBy he : HeldBy _ _ .none).carries (l.view.started _ (List.mem_map_of_mem he))
    (ht.trans (hb t))).free l''⟩

end

end Sys2Proof.Machine

namespace Sys2Proof.Machine

open Sys2Proof

section
variable {b : Bay} {s t : State}

/-! ### A step stopped where it stands (R52) -/

theorem dropSettle_settle (i : Nat) (p : Supply) :
    (dropSettle i p).settle.map (fun j => j.step) ≠ some i ∧
      ∀ k, (dropSettle i p).settle.map (fun j => j.step) = some k → p.settle.map (fun j => j.step) = some k := by
  unfold dropSettle
  cases h : p.settle with
  | none => simp [h]
  | some j =>
    by_cases hj : j.step = i
    · simp [hj]
    · simp [hj, h]

theorem dropSettle_carries (i : Nat) : CarriesOn b s (s.modSupply b (dropSettle i)) := by
  rw [CarriesOn, bay_modSupply]
  refine .of_flight List.prefix_rfl (Nat.le_refl _) (List.Subset.refl _) fun l => ⟨?_, l.outputs, l.net⟩
  have hRest : dropSettle i (s.bay b).supply =
      { (s.bay b).supply with settle := (dropSettle i (s.bay b).supply).settle } := by
    unfold dropSettle
    cases (s.bay b).supply.settle with
    | none => rfl
    | some j => dsimp only; split <;> rfl
  rw [hRest]
  exact { l.view with settle := fun k hk => l.view.settle k ((dropSettle_settle i _).2 k hk) }

theorem dropPrompt_carries (i : Nat) : CarriesOn b s (dropPrompt b i s) := by
  have h : CarriesOn b s (s.modPanel b fun p => { p with prompts := p.prompts.filter fun q => q.step ≠ i }) :=
    modPanel_carries_fewer fun _ h => (List.mem_filter.1 h).1
  exact iteCarries (fun _ => h.trans (CarriesOn.trans (modPanel_carries rfl) (removeEntries_carries _))) fun _ => h

theorem removeEntries_panel (test : BusEntry → Bool) : ((removeEntries b test s).bay b).panel = (s.bay b).panel := by
  obtain ⟨w, hw⟩ := removeEntries_bay (b := b) (s := s) test
  rw [hw]

theorem dropPrompt_prompts (i : Nat) : i ∉ (lawView ((dropPrompt b i s).bay b)).prompts := by
  simp only [lawView, dropPrompt]
  split
  · simp [removeEntries_panel]
  · simp

theorem stopBlock_carries (e : InFlight) : CarriesOn b s (stopBlock b e s) := by
  unfold stopBlock
  split
  · exact CarriesOn.trans (modStim_carries_quiet rfl rfl rfl rfl) (modRun_carries rfl rfl)
  · exact dropPrompt_carries _
  · exact removeEntries_carries _
  · exact dropSettle_carries _
  all_goals exact .refl b s

/-- A block that stops a step lets go of what it holds of it. -/
theorem stopBlock_letsGo {e : InFlight} (he : e ∈ (s.bay b).run.inFlight) : LetsGo b e.index (stopBlock b e) s := fun t ht => by
  refine ⟨stopBlock_carries e, fun l _ l'' => ?_⟩
  have hHeld : HeldBy ((stopBlock b e t).bay b) e.index (holder e.work) :=
    (l.heldBy he).carries (l.view.started _ (List.mem_map_of_mem he)) (ht.trans (stopBlock_carries e))
  cases hw : e.work with
  | power =>
    rw [hw] at hHeld
    refine ⟨?_, hHeld.prompts l'' nofun⟩
    simp only [stopBlock, hw, bay_modSupply]
    exact (dropSettle_settle ..).1
  | prompt =>
    rw [hw] at hHeld
    refine ⟨hHeld.settle l'' nofun, ?_⟩
    simp only [stopBlock, hw]
    exact dropPrompt_prompts _
  | _ =>
    rw [hw] at hHeld
    exact hHeld.free l''

/-! ### Aborts and refusals -/

theorem abortable_not_rest {p : Phase} (h : abortable p = true) : ¬restPhase p := by
  cases p <;> simp [abortable, restPhase] at h ⊢

theorem BayLaw.holds_slot {y : BayState} (l : BayLaw y) (h : ¬restPhase y.phase) : y.run.slot ≠ none :=
  fun hs => h (l.view.held.1 hs)

theorem abortNow_carries (h : abortable (s.bay b).phase = true) (cause : AbortCause) : CarriesOn b s (abortNow b cause s) := by
  have hEnter {c : EndCause} {d : Detail} : CarriesOn b s
      (enterClosing b .aborted c 0 (endAll (s.bay b).run .aborted d s.rackTime) s) :=
    enterClosing_after (.refl b s) _ _ _ _ fun _ l => ⟨l.holds_slot (abortable_not_rest h), l.view.distinct_endAll ..⟩
  simp only [abortNow]
  split
  · exact hEnter.trans (echoBay_carries _ _)
  · exact hEnter

/-- The read of LOADING in progress changed in its abort and its echo. -/
theorem modLoad_carries {l : Loading} (hl : (s.bay b).run.load = some l) (l' : Loading) :
    CarriesOn b s (s.modRun b fun r => { r with load := some l' }) :=
  modRun_carries (by simp [lawView, hl]) rfl

theorem abortRun_carries (cause : AbortCause) : CarriesOn b s (abortRun b cause s) := by
  refine settleChecks_carries.trans ?_
  simp only [abortRun]
  refine iteCarries (fun _ => .refl b _) fun h => ?_
  have hAbort := abortNow_carries (by simpa using h) cause
  split
  · next hl => exact modLoad_carries hl _
  · exact hAbort

theorem latchExchange_carries : CarriesOn b s (latchExchange b s) :=
  iteCarries (fun _ => addLatched_carries _) fun _ => .refl b s

theorem exchangeFault_carries : CarriesOn b s (exchangeFault b s) := by
  have h : CarriesOn b s (settleChecks b (latchExchange b s)) := latchExchange_carries.trans settleChecks_carries
  exact iteCarries (fun hp => h.trans (abortNow_carries hp _)) fun _ => h

/-- A refusal without a result (R37, R41). -/
theorem enterClosing_carries (h : ¬restPhase (s.bay b).phase) (verdict : Verdict) (cause : EndCause) (offending : Nat) :
    CarriesOn b s (enterClosing b verdict cause offending [] s) :=
  enterClosing_after (.refl b s) _ _ _ _ fun _ l =>
    ⟨l.holds_slot h, by rw [List.append_nil]; exact l.view.distinctResults⟩

theorem refuseStep_carries (h : (s.bay b).phase = .loading) (i : Nat) (d : Detail) : CarriesOn b s (refuseStep b i d s) := by
  refine enterClosing_after (t := { s with freeIndex := s.freeIndex + 1 }) (.of_bay rfl) .refused .invalidRun i
    [errorResult (s.bay b).run i d (Config.freeWord s.freeIndex) s.rackTime] fun l l' => ?_
  have hNone : (s.bay b).run.results = [] := List.map_eq_nil_iff.1 (l.view.fresh (.inl h)).1
  have hb : State.bay { s with freeIndex := s.freeIndex + 1 } b = s.bay b := rfl
  rw [hb, hNone]
  exact ⟨l.holds_slot (by rw [hb, h]; simp [restPhase]), List.nodup_singleton _⟩

/-! ### RUNNING and PAUSED -/

/-- A run that has not started its steps enters another state before RUNNING, or RUNNING (R40 to R43). -/
theorem LawView.Holds.enters {v : LawView} (l : v.Holds) (h : v.phase = .checking ∨ v.phase = .arming) {p : Phase}
    (hp : p = .arming ∨ p = .running) : { v with phase := p }.Holds := by
  obtain ⟨hResults, hNext⟩ := l.fresh (.inr h)
  have hNot : ¬livePhase v.phase := by rcases h with h | h <;> simp [livePhase, h]
  have hRest : ¬restPhase v.phase ∧ v.phase ≠ .loading := by rcases h with h | h <;> simp [restPhase, h]
  have hRest' : ¬restPhase p ∧ p ≠ .loading ∧ p ≠ .paused := by rcases hp with rfl | rfl <;> simp [restPhase]
  exact { l with
    paused := fun h => absurd h hRest'.2.2
    supplied := fun h => absurd (l.supplied h) hNot
    retrying := fun h => absurd (.inr (l.retrying h)) hNot
    held := ⟨fun h => absurd (l.held.1 h) hRest.1, fun h => absurd h hRest'.1⟩
    flight := fun h => absurd (l.flight h) hNot
    ended := fun _ i hi => by
      rw [hResults] at hi
      cases hi
    reads := ⟨fun h => absurd (l.reads.1 h) hRest.2, fun h => absurd h hRest'.2.1⟩
    fresh := fun _ => ⟨hResults, hNext⟩
    loading := fun h => absurd h hRest'.2.1 }

theorem enterRunning_carries (h : (s.bay b).phase = .checking ∨ (s.bay b).phase = .arming) :
    CarriesOn b s (enterRunning b s) := by
  refine CarriesOn.trans ?_ walk_carries
  rw [CarriesOn, setPhase_self, bay_modBay]
  refine .of_flight List.prefix_rfl (Nat.le_refl _) (List.Subset.refl _) fun l => ⟨?_, l.outputs, l.net⟩
  exact l.view.enters h (p := .running) (.inr rfl)

theorem enterArming_carries (h : (s.bay b).phase = .checking) : CarriesOn b s (enterArming b s) := by
  refine CarriesOn.trans ?_ (wantText_asks _).carries
  rw [CarriesOn, setPhase_self]
  refine .of_flight List.prefix_rfl (Nat.le_refl _) (List.Subset.refl _) fun l => ⟨?_, l.outputs, l.net⟩
  exact l.view.enters (.inl h) (p := .arming) (.inl rfl)

/-- A bay that pauses for a retry (R152, R154). -/
theorem LawView.Holds.pauses {v : LawView} (l : v.Holds) (h : livePhase v.phase) (hr : v.retries < v.most) :
    { v with
      phase := .paused
      on := false
      retrying := true
      settling := false
      faulted := true
      retries := v.retries + 1
      safe := true
      stopped := true }.Holds := by
  have hRest : ¬restPhase v.phase ∧ v.phase ≠ .loading := by rcases h with h | h <;> simp [restPhase, h]
  exact { l with
    off := fun _ => rfl
    paused := fun _ => rfl
    network := fun _ => rfl
    supplied := nofun
    retrying := fun _ => rfl
    settling := nofun
    held := ⟨fun h => absurd (l.held.1 h) hRest.1, fun h => by simp [restPhase] at h⟩
    flight := fun _ => .inr rfl
    ended := fun _ => l.ended h
    reads := ⟨fun h => absurd (l.reads.1 h) hRest.2, nofun⟩
    fresh := by simp
    bounded := hr
    loading := nofun
    fault := rfl }

theorem switchOff_run (keep : Bool) : ((switchOff b keep s).bay b).run = (s.bay b).run := by
  rcases switchOff_bay (b := b) (s := s) keep with ⟨h, -⟩ | ⟨w, h⟩ <;> rw [h]

/-- The switch-off for a retry, of a bay that is in the safe state where its output is off (R144, R146, R152). -/
theorem switchOff_view (h : (s.bay b).supply.on = false → (s.bay b).stim.safe = true ∧ (s.bay b).net.state = .stopped) :
    lawView ((switchOff b true s).bay b) = { lawView (s.bay b) with on := false, safe := true, stopped := true } := by
  rcases switchOff_bay (b := b) (s := s) true with ⟨hs, hOff⟩ | ⟨w, hw⟩
  · obtain ⟨hSafe, hStopped⟩ := h hOff
    rw [hs]
    simp [lawView, hOff, hSafe, hStopped]
  · rw [hw]
    rfl

theorem switchOff_quiet (keep : Bool) (h : QuietOutputs (s.bay b).stim ∧ SilentNet (s.bay b).net) :
    QuietOutputs ((switchOff b keep s).bay b).stim ∧ SilentNet ((switchOff b keep s).bay b).net := by
  rcases switchOff_bay (b := b) (s := s) keep with ⟨hs, -⟩ | ⟨w, hw⟩
  · rwa [hs]
  · rw [hw]
    exact ⟨quietOutputs_stimSafe _, silentNet_netStopped _⟩

/-- A retry begun in a bay whose run is going on (R152, R154). -/
theorem retryBegun_carries {c : Condition} (h : livePhase (s.bay b).phase)
    (hr : (s.bay b).supply.retryCount < (s.bay b).supply.setup.retryMax) {z : BayState} {w : BayExchange}
    (hz : z = { (switchOff b true (s.modSupply b (retryAgain c))).bay b with phase := .paused, xu := w }) :
    BayCarriesOn (s.bay b) z := by
  have hRun : z.run = (s.bay b).run := by rw [hz, switchOff_run, bay_modSupply]
  refine .of_flight (hRun ▸ List.prefix_rfl) (Nat.le_of_eq (congrArg _ hRun.symm)) ?_ fun l => ?_
  · rw [lawView, hRun]
    exact List.Subset.refl _
  · have hOff : (s.bay b).supply.on = false → (s.bay b).stim.safe = true ∧ (s.bay b).net.state = .stopped :=
      fun hOff => ⟨l.view.off hOff, by simpa [lawView] using l.view.network (l.view.off hOff)⟩
    have hView : lawView z = { lawView ((switchOff b true (s.modSupply b (retryAgain c))).bay b) with
        phase := .paused } := by rw [hz]; rfl
    have hQuiet := switchOff_quiet (b := b) (s := s.modSupply b (retryAgain c)) true (by
      rw [bay_modSupply]
      exact ⟨l.outputs, l.net⟩)
    rw [switchOff_view (by rwa [bay_modSupply]), bay_modSupply] at hView
    refine ⟨hView ▸ l.view.pauses h hr, ?_, ?_⟩ <;> rw [hz]
    · exact hQuiet.1
    · exact hQuiet.2

theorem beginRetry_carries {c : Condition} (h : (s.bay b).phase = .running)
    (hr : (s.bay b).supply.retryCount < (s.bay b).supply.setup.retryMax) : CarriesOn b s (beginRetry b c s) :=
  retryBegun_carries (c := c) (.inl h) hr (setPhase_self _)

theorem furtherRetry_carries {c : Condition} (h : (s.bay b).phase = .paused)
    (hr : (s.bay b).supply.retryCount < (s.bay b).supply.setup.retryMax) : CarriesOn b s (furtherRetry b c s) := by
  refine retryBegun_carries (c := c) (w := ((furtherRetry b c s).bay b).xu) (.inr h) hr ?_
  have hPhase : ((furtherRetry b c s).bay b).phase = .paused := by
    rw [furtherRetry]
    rcases switchOff_bay (b := b) (s := s.modSupply b (retryAgain c)) true with ⟨hs, -⟩ | ⟨w, hw⟩
    · rw [hs, bay_modSupply, h]
    · rw [hw, bay_modSupply, h]
  rw [← hPhase]
  rfl

/-- A retry is left that is not acted on as LATCH (R151, R152, R154). -/
theorem retries_left {p : Supply} {c : Condition} (hm : condGet p.setup.modes c ≠ .report ∧ condGet p.setup.modes c ≠ .off)
    (h : actsAsLatch p c = false) : p.retryCount < p.setup.retryMax := by
  unfold actsAsLatch at h
  split at h
  · cases h
  · simp only [Bool.or_eq_false_iff, decide_eq_false_iff_not] at h
    omega
  · next h' => exact absurd h' hm.1
  · next h' => exact absurd h' hm.2

theorem latchFault_carries (c : Condition) : CarriesOn b s (latchFault b c s) :=
  (addLatched_carries _).trans (abortRun_carries _)

theorem reportFault_carries (c : Condition) : CarriesOn b s (reportFault b c s) :=
  (addReported_carries _).trans (mapFlight_carries fun _ => rfl)

theorem actOn_carries (c : Condition) : CarriesOn b s (actOn b c s) := by
  have hMark : CarriesOn b s (s.modSupply b fun p =>
      { p with watches := condSet p.watches c { condGet p.watches c with pending := false } }) := modSupply_carries rfl
  have hLeft (hr : ¬condGet (s.bay b).supply.setup.modes c = .report) (ho : ¬condGet (s.bay b).supply.setup.modes c = .off)
      (h : ¬actsAsLatch (s.bay b).supply c = true) :
      (s.bay b).supply.retryCount < (s.bay b).supply.setup.retryMax := retries_left ⟨hr, ho⟩ (by simpa using h)
  simp only [actOn]
  split
  · exact hMark.trans (reportFault_carries _)
  · exact hMark.trans (reportFault_carries _)
  · exact hMark.trans (reportFault_carries _)
  · exact hMark
  · exact hMark
  · exact hMark
  · next hp hr ho =>
    exact iteCarries (fun _ => hMark.trans (latchFault_carries _)) fun h =>
      hMark.trans (beginRetry_carries (by simpa using hp) (by simpa using hLeft hr ho h))
  · next hp hr ho =>
    exact iteCarries (fun _ => hMark.trans (latchFault_carries _)) fun h =>
      hMark.trans (furtherRetry_carries (by simpa using hp) (by simpa using hLeft hr ho h))
  · exact hMark.trans (latchFault_carries _)
  · exact settlePending_carries _

theorem recognize_carries (c : Condition) : CarriesOn b s (recognize b c s) :=
  settleChecks_carries.trans (iteCarries (fun _ => actOn_carries _) fun _ => .refl b _)

theorem flying_restart (e : InFlight) :
    flying (match e.work with | .check c => { e with work := .check (restartCheck c) } | _ => e) = flying e := by
  split
  · next h => simp [flying, holder, h]
  · rfl

/-- A PAUSED bay is RUNNING again once no retry is in progress (R43). -/
theorem LawView.Holds.resumes {v : LawView} (l : v.Holds) (hp : v.phase = .paused) (hr : v.retrying = false) :
    { v with phase := .running }.Holds :=
  { l with
    paused := nofun
    supplied := fun _ => .inl rfl
    retrying := fun h => absurd (hr.symm.trans h) nofun
    held := ⟨fun h => absurd (l.held.1 h) (by simp [restPhase, hp]), by simp [restPhase]⟩
    flight := fun _ => .inl rfl
    ended := fun _ => l.ended (.inr hp)
    reads := ⟨fun h => absurd (hp.symm.trans (l.reads.1 h)) nofun, nofun⟩
    fresh := by simp
    loading := nofun }

/-- The bay is RUNNING again after a retry that settled (R43, R153). -/
theorem retrySettled_carries (hp : (s.bay b).phase = .paused) {n : Nat} (hn : (s.bay b).supply.retry = .settling n) :
    CarriesOn b s (retrySettled b s) := by
  have hSupply : CarriesOn b s (s.modSupply b settledSupply) := by
    rw [CarriesOn, bay_modSupply]
    refine .of_flight List.prefix_rfl (Nat.le_refl _) (List.Subset.refl _) fun l => ⟨?_, l.outputs, l.net⟩
    exact { l.view with
      retrying := nofun
      settling := nofun
      fault := rfl
      settle := fun i hi => l.view.settle i (by simpa [lawView, settledSupply] using hi) }
  have hChecks : CarriesOn b s ((s.modSupply b settledSupply).modRun b restartChecks) :=
    hSupply.trans (mapFlight_carries flying_restart)
  have hPhase : CarriesOn b s (setPhase b .running ((s.modSupply b settledSupply).modRun b restartChecks)) := by
    rw [CarriesOn, setPhase_self]
    refine .after_flight hChecks List.prefix_rfl (Nat.le_refl _) (List.Subset.refl _) fun _ l => ⟨?_, l.outputs, l.net⟩
    exact l.view.resumes (by simpa [lawView] using hp) (by simp [lawView, settledSupply])
  refine .trans (.trans (endSafe_after hPhase fun l _ => ?_) (setEvent_carries _)) walk_carries
  rw [setPhase_self]
  refine ⟨?_, nofun⟩
  have hOn : (s.bay b).supply.on = true := l.view.settling (isSettling_iff.2 ⟨n, hn⟩)
  simpa [settledSupply] using hOn

/-! ### The panel -/

theorem endPrompt_after (h : CarriesOn b s t) {q : Prompt} (hq : q ∈ (t.bay b).panel.prompts) (o : StepOutcome)
    (d : Detail) : CarriesOn b s (endPrompt b q.step o d t) :=
  h.trans ((endPrompt_carries hq o d).trans afterEnds_carries)

theorem mem_of_armedPrompt {y : BayState} {q : Prompt} (h : armedPrompt y = some q) : q ∈ y.panel.prompts := by
  unfold armedPrompt at h
  split at h
  · next hl =>
    split at h
    · cases h
      simp [hl]
    · cases h
  · cases h

theorem keyYes_carries : CarriesOn b s (keyYes b s) := by
  refine settleChecks_carries.trans ?_
  simp only [keyYes]
  split
  · exact .refl b _
  · next q hq =>
    have hEnd {o : StepOutcome} := endPrompt_after (.refl b _) (mem_of_armedPrompt hq) o .none
    split
    · exact hEnd
    · exact hEnd
    · exact .refl b _

theorem keyNo_carries : CarriesOn b s (keyNo b s) := by
  refine settleChecks_carries.trans ?_
  simp only [keyNo]
  split
  · exact .refl b _
  · next q hq =>
    split
    · exact endPrompt_after (.refl b _) (mem_of_armedPrompt hq) ..
    · exact .refl b _
    · exact .refl b _

theorem keyStart_carries : CarriesOn b s (keyStart b s) :=
  iteCarries (fun h => iteCarries
    (fun _ => CarriesOn.trans (modPanel_carries (s := s) rfl) (wantText_asks _).carries)
    fun _ => enterRunning_carries (.inr h)) fun _ => .refl b s

theorem keyAbort_carries : CarriesOn b s (keyAbort b s) := abortRun_carries _

theorem actKey_carries (key : Byte) : CarriesOn b s (actKey b key s) :=
  iteCarries (fun _ => keyYes_carries) fun _ => iteCarries (fun _ => keyNo_carries) fun _ =>
    iteCarries (fun _ => keyStart_carries) fun _ => iteCarries (fun _ => keyAbort_carries) fun _ => .refl b s

theorem keyEnded_carries (o : BusOutcome) (data : List Byte) : CarriesOn b s (keyEnded b o data s) :=
  iteCarries (fun _ => CarriesOn.trans (modPanel_carries (s := s) rfl) ((actKey_carries _).trans pollKeys_asks_only.carries))
    fun _ => modPanel_carries (s := s) rfl

theorem closingPanelAgain_carries : CarriesOn b s (closingPanelAgain b s) :=
  iteCarries (fun h => closingPanelDone_carries (by simpa using (Bool.and_eq_true_iff.1 h).1)) fun _ => .refl b s

theorem unlessDone_carries (o : BusOutcome) : CarriesOn b s (if o = .done then s else flagLampFailed b s) :=
  iteCarries (fun _ => .refl b s) fun _ => modStatus_carries _

theorem lampOver_carries : CarriesOn b s (lampOver b s) := by
  have h : CarriesOn b s (s.modPanel b fun p => { p with lampWrite := none, lampWaiting := none }) :=
    modPanel_carries (s := s) rfl
  simp only [lampOver]
  split
  · exact h
  · exact h.trans (wantLamp_asks _).carries

theorem lampEnded_carries (o : BusOutcome) : CarriesOn b s (lampEnded b o s) :=
  (unlessDone_carries o).trans (lampOver_carries.trans closingPanelAgain_carries)

end

end Sys2Proof.Machine

namespace Sys2Proof.Machine

open Sys2Proof

section
variable {b : Bay} {s t : State}

/-! ### The prompt and the settle judgement of a step that may have ended meanwhile -/

/-- The step of a block's hold is in flight, and so was started (R33). -/
theorem BayLaw.prompt_held {y : BayState} (l : BayLaw y) {i : Nat} (h : i ∈ (lawView y).prompts) :
    HeldBy y i .panel ∧ i < y.run.next := by
  obtain ⟨f, hf, rfl, hh⟩ := l.view.prompts i h
  obtain ⟨e, he, rfl⟩ := mem_flying.1 hf
  exact ⟨hh ▸ l.heldBy he, l.view.started _ hf⟩

theorem BayLaw.settle_held {y : BayState} (l : BayLaw y) {i : Nat} (h : (lawView y).settle = some i) :
    HeldBy y i .supply ∧ i < y.run.next := by
  obtain ⟨f, hf, rfl, hh⟩ := l.view.settle i h
  obtain ⟨e, he, rfl⟩ := mem_flying.1 hf
  exact ⟨hh ▸ l.heldBy he, l.view.started _ hf⟩

/-- The prompt of a step taken from its queue is let go of. -/
theorem takePrompt_letsGo {i : Nat} (h : i ∈ (lawView (s.bay b)).prompts) :
    LetsGo b i (fun t => t.modPanel b (takePrompt i)) s := fun t ht => by
  refine ⟨takePrompt_carries i, fun l _ l'' => ?_⟩
  obtain ⟨hHeld, hi⟩ := l.prompt_held h
  refine ⟨(hHeld.carries hi (ht.trans (takePrompt_carries i))).settle l'' nofun, ?_⟩
  rw [bay_modPanel]
  simp [lawView, takePrompt]

/-- A change of the supply monitor that drops its settle judgement. -/
theorem settleDropped_carries {f : Supply → Supply} (hf : lawView { s.bay b with supply := f (s.bay b).supply } =
    { lawView (s.bay b) with settle := none }) : CarriesOn b s (s.modSupply b f) := by
  rw [CarriesOn, bay_modSupply]
  refine .of_flight List.prefix_rfl (Nat.le_refl _) (List.Subset.refl _) fun l => ⟨?_, l.outputs, l.net⟩
  rw [hf]
  exact { l.view with settle := nofun }

theorem settleDropped_letsGo {f : Supply → Supply} {i : Nat} (h : (lawView (s.bay b)).settle = some i)
    (hf : ∀ y : BayState, lawView { y with supply := f y.supply } = { lawView y with settle := none }) :
    LetsGo b i (fun t => t.modSupply b f) s := fun t ht => by
  have hDrop : CarriesOn b t (t.modSupply b f) := settleDropped_carries (hf _)
  refine ⟨hDrop, fun l _ l'' => ?_⟩
  obtain ⟨hHeld, hi⟩ := l.settle_held h
  refine ⟨?_, (hHeld.carries hi (ht.trans hDrop)).prompts l'' nofun⟩
  rw [bay_modSupply, hf]
  exact nofun

/-- The end of a step by its block, with all that follows it. -/
theorem takeEnd_letsGo (h : CarriesOn b s t) {i : Nat} {block : State → State} (hb : LetsGo b i block s) (o : StepOutcome)
    (d : Detail) : CarriesOn b s (takeEnd b i o d (block t)) := by
  obtain ⟨hBlock, hFree⟩ := hb t h
  exact takeEnd_after (h.trans hBlock) _ _ _ fun l l' => hFree l (h.law l) l'

theorem endPrompt_stale (h : CarriesOn b s t) {i : Nat} (hi : i ∈ (lawView (s.bay b)).prompts) (o : StepOutcome)
    (d : Detail) : CarriesOn b s (endPrompt b i o d t) :=
  takeEnd_letsGo h (takePrompt_letsGo hi) o d

theorem armPrompt_carries {q : Prompt} (hq : q ∈ (s.bay b).panel.prompts) : CarriesOn b s (armPrompt b q s) := by
  have hArm {f : Prompt → Prompt} (hf : ∀ x, (f x).step = x.step) :
      CarriesOn b s (pumpDisplay b (s.modPanel b (markPrompt q.step f))) :=
    CarriesOn.trans (modPanel_carries (markPrompt_steps hf _ _)) pumpDisplay_carries
  unfold armPrompt
  split
  · exact endPrompt_stale settleChecks_carries (List.mem_map_of_mem hq) ..
  · exact hArm fun _ => rfl
  · exact hArm fun _ => rfl

theorem displayEnded_carries (purpose : DisplayPurpose) (o : BusOutcome) :
    CarriesOn b s (displayEnded b purpose o s) := by
  have hIdle : CarriesOn b s (s.modPanel b fun p => { p with display := none }) := modPanel_carries (s := s) rfl
  refine hIdle.trans ?_
  simp only [displayEnded]
  split
  · exact settleChecks_carries.trans afterEnds_carries
  · exact (unlessDone_carries o).trans closingPanelAgain_carries
  · split
    · exact settleChecks_carries.trans afterEnds_carries
    · next i _ q hq =>
      have hMem := List.mem_of_find?_eq_some hq
      have hStep : q.step = i := by
        have := List.find?_some hq
        simp only [Bool.and_eq_true, decide_eq_true_eq] at this
        exact this.1
      refine iteCarries (fun _ => armPrompt_carries hMem) fun _ => ?_
      exact endPrompt_stale settleChecks_carries (hStep ▸ List.mem_map_of_mem hMem) ..

theorem attentionTo_carries (level : Bool) : CarriesOn b s (attentionTo b level s) := by
  have h : CarriesOn b s (s.modPanel b fun p => { p with attention := level }) := modPanel_carries (s := s) rfl
  simp only [attentionTo]
  exact iteCarries (fun _ => h) fun _ => h.trans pollKeys_asks_only.carries

theorem noAnswerDue_carries : CarriesOn b s (noAnswerDue b s) := by
  unfold noAnswerDue
  split
  · exact .refl b s
  · next q hq =>
    exact endWithChecks_carries _ _ _ (takePrompt_letsGo (List.mem_map_of_mem (List.mem_of_find?_eq_some hq)))

/-! ### The fixture check and the owners of transactions -/

theorem checking_not_rest {p : Phase} (h : p = .checking) : ¬restPhase p := by simp [restPhase, h]

theorem checkPassed_carries (h : (s.bay b).phase = .checking) : CarriesOn b s (checkPassed b s) :=
  iteCarries (fun _ => enterArming_carries h) fun _ =>
    iteCarries (fun _ => enterClosing_carries (checking_not_rest h) ..) fun _ => enterRunning_carries (.inl h)

theorem takeIdentValues_carries (x : Ident) : CarriesOn b s (takeIdentValues b x s) :=
  CarriesOn.trans (modRun_carries (s := s) rfl rfl) (modStatus_carries _)

theorem takeIdentValues_phase (x : Ident) : ((takeIdentValues b x s).bay b).phase = (s.bay b).phase := by
  simp [takeIdentValues]

theorem takeIdent_carries (o : BusOutcome) (data : List Byte) : CarriesOn b s (takeIdent b o data s) := by
  have hMark : CarriesOn b s (s.modRun b fun r => { r with identMark := false }) := modRun_carries rfl rfl
  refine hMark.trans ?_
  simp only [takeIdent]
  refine iteCarries (fun _ => .refl b _) fun h => ?_
  have hp := not_not.1 h
  refine iteCarries (fun _ => enterClosing_carries (checking_not_rest hp) ..) fun _ =>
    (takeIdentValues_carries (parseIdent data)).trans ?_
  have hp' := (takeIdentValues_phase (b := b) (s := s.modRun b fun r => { r with identMark := false })
    (parseIdent data)).trans hp
  split
  · exact enterClosing_carries (checking_not_rest hp') ..
  · exact checkPassed_carries hp'

theorem askIdent_carries : CarriesOn b s (askIdent b s) := by
  have hMark : CarriesOn b s (s.modRun b fun r => { r with identMark := true }) := modRun_carries rfl rfl
  refine hMark.trans ?_
  simp only [askIdent]
  split
  · exact busRequest_carries ‹_›
  · exact takeIdent_carries ..

theorem takeEnd_entry {e : InFlight} (he : e ∈ (s.bay b).run.inFlight) (hh : holder e.work = .none) (o : StepOutcome)
    (d : Detail) : CarriesOn b s (takeEnd b e.index o d s) :=
  (endEntry_carries he hh o d).trans afterEnds_carries

theorem fixtureStepEnded_carries (i : Nat) (o : BusOutcome) (data : List Byte) :
    CarriesOn b s (fixtureStepEnded b i o data s) := by
  refine settleChecks_carries.trans ?_
  simp only [fixtureStepEnded]
  split
  · exact .refl b _
  · next e he =>
    obtain ⟨hMem, rfl⟩ := mem_of_find he
    split
    · next hw => exact takeEnd_entry hMem (by rw [hw, holder]) ..
    · exact .refl b _

theorem cycleCountEnded_carries (o : BusOutcome) : CarriesOn b s (cycleCountEnded b o s) :=
  iteCarries (fun h => cycleEnded_carries (by simpa using (Bool.and_eq_true_iff.1 h).1) _) fun _ => .refl b s

theorem deliver_carries (e : BusEntry) (o : BusOutcome) (data : List Byte) : CarriesOn e.bay s (deliver e o data s) := by
  unfold deliver
  split
  · exact takeIdent_carries ..
  · exact cycleCountEnded_carries _
  · exact fixtureStepEnded_carries ..
  · exact displayEnded_carries ..
  · exact lampEnded_carries _
  · exact keyEnded_carries ..

/-! ### LOADING -/

/-- A valid run leaves LOADING for CHECKING with its retry maximum (R30, R40, R142). -/
theorem LawView.Holds.loads {v : LawView} (l : v.Holds) (h : v.phase = .loading) (most : Nat) :
    { v with phase := .checking, reading := false, most := most }.Holds := by
  have hNot : ¬livePhase v.phase := by simp [livePhase, h]
  exact { l with
    paused := nofun
    supplied := fun h => absurd (l.supplied h) hNot
    retrying := fun h => absurd (.inr (l.retrying h)) hNot
    held := ⟨fun hs => absurd (l.held.1 hs) (by simp [restPhase, h]), by simp [restPhase]⟩
    flight := fun h => absurd (l.flight h) hNot
    ended := by simp [livePhase]
    reads := ⟨nofun, nofun⟩
    fresh := fun _ => l.fresh (.inl h)
    bounded := by
      rw [l.loading h]
      exact Nat.zero_le _
    loading := nofun }

theorem loadSetup_stim (h : Header) (x : StimSetup × SchedSetup × Vector TapSetup 8 × Supervision) (y : BayState) :
    SameOutputs y.stim (loadSetup h x y).stim := by
  simp only [loadSetup]
  split <;> exact ⟨rfl, rfl, rfl, rfl⟩

theorem loadSetup_net (h : Header) (x : StimSetup × SchedSetup × Vector TapSetup 8 × Supervision) (y : BayState) :
    (loadSetup h x y).net.state = y.net.state ∧ (loadSetup h x y).net.queue = y.net.queue ∧
      (loadSetup h x y).net.attempt = y.net.attempt := by
  simp only [loadSetup, setWorkingParts, loadTaps]
  split <;> split <;> exact ⟨rfl, rfl, rfl⟩

theorem loadSetup_supply (h : Header) (x : StimSetup × SchedSetup × Vector TapSetup 8 × Supervision) (y : BayState) :
    ∃ setup, (loadSetup h x y).supply = { y.supply with setup := setup } := by
  simp only [loadSetup, loadSupervision]
  split
  · exact ⟨_, rfl⟩
  · exact ⟨y.supply.setup, rfl⟩

/-- The bay at the end of LOADING, its setup loaded. -/
theorem BayLaw.loads {y z : BayState} (l : BayLaw y) (hp : y.phase = .loading) {h : Header}
    {x : StimSetup × SchedSetup × Vector TapSetup 8 × Supervision} (hz : z.phase = .checking)
    (hr : z.run = { y.run with load := none, copy := z.run.copy }) (hs : z.stim = (loadSetup h x y).stim)
    (hn : z.net = (loadSetup h x y).net) (hq : z.supply = (loadSetup h x y).supply) (hm : z.panel = y.panel) :
    BayLaw z := by
  have hStim := loadSetup_stim h x y
  obtain ⟨hState, hQueue, hAttempt⟩ := loadSetup_net h x y
  obtain ⟨setup, hSupply⟩ := loadSetup_supply h x y
  have hView : lawView z =
      { lawView y with phase := .checking, reading := false, most := setup.retryMax } := by
    rw [lawView, hz, hr, hs, hn, hq, hm, hState, hSupply, hStim.safe]
    rfl
  refine ⟨hView ▸ l.view.loads hp _, ?_, ?_⟩
  · rw [hs]
    exact .of_eq hStim.safe hStim.generators hStim.levelOut hStim.lineOut l.outputs
  · rw [hn]
    exact .of_eq hState hQueue hAttempt l.net

theorem loadValid_carries (hp : (s.bay b).phase = .loading) (h : Header)
    (x : StimSetup × SchedSetup × Vector TapSetup 8 × Supervision) (steps : List Step) :
    CarriesOn b s (loadValid b h x steps s) := by
  refine CarriesOn.trans ?_ askIdent_carries
  rw [CarriesOn, setPhase_self, bay_modRun, bay_modBay]
  exact .of_flight List.prefix_rfl (Nat.le_refl _) (List.Subset.refl _) fun l => l.loads hp rfl rfl rfl rfl rfl rfl

theorem issueRead_carries {l : Loading} (hl : (s.bay b).run.load = some l) (x : LoadRead) :
    CarriesOn b s (issueRead b x s) :=
  modRun_carries (by simp [lawView, hl]) rfl

theorem refuseSetup_carries (hp : (s.bay b).phase = .loading) : CarriesOn b s (refuseSetup b s) :=
  enterClosing_carries (by simp [restPhase, hp]) ..

theorem validate_carries (hp : (s.bay b).phase = .loading) (h : Header) : CarriesOn b s (validate b h s) := by
  simp only [validate]
  refine iteCarries (fun _ => refuseSetup_carries hp) fun _ => ?_
  split
  · exact refuseSetup_carries hp
  · split
    · exact refuseStep_carries hp ..
    · exact loadValid_carries hp ..

theorem afterRead_carries (hp : (s.bay b).phase = .loading) {l : Loading} (hl : (s.bay b).run.load = some l)
    (x : LoadRead) : CarriesOn b s (afterRead b x s) := by
  unfold afterRead
  split
  · exact .refl b s
  · refine iteCarries (fun _ => refuseSetup_carries hp) fun _ => ?_
    split
    · exact issueRead_carries hl _
    · exact validate_carries hp _

theorem takeLabel_carries (x : LoadRead) (data : List Byte) : CarriesOn b s (takeLabel b x data s) :=
  iteCarries (fun _ => modStatus_carries _) fun _ => .refl b s

theorem takeLabel_run (x : LoadRead) (data : List Byte) : ((takeLabel b x data s).bay b).run = (s.bay b).run ∧
    ((takeLabel b x data s).bay b).phase = (s.bay b).phase := by
  unfold takeLabel
  split <;> simp

theorem loadingOf_eq {y : BayState} {l : Loading} (h : loadingOf y = some l) : y.phase = .loading ∧ y.run.load = some l := by
  unfold loadingOf at h
  split at h
  · exact ⟨‹_›, h⟩
  · cases h

theorem readDone_carries {l : Loading} (hl : loadingOf (s.bay b) = some l) (data : List Byte) :
    CarriesOn b s (readDone b l data s) := by
  obtain ⟨hp, hLoad⟩ := loadingOf_eq hl
  have hCopy : CarriesOn b s (s.modRun b fun r => { r with copy := storeRead l.read data r.copy }) := modRun_carries rfl rfl
  refine (hCopy.trans (takeLabel_carries l.read data)).trans ?_
  obtain ⟨hRun, hPhase⟩ := takeLabel_run (b := b)
    (s := s.modRun b fun r => { r with copy := storeRead l.read data r.copy }) l.read data
  rw [bay_modRun] at hRun hPhase
  simp only [readDone]
  split
  · exact abortNow_carries (by rw [hPhase, hp]; rfl) _
  · exact afterRead_carries (hPhase.trans hp) (l := l) (by rw [hRun]; exact hLoad) _

/-! ### The ends that fall due at a boundary -/

theorem dwellEnd_carries (i : Nat) : CarriesOn b s (dwellEnd b i s) := by
  unfold dwellEnd
  split
  · exact .refl b s
  · next e he =>
    obtain ⟨hMem, rfl⟩ := mem_of_find he
    refine iteCarries (fun hOver => endWithChecks_carries _ _ _ (.none hMem ?_ fun _ => .refl b _)) fun _ => .refl b s
    cases hw : e.work <;> simp [dwellOver, hw, holder] at hOver ⊢

theorem checkEnd_carries (test : InFlight → Bool) (i : Nat) : CarriesOn b s (checkEnd b test i s) := by
  unfold checkEnd
  split
  · exact .refl b s
  · exact iteCarries (fun _ => withChecks_carries _ _ fun _ h => h.trans (endCheck_carries _)) fun _ => .refl b s

theorem takeReport_carries (i : Nat) (o : StepOutcome) (d : Detail) : CarriesOn b s (takeReport b i o d s) := by
  unfold takeReport
  split
  · exact .refl b s
  · next e he =>
    obtain ⟨hMem, rfl⟩ := mem_of_find he
    exact endWithChecks_carries _ _ _ (stopBlock_letsGo hMem)

theorem blockReport_carries (i : Nat) (o : StepOutcome) (d : Detail) : CarriesOn b s (blockReport b i o d s) := by
  unfold blockReport
  split
  · exact .refl b s
  · exact iteCarries (fun _ => iteCarries (fun _ => checkEnd_carries _ _) fun _ => takeReport_carries ..)
      fun _ => .refl b s

theorem timeoutEnd_carries (i : Nat) : CarriesOn b s (timeoutEnd b i s) := by
  unfold timeoutEnd
  split
  · exact .refl b s
  · next e he =>
    obtain ⟨hMem, rfl⟩ := mem_of_find he
    exact iteCarries (fun _ => endWithChecks_carries _ _ _ (stopBlock_letsGo hMem)) fun _ => .refl b s

theorem finishDrive_carries (i : Nat) : CarriesOn b s (finishDrive b i s) := by
  unfold finishDrive
  split
  · exact .refl b s
  · exact withChecks_carries _ _ fun _ h => h.trans (endDrive_carries _)

theorem actionReached_carries (c : Fin 14) : CarriesOn b s (actionReached b c s) := by
  unfold actionReached
  split
  · exact .refl b s
  · exact (endAction_carries _ _).trans (finishDrive_carries _)

theorem settleMissed_carries : CarriesOn b s (settleMissed b s) := by
  unfold settleMissed
  split
  · exact .refl b s
  · next i hi =>
    refine endWithChecks_carries _ _ _ (settleDropped_letsGo ?_ fun _ => rfl)
    unfold unsettledStep at hi
    split at hi
    · cases hi
    · next j hj =>
      split at hi
      · simpa [lawView, hj] using hi
      · cases hi

theorem offTimeEnd_carries : CarriesOn b s (offTimeEnd b s) := by
  refine iteCarries (fun h => ?_) fun _ => .refl b s
  rw [CarriesOn, bay_modSupply]
  refine .of_flight List.prefix_rfl (Nat.le_refl _) (List.Subset.refl _) fun l => ⟨?_, l.outputs, l.net⟩
  have hRetry : (lawView (s.bay b)).retrying = true := by
    unfold offTimeOver at h
    split at h
    · next n hn => simp [lawView, hn]
    · cases h
  have hPaused := l.view.retrying hRetry
  have hFault := l.view.fault.trans hRetry
  exact { l.view with
    off := nofun
    supplied := fun _ => .inr hPaused
    retrying := fun _ => hPaused
    settling := fun _ => rfl
    fault := hFault }

theorem settleFailed_carries : CarriesOn b s (settleFailed b s) := by
  unfold settleFailed
  split
  · exact .refl b s
  · exact latchFault_carries _

/-! ### The boundary -/

theorem releaseDue_carries (e : Fin 16) : CarriesOn b s (releaseDue b e s) := whenever_carries fun _ => releaseEntry_carries e

theorem settleBay_carries : CarriesOn b s (settleBay b s) := by
  have h1 : CarriesOn b s (probeExpiry b (forAll (indices 16) (releaseDue b) s)) :=
    (forAll_carries fun e _ => releaseDue_carries e).trans probeExpiry_carries
  have h3 := (h1.trans (forAll_carries (xs := indices 14) fun c _ => actionReached_carries c)).trans settleChecks_carries
  simp only [settleBay]
  refine .trans (.trans ?_ (forAll_carries fun i _ => timeoutEnd_carries i)) (modNet_carries_quiet rfl rfl rfl)
  refine .trans (.trans (.trans ?_ (forAll_carries fun c _ => recognize_carries c)) offTimeEnd_carries) settleFailed_carries
  exact .trans (.trans (h3.trans (forAll_carries fun i _ => dwellEnd_carries i)) settleMissed_carries) noAnswerDue_carries

end

end Sys2Proof.Machine

namespace Sys2Proof.Machine

open Sys2Proof

section
variable {b : Bay} {s t u : State}

/-! ### One bay at a boundary -/

theorem lawView_monitor (inp : BayInputs) (now : RackTime) (tick : Nat) (y : BayState) :
    lawView (monitor inp { stopsAtBoundary inp now y with fi := expireEdges tick y.fi }) = lawView y ∧
      SameOutputs y.stim (monitor inp { stopsAtBoundary inp now y with fi := expireEdges tick y.fi }).stim := by
  have hStim : SameOutputs y.stim (stopsAtBoundary inp now y).stim := by
    have h : SameOutputs y.stim (if inp.stopsHere && y.phase ≠ .running then handStopped (handedAt inp now) y.stim
        else y.stim) := by
      split
      · exact handStopped_outputs ..
      · exact .refl _
    exact h.trans ⟨rfl, rfl, rfl, rfl⟩
  refine ⟨?_, hStim⟩
  have hRetry (r : RetryPhase) : (countRetry r != .none) = (r != .none) ∧ isSettling (countRetry r) = isSettling r := by
    cases r <;> exact ⟨rfl, rfl⟩
  change { lawView y with
    retrying := countRetry y.supply.retry != .none
    settling := isSettling (countRetry y.supply.retry)
    safe := (stopsAtBoundary inp now y).stim.safe } = lawView y
  rw [(hRetry _).1, (hRetry _).2, hStim.safe]
  rfl

theorem monitored_carries (inp : BayInputs) : CarriesOn b s
    (s.modBay b fun y => monitor inp { stopsAtBoundary inp s.rackTime y with fi := expireEdges s.tick y.fi }) := by
  obtain ⟨hView, hStim⟩ := lawView_monitor inp s.rackTime s.tick (s.bay b)
  exact modBay_carries (.of_view hView rfl (.of_eq hStim.safe hStim.generators hStim.levelOut hStim.lineOut) id)

theorem addLatched_phase (f : FaultSet) : ((addLatched b f s).bay b).phase = (s.bay b).phase := by
  obtain ⟨w, hw⟩ := addLatched_bay (b := b) (s := s) f
  rw [hw]

theorem lateFault_carries (c : Condition) : CarriesOn b s (lateFault b c s) := by
  have hHalt (h : (s.bay b).phase = .idle) : CarriesOn b s (goHalted b (addLatched b (condBit c) s)) :=
    (addLatched_carries _).trans (goHalted_carries (by rw [addLatched_phase, h]; exact .inr (.inl rfl)))
  simp only [lateFault]
  split
  · exact modSupply_carries rfl
  · exact addReported_carries _
  · exact addReported_carries _
  · exact addReported_carries _
  · exact hHalt ‹_›
  · exact hHalt ‹_›
  · exact addLatched_carries _
  · exact addLatched_carries _
  · exact .refl b s

theorem lateFaults_carries (inp : BayInputs) : CarriesOn b s (lateFaults b inp s) :=
  CarriesOn.trans (modSupply_carries (s := s) rfl) (forAll_carries fun c _ => lateFault_carries c)

theorem recognizeFirst_carries (inp : BayInputs) (c : Condition) : CarriesOn b s (recognizeFirst b inp c s) :=
  CarriesOn.trans (iteCarries (fun _ => (advanceAll_outputs ..).carries) fun _ => .refl b s) (recognize_carries _)

theorem flying_countStep (y : BayState) (inp : BayInputs) (now : RackTime) (e : InFlight) :
    flying (countStep y inp now e) = flying e := by
  unfold countStep
  split
  · rfl
  · cases hw : e.work <;> simp [flying, holder, hw]

/-- The settle judgement counts, and stays that of its step (R145). -/
theorem countSettle_eq (atStart : Nat → Bool) (p : Supply) : ∃ j, countSettle atStart p = { p with settle := j } ∧
    j.map (fun j => j.step) = p.settle.map fun j => j.step := by
  unfold countSettle
  split
  · exact ⟨p.settle, rfl, rfl⟩
  · next j hj =>
    split
    · exact ⟨p.settle, rfl, rfl⟩
    · exact ⟨_, rfl, by rw [hj]; rfl⟩

theorem countRunning_stim (inp : BayInputs) (now : RackTime) (y : BayState) : (countRunning inp now y).stim =
    advanceAll (stepStartsAt inp now y.run) (handedAt inp now) y.stim := by
  simp only [countRunning]

theorem lawView_countRunning (inp : BayInputs) (now : RackTime) (y : BayState) :
    lawView (countRunning inp now y) = lawView y ∧ SameOutputs y.stim (countRunning inp now y).stim := by
  have hStim := advanceAll_outputs (stepStartsAt inp now y.run) (handedAt inp now) y.stim
  have hPrompt (q : Prompt) : (countPrompt inp now q).step = q.step := by
    unfold countPrompt
    split <;> rfl
  obtain ⟨j, hj, hStep⟩ := countSettle_eq (stepStartsAt inp now y.run) y.supply
  rw [← countRunning_stim] at hStim
  refine ⟨?_, hStim⟩
  rw [lawView, hStim.safe]
  simp only [lawView, countRunning, hj, hStep, List.map_map, Function.comp_def, flying_countStep, hPrompt]

theorem countBay_carries (inp : BayInputs) : CarriesOn b s (countBay b inp s) := by
  have hRun : CarriesOn b s (if (s.bay b).phase = .running then s.modBay b (countRunning inp s.rackTime) else s) := by
    refine iteCarries (fun _ => ?_) fun _ => .refl b s
    obtain ⟨hView, hStim⟩ := lawView_countRunning inp s.rackTime (s.bay b)
    exact modBay_carries (.of_view hView rfl (.of_eq hStim.safe hStim.generators hStim.levelOut hStim.lineOut) id)
  exact (hRun.trans convertAll_carries).trans (modNet_carries_quiet rfl rfl rfl)

theorem lidClosedAgain_carries : CarriesOn b s (lidClosedAgain b s) :=
  iteCarries (fun _ => CarriesOn.trans (modPanel_carries (s := s) rfl) (wantText_asks _).carries) fun _ => .refl b s

theorem keysAtBoundary_carries (inp : BayInputs) : CarriesOn b s (keysAtBoundary b inp s) :=
  CarriesOn.trans (modPanel_carries (s := s) rfl) pollKeys_asks_only.carries

theorem powerSettled_carries (supv : Int) : CarriesOn b s (powerSettled b supv s) := by
  unfold powerSettled
  split
  · exact .refl b s
  · next i hi =>
    have hSettle : (lawView (s.bay b)).settle = some i := by
      unfold settledStep at hi
      split at hi
      · next j _ hj =>
        split at hi
        · simpa [lawView, hj] using hi
        · cases hi
      · cases hi
    have hLets := settleDropped_letsGo (f := fun p => { p with armed := true, settle := none }) hSettle fun _ => rfl
    refine withChecks_carries _ _ fun t ht => ?_
    obtain ⟨hDrop, hFree⟩ := hLets t ht
    exact endStep_after (ht.trans hDrop) _ _ _ fun l l' => hFree l (ht.law l) l'

theorem settledBay_carries (supv : Int) : CarriesOn b s (settledBay b supv s) := by
  unfold settledBay
  split
  · exact powerSettled_carries _
  · next hp =>
    refine iteCarries (fun h => ?_) fun _ => .refl b s
    obtain ⟨-, hSettles⟩ := Bool.and_eq_true_iff.1 h
    unfold retrySettles at hSettles
    split at hSettles
    · exact retrySettled_carries hp ‹_›
    · cases hSettles
  · exact .refl b s

theorem bayBoundary_carries (inputs : PerBay BayInputs) : CarriesOn b s (bayBoundary inputs b s) := by
  simp only [bayBoundary]
  refine .trans ?_ (settledBay_carries _)
  refine .trans (.trans (.trans ?_ (countBay_carries _)) lidClosedAgain_carries) (keysAtBoundary_carries _)
  exact .trans (.trans (monitored_carries _) (lateFaults_carries _))
    (iteCarries (fun _ => forAll_carries fun c _ => recognizeFirst_carries _ c) fun _ => .refl b _)

/-! ### The take of a slot -/

/-- A bay takes a slot in IDLE: the results of the run before are gone, and the laws go on to hold (R39). -/
structure TakesRun (y z : BayState) : Prop where
  idle : y.phase = .idle
  loading : z.phase = .loading
  results : z.run.results = []
  law : BayLaw y → BayLaw z

theorem LawView.Holds.takes {v : LawView} (l : v.Holds) (h : v.phase = .idle) (x : Slot) :
    { v with
      phase := .loading
      retries := 0
      slot := some x
      lastTaken := some x
      reading := true
      next := 0
      flight := []
      results := [] }.Holds := by
  have hNot : ¬livePhase v.phase := by simp [livePhase, h]
  have hNil := l.flight_nil hNot
  exact {
    off := l.off
    paused := nofun
    network := l.network
    supplied := fun h => absurd (l.supplied h) hNot
    retrying := fun h => absurd (.inr (l.retrying h)) hNot
    settling := l.settling
    held := by simp [restPhase]
    taken := fun _ => id
    four := Nat.zero_le _
    flight := fun h => absurd rfl h
    started := nofun
    ordered := nofun
    distinctFlight := List.nodup_nil
    distinctResults := List.nodup_nil
    apart := nofun
    ended := nofun
    reads := by simp
    fresh := fun _ => ⟨rfl, rfl⟩
    bounded := Nat.zero_le _
    loading := fun _ => rfl
    fault := l.fault
    settle := fun i hi => by
      obtain ⟨f, hf, -⟩ := l.settle i hi
      rw [hNil] at hf
      cases hf
    prompts := fun i hi => by
      obtain ⟨f, hf, -⟩ := l.prompts i hi
      rw [hNil] at hf
      cases hf }

theorem waitingTaken_bay (x : Slot) : ∃ w, (waitingTaken b x (slotTaken b x s)).bay b =
    { bayTaken b x s (s.bay b) with xu := w } := by
  by_cases hx : (s.bay b).xu.waiting = some x
  · rw [waitingTaken_same hx, triggerBay_self, bay_modBayXu, slotTaken_bay]
    exact ⟨_, rfl⟩
  · rw [waitingTaken_other hx, slotTaken_bay]
    exact ⟨_, rfl⟩

theorem take_takesRun (h : (s.bay b).phase = .idle) (x : Slot) : TakesRun (s.bay b) ((take b x s).bay b) := by
  obtain ⟨w, hw⟩ := waitingTaken_bay (b := b) (s := s) x
  obtain ⟨p, f, hp, hb⟩ := (((wantLamp_asks (b := b) (s := waitingTaken b x (slotTaken b x s)) 0x00).trans
    (wantText_asks .clear))).bay
  rw [take_eq, setPhase_self, hb, hw]
  rw [hw] at hp
  refine ⟨h, rfl, rfl, fun l => ⟨?_, l.outputs, l.net⟩⟩
  have hView := l.view.takes h x
  rw [lawView] at hView ⊢
  simp only [hp]
  exact hView

/-- A bay's run carries on, or it takes a slot. -/
def RunsOn (y z : BayState) : Prop := BayCarriesOn y z ∨ TakesRun y z

theorem RunsOn.law {y z : BayState} (h : RunsOn y z) (l : BayLaw y) : BayLaw z := h.elim (·.law l) (·.law l)

/-! ### Requests and registers of one bay -/

theorem actSeq_carries (seq : Word16) : CarriesOn b s (actSeq b seq s) := modBayXu_carries _

theorem abortRequest_carries (seq : Word16) : CarriesOn b s (abortRequest b seq s) := by
  refine (actSeq_carries seq).trans (settleChecks_carries.trans ?_)
  simp only [abortRequest]
  refine iteCarries (fun _ => echoBay_carries _ _) fun _ => ?_
  split
  · exact modLoad_carries (loadingOf_eq ‹_›).2 _
  · exact (abortRun_carries _).trans (echoBay_carries _ _)

theorem withdrawRequest_carries (seq : Word16) (argument : Word32) :
    CarriesOn b s (withdrawRequest b seq argument s) := by
  refine (actSeq_carries seq).trans ?_
  simp only [withdrawRequest]
  split
  · exact echoBay_carries _ _
  · exact iteCarries (fun _ => modBayXu_carries _) fun _ => echoBay_carries _ _

theorem clearLatched_phase : ((clearLatched b s).bay b).phase = (s.bay b).phase := by
  obtain ⟨w, hw⟩ := clearLatched_bay (b := b) (s := s)
  rw [hw]

theorem clearRequest_carries (seq : Word16) : CarriesOn b s (clearRequest b seq s) := by
  refine (actSeq_carries seq).trans (iteCarries (fun h => ?_) fun _ => echoBay_carries _ _)
  refine clearLatched_carries.trans (CarriesOn.trans (setPhase_rests_carries ?_ (.inr (.inl rfl))) (echoBay_carries _ _))
  rw [clearLatched_phase, h]
  exact .inr (.inr rfl)

theorem unknownBay_carries (seq : Word16) : CarriesOn b s (unknownBay b seq s) :=
  (actSeq_carries seq).trans (echoBay_carries _ _)

theorem bayCode_carries (code : Nat) (seq : Word16) (argument : Word32) :
    CarriesOn b s (bayCode b code seq argument s) := by
  unfold bayCode
  split
  · exact abortRequest_carries _
  · exact withdrawRequest_carries ..
  · exact clearRequest_carries _
  · exact unknownBay_carries _

theorem bayRequest_carries {seq : Word16} {f : State → State} (h : CarriesOn b s (f s)) :
    CarriesOn b s (bayRequest b seq f s) :=
  whenever_carries fun _ => h

theorem bayBlockRead_carries (discard : Bool) (d : List Byte) : CarriesOn b s (bayBlockRead b discard d s) :=
  iteCarries (fun _ => .refl b s) fun _ => bayRequest_carries (bayCode_carries ..)

theorem enableBay_carries : CarriesOn b s (enableBay b s) := by
  have h : CarriesOn b s (s.modBayXu b fun x => { x with enabled := true }) := modBayXu_carries _
  refine iteCarries (fun _ => .refl b s) fun _ => iteCarries (fun hp => h.trans ?_) fun _ => h
  exact setPhase_rests_carries (by rw [bay_modBayXu]; exact .inl hp) (.inr (.inl rfl))

theorem disableByPhase_carries : CarriesOn b s (disableByPhase b s) := by
  have hAbort : CarriesOn b s (abortRun b .bayDisabled s) := abortRun_carries _
  unfold disableByPhase
  split
  · exact goOffline_carries (.inr (.inl ‹_›))
  · exact goOffline_carries (.inr (.inr ‹_›))
  · exact hAbort
  · exact hAbort
  · exact hAbort
  · exact hAbort
  · exact hAbort
  · exact .refl b s
  · exact .refl b s

theorem modPass_carries (f : Pass → Pass) : CarriesOn b s (modPass f s) := .of_bay rfl

theorem disableBay_carries : CarriesOn b s (disableBay b s) :=
  iteCarries (fun _ => (modBayXu_carries _).trans ((modPass_carries _).trans disableByPhase_carries)) fun _ => .refl b s

theorem writeBayen_carries (value : Word32) : CarriesOn b s (writeBayen value b s) :=
  iteCarries (fun _ => enableBay_carries) fun _ => disableBay_carries

/-! ### Operations that leave every bay as it is -/

/-- The scan pass is none of any bay: its changes leave the bays as they are. -/
theorem scan_bays (h : ∀ c, ScanMoves none c s t) : ∀ o, t.bay o = s.bay o := fun o => by
  obtain ⟨c, hc⟩ : ∃ c : Bay, o ≠ c := by cases o <;> [exact ⟨.bay1, nofun⟩; exact ⟨.bay0, nofun⟩; exact ⟨.bay0, nofun⟩;
    exact ⟨.bay0, nofun⟩]
  have hOut : (outsideScan c t).bay o = (outsideScan c s).bay o := by rw [(h c).outside_eq]
  exact (outside_bay hc t).symm.trans (hOut.trans (outside_bay hc s))

/-- In every bay the run carries on. -/
def AllCarryOn (s t : State) : Prop := ∀ o, CarriesOn o s t

theorem AllCarryOn.refl (s : State) : AllCarryOn s s := fun o => .refl o s

theorem AllCarryOn.trans (h : AllCarryOn s t) (g : AllCarryOn t u) : AllCarryOn s u := fun o => (h o).trans (g o)

theorem AllCarryOn.of_bays (h : t.bays = s.bays) : AllCarryOn s t := fun o => .of_bay (by rw [State.bay, State.bay, h])

theorem modBus_all (f : Bus → Bus) : AllCarryOn s (s.modBus f) := .of_bays rfl

theorem AllCarryOn.of_scan (h : ∀ c, ScanMoves none c s t) : AllCarryOn s t := fun o => .of_bay (scan_bays h o)

/-- An operation of one bay: the others stay as they are. -/
theorem CarriesOn.all {k : Option OwnItem} (h : CarriesOn b s t) (m : ScanMoves k b s t) : AllCarryOn s t := fun o => by
  by_cases ho : o = b
  · exact ho ▸ h
  · have hOut : (outsideScan b t).bay o = (outsideScan b s).bay o := by rw [m.outside_eq]
    exact .of_bay ((outside_bay ho t).symm.trans (hOut.trans (outside_bay ho s)))

theorem iteAll {c : Prop} [Decidable c] (ht : c → AllCarryOn s t) (hu : ¬c → AllCarryOn s u) :
    AllCarryOn s (if c then t else u) := by
  split
  · exact ht ‹_›
  · exact hu ‹_›

theorem wheneverAll {c : Bool} {f : State → State} (h : c = true → AllCarryOn s (f s)) : AllCarryOn s (whenever c f s) :=
  iteAll h fun _ => .refl s

theorem whenUpAll {f : State → State} (h : AllCarryOn s (f s)) : AllCarryOn s (whenUp f s) :=
  iteAll (fun _ => .refl s) fun _ => h

theorem forAllAll {α : Type} {xs : List α} {f : α → State → State} (h : ∀ x t, AllCarryOn t (f x t)) :
    AllCarryOn s (forAll xs f s) :=
  forAll_keeps (P := fun t => AllCarryOn s t) xs f s (.refl s) fun x _ t ht => ht.trans (h x t)

theorem triggerRack_bays : (triggerRack s).bays = s.bays := by
  unfold triggerRack
  split <;> rfl

theorem echoRack_all (seq : Word16) (r : EchoResult) : AllCarryOn s (echoRack seq r s) := .of_bays triggerRack_bays

theorem setBusState_all (st : BusState) : AllCarryOn s (setBusState st s) := .of_bays (setBusState_bays st s)

theorem enterBusyOther_all : AllCarryOn s (enterBusyOther s) := .of_bays (enterBusyOther_bays s)

theorem enterIdle_all : AllCarryOn s (enterIdle s) := by
  have h : AllCarryOn s (restartCounts (setBusState .idle s)) := .of_bays (setBusState_bays _ s)
  exact iteAll (fun _ => h) fun _ => h.trans (setBusState_all _)

theorem beginRecovery_all : AllCarryOn s (beginRecovery s) := .of_bays (setBusState_bays _ _)

theorem recoverRequest_all (seq : Word16) : AllCarryOn s (recoverRequest seq s) :=
  iteAll (fun _ => .of_bays (setBusState_bays _ _)) fun _ => .of_bays triggerRack_bays

theorem unknownRack_all (seq : Word16) : AllCarryOn s (unknownRack seq s) := .of_bays triggerRack_bays

theorem rackRequest_all {seq : Word16} {f : State → State} (h : AllCarryOn s (f s)) : AllCarryOn s (rackRequest seq f s) :=
  wheneverAll fun _ => h

theorem rackBlockRead_all (d : List Byte) : AllCarryOn s (rackBlockRead d s) := by
  refine AllCarryOn.trans (t := s.modBus fun u => { u with fast := u32At d 4 % 4 = 1 }) (.of_bays rfl) (rackRequest_all ?_)
  split
  · exact recoverRequest_all _
  · exact unknownRack_all _

theorem passOn_all (r : PassRead) : AllCarryOn s (passOn r s) := .of_scan fun _ => passOn_moves r

theorem passResume_all : AllCarryOn s (passResume s) := .of_scan fun _ => passResume_moves

theorem blockRead_all (d : List Byte) : AllCarryOn s (blockRead d s) := by
  unfold blockRead
  split
  · exact .refl s
  · split
    · exact (rackBlockRead_all _).trans (passOn_all _)
    · exact ((bayBlockRead_carries _ _).all (bayBlockRead_moves _ _).scan).trans (passOn_all _)
    · exact .refl s

/-! ### The fixture bus -/

theorem serveHeld_bay (o : Bay) : (serveHeld s).bay o = s.bay o := rfl

theorem endHead_all (o : BusOutcome) (data : List Byte) : AllCarryOn s (endHead o data s) := by
  unfold endHead
  split
  · exact .refl s
  · next e rest _ =>
    refine AllCarryOn.trans (t := s.modBus fun u => { u with queue := rest, onBus := false }) (.of_bays rfl) ?_
    refine CarriesOn.all (k := none) (b := e.bay) ?_ (Moves.scan ((deliver_moves ..).trans (serveHeld_moves.trans
      (triggerBay_moves.trans closingRelease_moves))))
    exact (deliver_carries ..).trans (CarriesOn.trans (.of_bay (serveHeld_bay _)) (triggerBay_carries.trans closingRelease_carries))

theorem failOldest_all : AllCarryOn s (failOldest s) := by
  cases hq : s.bus.queue with
  | cons e rest =>
    simp only [failOldest, hq]
    refine AllCarryOn.trans (t := s.modBus fun u => { u with queue := rest, onBus := false }) (modBus_all _) ?_
    exact CarriesOn.all (k := none) (b := e.bay)
      ((deliver_carries ..).trans (triggerBay_carries.trans closingRelease_carries))
      (Moves.scan ((deliver_moves ..).trans (triggerBay_moves.trans closingRelease_moves)))
  | nil =>
    cases hh : s.bus.held with
    | cons e rest =>
      simp only [failOldest, hq, hh]
      refine AllCarryOn.trans (t := s.modBus fun u => { u with held := rest }) (modBus_all _) ?_
      exact CarriesOn.all (k := none) (b := e.bay) ((deliver_carries ..).trans closingRelease_carries)
        (Moves.scan ((deliver_moves ..).trans closingRelease_moves))
    | nil =>
      simp only [failOldest, hq, hh]
      exact .refl s

theorem failAll_all (n : Nat) : AllCarryOn s (failAll n s) := by
  induction n generalizing s with
  | zero => exact .refl s
  | succ n ih => exact failOldest_all.trans ih

theorem setEvent_all (n : Nat) : AllCarryOn s (setEvent n s) := fun o => .of_bay (setEvent_bay n s o)

theorem enterFailed_all (cause : BusCause) : AllCarryOn s (enterFailed cause s) :=
  AllCarryOn.trans (t := s.modBus fun u => { u with cause := cause, onBus := false, waitScl := none }) (.of_bays rfl)
    ((setBusState_all _).trans ((setEvent_all _).trans (failAll_all _)))

theorem loseHead_all : AllCarryOn s (loseHead s) := by
  unfold loseHead
  split
  · exact .refl s
  · exact iteAll (fun _ => (modBus_all _).trans (endHead_all _ _)) fun _ => modBus_all _

theorem beginHead_all : AllCarryOn s (beginHead s) := by
  unfold beginHead
  split
  · exact .refl s
  · exact .of_bays (setBusState_bays _ _)

theorem keyAttention_all (e : BusEntry) (level : Bool) : AllCarryOn s (keyAttention e level s) :=
  iteAll (fun _ => CarriesOn.all (k := none) (modPanel_carries (s := s) rfl) (modPanel_moves _).scan) fun _ => .refl s

theorem stopHead_all (refused : Option Nat) (data : List Byte) (attention : Bool) :
    AllCarryOn s (stopHead refused data attention s) := by
  unfold stopHead
  split
  · exact .refl s
  · exact (modBus_all _).trans ((keyAttention_all _ _).trans ((endHead_all _ _).trans enterIdle_all))

theorem cutShort_all : AllCarryOn s (cutShort s) := .of_bays rfl

theorem stretchOut_all : AllCarryOn s (stretchOut s) :=
  cutShort_all.trans ((modBus_all _).trans (endHead_all _ _))

theorem sclRise_all (sda : Bool) : AllCarryOn s (sclRise sda s) := (modBus_all _).trans enterIdle_all

theorem loseArbitration_all : AllCarryOn s (loseArbitration s) :=
  cutShort_all.trans ((modBus_all _).trans (enterBusyOther_all.trans loseHead_all))

theorem otherStart_all (sclFell meets : Bool) : AllCarryOn s (otherStart sclFell meets s) := by
  have h : AllCarryOn s (enterBusyOther (s.modBus fun u =>
      if sclFell then { u with scl := false } else { u with sda := false })) :=
    (modBus_all _).trans enterBusyOther_all
  exact iteAll (fun _ => h.trans loseHead_all) fun _ => h

theorem otherStop_all : AllCarryOn s (otherStop s) := (modBus_all _).trans enterIdle_all

theorem busyOver_all : AllCarryOn s (busyOver s) := iteAll (fun _ => enterIdle_all) fun _ => enterFailed_all _

theorem recoveryOver_all (readings : List Bool) (afterStop : Bool) : AllCarryOn s (recoveryOver readings afterStop s) :=
  iteAll (fun _ => (modBus_all _).trans enterIdle_all) fun _ =>
    (modBus_all _).trans (enterFailed_all _)

theorem recoveryHeld_all : AllCarryOn s (recoveryHeld s) := (modBus_all _).trans (enterFailed_all _)

theorem lineChange_all (scl sda : Bool) : AllCarryOn s (lineChange scl sda s) := by
  have h : AllCarryOn s (restartCounts (s.modBus (setLines scl sda))) := .of_bays rfl
  simp only [lineChange]
  refine iteAll (fun _ => .refl s) fun _ => ?_
  split
  · exact iteAll (fun _ => h.trans enterBusyOther_all) fun _ => h
  · exact iteAll (fun _ => h.trans enterIdle_all) fun _ => h
  · exact iteAll (fun _ => h.trans (sclRise_all _)) fun _ => h
  · exact h
  · exact h

/-! ### The boundary and the registers -/

theorem nextBoundary_all : AllCarryOn s (nextBoundary s) := .of_bays rfl

theorem boundary_all (inputs : PerBay BayInputs) : AllCarryOn s (boundary inputs s) :=
  (forAllAll fun _ _ => settleBay_carries.all (k := none) settleBay_moves.scan).trans
    (nextBoundary_all.trans
      (forAllAll fun _ _ => (bayBoundary_carries inputs).all (bayBoundary_moves inputs).scan))

theorem resetDone_all : AllCarryOn s (resetDone s) := by
  have h : AllCarryOn s (s.modXu fun x => { x with resetting := false }) := .of_bays rfl
  exact AllCarryOn.trans (iteAll (fun _ => h) fun _ => h.trans enterBusyOther_all)
    (forAllAll fun _ _ => pollKeys_asks_only.carries.all (k := none) pollKeys_moves.scan)

theorem writeXbase_bays (half : XbaseHalf) (value : Word32) : (writeXbase half value s).bays = s.bays := by
  unfold writeXbase
  split
  · rfl
  · split <;> rfl

theorem setRun_bays : (setRun s).bays = s.bays := by unfold setRun; split <;> rfl

theorem clearRun_bays : (clearRun s).bays = s.bays := by unfold clearRun; split <;> rfl

theorem writeScanp_bays (value : Byte) : (writeScanp value s).bays = s.bays := by
  simp only [writeScanp]
  split
  · rfl
  · split <;> rfl

theorem nudge_bays : (nudge s).bays = s.bays := by
  unfold nudge
  split
  · rfl
  · split <;> rfl

theorem timerExpiry_bays : (timerExpiry s).bays = s.bays := by
  simp only [timerExpiry]
  split <;> rfl

theorem writeCtrl_all {value : Word32} (h : value.getLsbD 31 = false) : AllCarryOn s (writeCtrl value s) := by
  rw [writeCtrl_eq h]
  refine AllCarryOn.trans (.of_bays (writeScanp_bays (BitVec.ofNat 8 (value.toNat / 256)))) ?_
  refine AllCarryOn.trans (t := writeIrqen (value.getLsbD 5) _) (.of_bays rfl) ?_
  refine AllCarryOn.trans (t := forAll allBays (writeBayen value) _)
    (forAllAll fun _ _ => (writeBayen_carries value).all (writeBayen_moves value)) ?_
  split
  · exact .of_bays setRun_bays
  · exact .of_bays clearRun_bays

theorem registerWrite_all {offset : BitVec 12} {lanes : BitVec 4} {value : Word32}
    (h : ¬(offset = 0x008 ∧ lanes = 15 ∧ value.getLsbD 31 = true)) :
    AllCarryOn s (registerWrite offset lanes value s) := by
  refine iteAll (fun _ => .refl s) fun hl => ?_
  split
  · exact .of_bays (writeXbase_bays ..)
  · exact .of_bays (writeXbase_bays ..)
  · next ho =>
    refine writeCtrl_all ?_
    have := fun hv => h ⟨BitVec.eq_of_toNat_eq ho, not_not.1 hl, hv⟩
    simpa using this
  · exact .of_bays rfl
  · exact .of_bays rfl
  · exact .of_bays nudge_bays
  · exact .refl s

end

end Sys2Proof.Machine

namespace Sys2Proof.Machine

open Sys2Proof

section
variable {b : Bay} {s t : State}

/-! ### Withdrawals, findings and memory errors -/

theorem canWithdraw_rests {y : BayState} (h : canWithdraw y = true) : restPhase y.phase := by
  simp only [canWithdraw, Bool.or_eq_true, decide_eq_true_eq] at h
  exact .inr h

/-- A slot withdrawn counts as taken last, in a bay that holds none (R15). -/
theorem withdrawn_carries (h : restPhase (s.bay b).phase) (w : Withdrawal) : CarriesOn b s (withdrawn b w s) := by
  simp only [withdrawn]
  refine CarriesOn.trans (CarriesOn.trans ?_ (modPass_carries _)) (echoBay_carries _ _)
  refine (writeArea_carries ..).trans (modBay_carries ?_)
  refine .of_flight List.prefix_rfl (Nat.le_refl _) (List.Subset.refl _) fun l => ⟨?_, l.outputs, l.net⟩
  exact { l.view with taken := fun x hx => absurd ((l.view.held.2 h).symm.trans hx) nofun }

theorem withdrawRead_carries (w : Withdrawal) (word : Word32) (accepted : Bool) :
    CarriesOn b s (withdrawRead b w word accepted s) := by
  have h : CarriesOn b s (s.modBayXu b fun u => { u with withdrawal := none }) := modBayXu_carries _
  refine .trans (h.trans ?_) (passResume_all b)
  refine iteCarries (fun hc => ?_) fun _ => echoBay_carries _ _
  have hRest := canWithdraw_rests (Bool.and_eq_true_iff.1 hc).2
  refine CarriesOn.trans (t := withdrawnHeader b w.slot _) (writeArea_carries ..) (iteCarries (fun _ => ?_) fun _ => ?_)
  · exact withdrawn_carries (by rwa [withdrawnHeader, writeArea_bay]) _
  · exact (recordError_carries ..).trans (echoBay_carries ..)

theorem setWaiting_bay (w : Option Slot) : ∃ x, (setWaiting b w s).bay b = { s.bay b with xu := x } := by
  unfold setWaiting
  split
  · exact ⟨(s.bay b).xu, rfl⟩
  · rw [triggerBay_self, bay_modBayXu]
    exact ⟨_, rfl⟩

theorem backFinding_runsOn (x : Slot) : RunsOn (s.bay b) ((backFinding b x s).bay b) := by
  simp only [backFinding]
  split
  · next h => exact .inr (take_takesRun h x)
  · exact .inl (iteCarries (fun _ => setWaiting_carries _) fun _ => .refl b s)

theorem backRead_runsOn (x : Slot) (word : Word32) : RunsOn (s.bay b) ((backRead b x word s).bay b) := by
  simp only [backRead]
  have hMark : CarriesOn b s (s.modBayXu b fun u => { u with backToBack := none }) := modBayXu_carries _
  split
  · rcases backFinding_runsOn (b := b) (s := s.modBayXu b fun u => { u with backToBack := none }) x with h | h
    · exact .inl (hMark.trans h)
    · exact .inr ⟨by simpa using h.idle, h.loading, h.results, fun l => h.law (hMark.law l)⟩
  · exact .inl hMark

/-- A change of a bay's exchange state goes on after a take. -/
theorem RunsOn.then_xu {y z w : BayState} (h : RunsOn y z) {x : BayExchange} (hw : w = { z with xu := x }) :
    RunsOn y w := by
  subst hw
  rcases h with h | h
  · exact .inl (h.trans (.same rfl rfl rfl rfl))
  · exact .inr ⟨h.idle, h.loading, h.results, fun l => ⟨(h.law l).view, (h.law l).outputs, (h.law l).net⟩⟩

theorem passFinding_runsOn (x : Slot) (gone : List (Bay × Slot)) : RunsOn (s.bay b) ((passFinding b x gone s).bay b) := by
  simp only [passFinding]
  split
  · exact .inl (.refl _)
  · split
    · exact .inr (take_takesRun ‹_› x)
    · exact .inl (modPass_carries _)

theorem updateWaiting_bay : ∃ x, (updateWaiting b s).bay b = { s.bay b with xu := x } := by
  unfold updateWaiting
  split
  · exact ⟨(s.bay b).xu, rfl⟩
  · exact setWaiting_bay _

/-- What a word of a pass brings to its bay. -/
def wordBrings (b : Bay) (x : Slot) (found wait : Bool) (gone : List (Bay × Slot)) (s : State) : State :=
  let s1 := if found then passFinding b x gone s else s
  if wait then updateWaiting b s1 else s1

theorem wordBrings_moves (x : Slot) (found wait : Bool) (gone : List (Bay × Slot)) :
    ScanMoves none b s (wordBrings b x found wait gone s) := by
  have hFind : ScanMoves none b s (if found then passFinding b x gone s else s) :=
    iteScan_moves (fun _ => passFinding_moves _ _) fun _ => .refl
  exact iteScan_moves (fun _ => hFind.trans updateWaiting_moves.scan) fun _ => hFind

theorem wordBrings_runsOn (x : Slot) (found wait : Bool) (gone : List (Bay × Slot)) :
    RunsOn (s.bay b) ((wordBrings b x found wait gone s).bay b) := by
  have hFind : RunsOn (s.bay b) ((if found then passFinding b x gone s else s).bay b) := by
    split
    · exact passFinding_runsOn ..
    · exact .inl (.refl _)
  simp only [wordBrings]
  split
  · obtain ⟨w, hw⟩ := updateWaiting_bay (b := b) (s := if found then passFinding b x gone s else s)
    exact hFind.then_xu hw
  · exact hFind

/-- In every bay the run carries on, or a slot is taken. -/
def AllRunOn (s t : State) : Prop := ∀ o, RunsOn (s.bay o) (t.bay o)

theorem AllCarryOn.runOn (h : AllCarryOn s t) : AllRunOn s t := fun o => .inl (h o)

theorem CarriesOn.runOn {k : Option OwnItem} (h : CarriesOn b s t) (m : ScanMoves k b s t) : AllRunOn s t :=
  (h.all m).runOn

/-- An operation of one bay: the others stay as they are. -/
theorem RunsOn.all {k : Option OwnItem} (h : RunsOn (s.bay b) (t.bay b)) (m : ScanMoves k b s t) : AllRunOn s t := fun o => by
  by_cases ho : o = b
  · exact ho ▸ h
  · have hOut : (outsideScan b t).bay o = (outsideScan b s).bay o := by rw [m.outside_eq]
    rw [(outside_bay ho t).symm.trans (hOut.trans (outside_bay ho s))]
    exact .inl (.refl _)

theorem wordRead_runOn (word : Word32) : AllRunOn s (wordRead word s) := by
  unfold wordRead
  split
  · exact (AllCarryOn.refl s).runOn
  · next p _ =>
    split
    · next b x second _ =>
      have hFound : AllRunOn s (wordBrings b x (word = 1 && !p.discard) (second && !p.discard) p.withdrawn s) :=
        (wordBrings_runsOn ..).all (wordBrings_moves ..)
      intro o
      have hPass := scan_bays (s := wordBrings b x (word = 1 && !p.discard) (second && !p.discard) p.withdrawn s)
        (fun _ => passOn_moves p.read) o
      exact hPass ▸ hFound o
    · exact (AllCarryOn.refl s).runOn
    · exact (AllCarryOn.refl s).runOn

theorem readFault_all (kind : ErrorKind) (a : ReadAccess) : AllCarryOn s (readFault kind a s) := by
  cases a with
  | pass =>
    simp only [readFault]
    split
    · exact .refl s
    · exact AllCarryOn.trans (fun _ => recordError_carries ..) (.of_scan fun _ => endPass_moves)
  | withdrawal b =>
    refine CarriesOn.all (k := none) (b := b) ?_ (readFaultWithdrawal_moves kind)
    simp only [readFault]
    split
    · exact .refl b s
    · exact CarriesOn.trans ((modBayXu_carries _).trans ((recordError_carries ..).trans (echoBay_carries _ _)))
        (passResume_all b)
  | backToBack b =>
    refine CarriesOn.all (k := none) (b := b) ?_ (readFaultBackToBack_moves kind).scan
    simp only [readFault]
    split
    · exact .refl b s
    · exact (modBayXu_carries _).trans (recordError_carries ..)
  | loading b =>
    refine CarriesOn.all (k := none) (b := b) ?_ (readFaultLoading_moves kind).scan
    simp only [readFault]
    split
    · exact .refl b s
    · exact (recordError_carries ..).trans exchangeFault_carries

theorem rackStatusWriteEnd_bays : (statusWriteEnd none s).bays = s.bays := by
  simp only [statusWriteEnd]
  split <;> rfl

theorem writeFault_carries {a : WriteAccess} (h : bayOf (.writeError a) = some b) : CarriesOn b s (writeFault a s) := by
  cases a with
  | slot c held =>
    obtain rfl : c = b := by simpa [bayOf] using h
    exact iteCarries (fun _ => (recordError_carries ..).trans (loseRun_carries.trans exchangeFault_carries)) fun _ =>
      whenever_carries fun _ => recordError_carries ..
  | handBack c w =>
    obtain rfl : c = b := by simpa [bayOf] using h
    exact whenever_carries fun _ => modBayXu_carries _
  | withdrawal c =>
    obtain rfl : c = b := by simpa [bayOf] using h
    exact whenever_carries fun _ => recordError_carries ..
  | bayStatus c =>
    obtain rfl : c = b := by simpa [bayOf] using h
    exact iteCarries (fun _ => .refl _ s) fun _ =>
      (recordError_carries ..).trans (statusWriteEnd_carries.trans exchangeFault_carries)
  | rackStatus => simp [bayOf] at h

theorem rackWriteFault_all : AllCarryOn s (writeFault .rackStatus s) :=
  iteAll (fun _ => .refl s) fun _ => AllCarryOn.trans (fun _ => recordError_carries ..) (.of_bays rackStatusWriteEnd_bays)

/-! ### The commands -/

theorem whenUp_carries {f : State → State} (h : CarriesOn b s (f s)) : CarriesOn b s (whenUp f s) :=
  iteCarries (fun _ => .refl b s) fun _ => h

/-- A command of a bay carries its run on, but a back-to-back read, which may take a slot. -/
theorem execBay_carries {c : Instr} (hb : bayOf c = some b) (hc : ∀ word, c ≠ .backToBackReadComplete b word)
    (h : exec c s = .next t) : CarriesOn b s t := by
  cases c <;> simp only [bayOf, Option.some.injEq, reduceCtorEq] at hb <;> try subst hb
  all_goals cases h
  case bayenSet => exact whenUp_carries enableBay_carries
  case bayDisable => exact whenUp_carries disableBay_carries
  case abortRun => exact whenUp_carries (bayRequest_carries (abortRequest_carries _))
  case withdraw => exact whenUp_carries (bayRequest_carries (withdrawRequest_carries ..))
  case clearFaults => exact whenUp_carries (bayRequest_carries (clearRequest_carries _))
  case unknownRequest => exact whenUp_carries (bayRequest_carries (unknownBay_carries _))
  case withdrawReadComplete =>
    refine whenUp_carries ?_
    split
    · exact withdrawRead_carries ..
    · exact .refl _ s
  case backToBackReadComplete word => exact absurd rfl (hc word)
  case loadingReadComplete =>
    refine whenUp_carries ?_
    split
    · exact readDone_carries ‹_› _
    · exact .refl _ s
  case dwellEnd => exact whenUp_carries (dwellEnd_carries _)
  case stepEnd => exact whenUp_carries (blockReport_carries ..)
  case stepTimeout => exact whenUp_carries (timeoutEnd_carries _)
  case statusBlockWriteComplete => exact whenUp_carries statusWriteEnd_carries
  case readTimeout => exact whenUp_carries (readFault_all _ _ _)
  case readError => exact whenUp_carries (readFault_all _ _ _)
  case writeError => exact whenUp_carries (writeFault_carries hb)
  case actionReachesTarget => exact whenUp_carries (actionReached_carries _)
  case pulsePeriodEnd => exact whenUp_carries (modStim_carries (endPeriod_safe ..).1 (endPeriod_safe ..).2)
  case release => exact whenUp_carries (whenever_carries fun _ => releaseEntry_carries _)
  case attemptStart => exact whenUp_carries startAttempt_carries
  case attemptEnd => exact whenUp_carries (endAttempt_goesOn ..).changeNet
  case probeTimerExpiry => exact whenUp_carries probeExpiry_carries
  case receipt => exact whenUp_carries (receive_goesOn ..).changeNet
  case tapStale => exact whenUp_carries (whenever_carries fun _ => modNet_carries_quiet rfl rfl rfl)
  case fiRisingEdge => exact whenUp_carries (modBay_carries (.same rfl rfl rfl rfl))
  case fiEdgeTimeout => exact whenUp_carries (whenever_carries fun _ => modBay_carries (.same rfl rfl rfl rfl))
  case checkEarlyDecision => exact whenUp_carries (checkEnd_carries ..)
  case periodEnd => exact whenUp_carries (checkEnd_carries ..)
  case notSettled => exact whenUp_carries settleMissed_carries
  case conditionRecognized => exact whenUp_carries (recognize_carries _)
  case retryOffTimeEnd => exact whenUp_carries offTimeEnd_carries
  case retrySettleFailed => exact whenUp_carries settleFailed_carries
  case attentionAsserted => exact attentionTo_carries _
  case keyYes => exact whenUp_carries keyYes_carries
  case keyNo => exact whenUp_carries keyNo_carries
  case keyStart => exact whenUp_carries keyStart_carries
  case keyAbort => exact whenUp_carries keyAbort_carries
  case noAnswer => exact whenUp_carries noAnswerDue_carries

/-- A command of no single bay, but a part reset and the read of an ownership word, carries every run on. -/
theorem execDevice_carryOn {c : Instr} (hr : resets c = false) (hc : ∀ word, c ≠ .ownershipWordReadComplete word)
    (hb : bayOf c = none) (h : exec c s = .next t) : AllCarryOn s t := by
  cases c <;> simp only [bayOf, reduceCtorEq] at hb
  all_goals cases h
  case partReset => simp [resets] at hr
  case resetComplete => exact wheneverAll fun _ => resetDone_all
  case xbaseWrite => exact whenUpAll (.of_bays (writeXbase_bays ..))
  case runSet => exact whenUpAll (.of_bays setRun_bays)
  case runClear => exact whenUpAll (.of_bays clearRun_bays)
  case irqenWrite => exact whenUpAll (.of_bays rfl)
  case scanpWrite => exact whenUpAll (.of_bays (writeScanp_bays _))
  case reset => simp [resets] at hr
  case eventsClear => exact whenUpAll (.of_bays rfl)
  case merrRead => exact .of_bays rfl
  case merrWrite => exact whenUpAll (.of_bays rfl)
  case nudge => exact whenUpAll (.of_bays nudge_bays)
  case registerWriteOther offset lanes value =>
    exact whenUpAll (registerWrite_all fun ⟨ho, hl, hv⟩ => by
      subst ho hl
      simp only [resets, hv] at hr
      exact absurd hr (by decide))
  case millisecondBoundary => exact whenUpAll (boundary_all _)
  case scanTimerExpiry => exact whenUpAll (wheneverAll fun _ => .of_bays timerExpiry_bays)
  case commandBlockReadComplete => exact whenUpAll (blockRead_all _)
  case recoverBus => exact whenUpAll (rackRequest_all (recoverRequest_all _))
  case unknownRequest =>
    subst hb
    exact whenUpAll (rackRequest_all (unknownRack_all _))
  case ownershipWordReadComplete word => exact absurd rfl (hc word)
  case statusBlockWriteComplete =>
    subst hb
    exact whenUpAll (.of_bays rackStatusWriteEnd_bays)
  case readTimeout => exact whenUpAll (readFault_all _ _)
  case readError => exact whenUpAll (readFault_all _ _)
  case writeError a =>
    cases a <;> simp only [reduceCtorEq] at hb
    exact whenUpAll rackWriteFault_all
  case transactionBegin => exact whenUpAll (wheneverAll fun _ => beginHead_all)
  case transactionEnd => exact whenUpAll (wheneverAll fun _ => stopHead_all _ _ _)
  case stretchTimeout => exact whenUpAll (wheneverAll fun _ => stretchOut_all)
  case sclRiseAfterTimeout => exact whenUpAll (wheneverAll fun _ => sclRise_all _)
  case sclHeld => exact whenUpAll (wheneverAll fun _ => enterFailed_all _)
  case arbitrationLost => exact whenUpAll (wheneverAll fun _ => loseArbitration_all)
  case otherMasterStart => exact whenUpAll (wheneverAll fun _ => otherStart_all _ _)
  case otherMasterStop => exact whenUpAll (wheneverAll fun _ => otherStop_all)
  case busyOtherTimeout => exact whenUpAll (wheneverAll fun _ => busyOver_all)
  case sdaHeldTimeout => exact whenUpAll (wheneverAll fun _ => beginRecovery_all)
  case recoveryEnd => exact whenUpAll (wheneverAll fun _ => recoveryOver_all _ _)
  case recoverySclTimeout => exact whenUpAll (wheneverAll fun _ => recoveryHeld_all)
  case fixtureBusLineChange => exact iteAll (fun _ => modBus_all _) fun _ => lineChange_all _ _

theorem execWord_runOn {word : Word32} (h : exec (.ownershipWordReadComplete word) s = .next t) : AllRunOn s t := by
  cases h
  simp only [whenUp]
  split
  · exact (AllCarryOn.refl s).runOn
  · exact wordRead_runOn word

/-- Every command but a part reset carries every run on, or takes a slot. -/
theorem exec_runOn {c : Instr} (hr : resets c = false) (h : exec c s = .next t) : AllRunOn s t := by
  cases hb : bayOf c with
  | none =>
    by_cases hc : ∃ word, c = .ownershipWordReadComplete word
    · obtain ⟨word, rfl⟩ := hc
      exact execWord_runOn h
    · exact (execDevice_carryOn hr (fun word hw => hc ⟨word, hw⟩) hb h).runOn
  | some b =>
    have hm := exec_scanMoves hb h
    by_cases hc : ∃ word, c = .backToBackReadComplete b word
    · obtain ⟨word, rfl⟩ := hc
      refine RunsOn.all ?_ hm
      cases h
      simp only [whenUp]
      split
      · exact .inl (.refl _)
      · split
        · exact backRead_runsOn ..
        · exact .inl (.refl _)
    · exact (execBay_carries hb (fun word hw => hc ⟨word, hw⟩) h).runOn hm

end

/-! ## The laws of a bay's run, kept by every step -/

theorem Lawful.bayLaw {s : State} (l : Lawful s) (b : Bay) : BayLaw (s.bay b) :=
  .of_laws (l.safe b) (l.run b) (l.retry b) (l.prompt b)

/-- A bay as a part reset leaves it meets the laws (R4). -/
theorem bayLaw_atReset (y : BayState) : BayLaw (bayAtReset y) := by
  have l : BayLaw BayState.reset := .of_laws reset_safeLaw reset_runLaw reset_retryLaw reset_promptLaw
  exact ⟨l.view, l.outputs, l.net⟩

theorem partReset_bay (s : State) (b : Bay) : (partReset s).bay b = bayAtReset (s.bay b) := by cases b <;> rfl

theorem step_bayLaw {s t : State} (l : Lawful s) (h : step s = .next t) (b : Bay) : BayLaw (t.bay b) := by
  unfold step at h
  split at h
  · cases h
    exact l.bayLaw b
  · next c rest _ =>
    have hBays (o : Bay) : State.bay { s with pending := rest } o = s.bay o := rfl
    cases hr : resets c with
    | false => exact (exec_runOn hr h b).law (hBays b ▸ l.bayLaw b)
    | true =>
      rcases exec_resets hr h with rfl | rfl
      · rw [partReset_bay]
        exact bayLaw_atReset _
      · exact hBays b ▸ l.bayLaw b

/-- Settles O52: the laws of the safe state, the retry and the settle judgement go on, with those of the run, through every
operation that a command is made of. -/
theorem supplyLawsKept : Obligations.SupplyLawsKept := fun _ _ l h b =>
  ⟨(step_bayLaw l h b).safeLaw, (step_bayLaw l h b).retryLaw⟩

/-- Settles O53: the law of the run held goes on through every operation that a command is made of. -/
theorem runLawKept : Obligations.RunLawKept := fun _ _ l h b => (step_bayLaw l h b).runLaw

/-- Settles O57: every operation but a take adds to the results of the run held, and a take finds the bay in IDLE. -/
theorem resultsNeverChange : Obligations.ResultsNeverChange := fun _ _ _ b hr h =>
  (exec_runOn hr h b).imp (·.results) fun h => ⟨h.idle, h.loading, h.results⟩

end Sys2Proof.Machine

namespace Sys2Proof.Machine

open Sys2Proof

/-! ## What an entry to CLOSING fixes besides the run's end (R46, R61, R157) -/

section
variable {b : Bay} {verdict : Verdict} {cause : EndCause} {offending : Nat} {ended : List StepResult} {s t u : State}

/-- The supply monitor's items that stand from the entry to CLOSING on: no retry, and the watches of the conditions that were
armed (R151, R154, R157). -/
theorem enterClosing_supply :
    let p := ((enterClosing b verdict cause offending ended s).bay b).supply
    p.retry = .none ∧ p.retryFault = none ∧ p.retryCount = (s.bay b).supply.retryCount ∧
      p.atClosing = (supplyAtClosing (s.bay b).phase (s.bay b).supply).atClosing := by
  have h := (enterClosing_goesOn (b := b) (verdict := verdict) (cause := cause) (offending := offending)
    (ended := ended) (s := s)).bay
  obtain ⟨u, n, p, w, hb, hp⟩ := closingEntered_bay (b := b) (s := bayAtClosing b verdict cause offending ended s)
  have hAt : ((atRest b verdict cause offending ended s).bay b).supply = p := by rw [atRest, hb]
  rw [bayAtClosing_bay] at hp
  have hRest : p.retry = .none ∧ p.retryFault = none ∧ p.retryCount = (s.bay b).supply.retryCount ∧
      p.atClosing = (supplyAtClosing (s.bay b).phase (s.bay b).supply).atClosing := by
    rcases hp with ⟨rfl, -⟩ | rfl <;> exact ⟨rfl, rfl, rfl, rfl⟩
  rw [← hAt] at hRest
  obtain ⟨hRetry, hFault, hCount, hWatches⟩ := hRest
  dsimp only
  refine ⟨?_, ?_, ?_, ?_⟩
  · rw [settled_item (fun y => y.supply.retry) (fun _ => rfl) h, hRetry]
  · rw [settled_item (fun y => y.supply.retryFault) (fun _ => rfl) h, hFault]
  · rw [settled_item (fun y => y.supply.retryCount) (fun _ => rfl) h, hCount]
  · rw [settled_item (fun y => y.supply.atClosing) (fun _ => rfl) h, hWatches]

/-- The result of a step that ends at the entry to CLOSING stands, with its record (R61). -/
theorem enterClosing_ended {x : StepResult} (hx : x ∈ closingResults ended (s.bay b).run) :
    Ended b x s (enterClosing b verdict cause offending ended s) := by
  obtain ⟨-, -, -, -, -, -, hInFlight, -⟩ := enterClosing_closed (b := b) (verdict := verdict) (cause := cause)
    (offending := offending) (ended := ended) (s := s)
  refine ⟨?_, ?_, fun k hk hl => enterClosing_records hk hl hx⟩
  · rw [enterClosing_results]
    exact List.mem_append_right _ hx
  · rw [hInFlight]
    nofun

end

section
variable {b : Bay} {s t : State}

/-! ## The retry of the supply output (R151, R153) -/

/-- A retry's failure is the abort of its run, with its fault latched (R151, R153). -/
theorem latchFault_paused {c : Condition} (hc : NoCheckDue b s) (hl : (s.bay b).run.load = none)
    (hp : (s.bay b).phase = .paused) : ∃ ended, latchFault b c s =
      enterClosing b .aborted (.abort (condCause c)) 0 ended (addLatched b (condBit c) s) := by
  obtain ⟨w, hw⟩ := addLatched_bay (b := b) (s := s) (condBit c)
  have hl' : ((addLatched b (condBit c) s).bay b).run.load = none := by rw [hw, hl]
  exact ⟨_, (abortRun_now (noCheckDue_addLatched _ hc) hl' (by rw [hw]; exact .inr (.inr (.inr hp)))).trans
    (abortNow_now _ hl')⟩

theorem settleFailed_missed {n : Nat} {c : Condition} (hr : (s.bay b).supply.retry = .settling n) (hn : 200 ≤ n)
    (hf : (s.bay b).supply.retryFault = some c) : settleFailed b s = latchFault b c s := by
  simp [settleFailed, failedRetry, hr, hn, hf]

theorem settleFailed_idle (h : ∀ n, (s.bay b).supply.retry = .settling n → n < 200) : settleFailed b s = s := by
  have hNone : failedRetry (s.bay b).supply = none := by
    unfold failedRetry
    split
    · next n hn => exact if_neg (Nat.not_le.2 (h n hn))
    · rfl
  simp [settleFailed, hNone]

theorem offTimeEnd_idle (h : ∀ n, (s.bay b).supply.retry = .offTime n → n < (s.bay b).supply.setup.retryTime) :
    offTimeEnd b s = s := by
  refine if_neg fun hOver => ?_
  unfold offTimeOver at hOver
  split at hOver
  · next n hn => exact absurd (h n hn) (Nat.not_lt.2 (by simpa using hOver))
  · cases hOver

theorem and_self_of_or (f g : FaultSet) : (f ||| g) &&& g = g := by
  ext i hi
  simp only [BitVec.getElem_or, BitVec.getElem_and]
  cases g[i] <;> simp

/-- Settles O40, by the phase of the retry. -/
theorem retryOffTimeAndSettle : Obligations.RetryOffTimeAndSettle := by
  intro s b hs
  have hOff : exec (.retryOffTimeEnd b) s = .next (offTimeEnd b s) := exec_up hs rfl
  have hSettle : exec (.retrySettleFailed b) s = .next (settleFailed b s) := exec_up hs rfl
  refine ⟨fun n hr => ⟨fun hn => ?_, fun hn => ?_, ?_⟩, fun hr => ⟨?_, ?_⟩, fun n hr => ⟨?_, fun hn => ?_, ?_⟩⟩
  · rw [hOff, offTimeEnd, if_pos (by simpa [offTimeOver, hr] using hn)]
    rfl
  · rw [hOff, offTimeEnd_idle fun m hm => by rw [hr] at hm; cases hm; exact hn]
  · rw [hSettle, settleFailed_idle (by simp [hr])]
  · rw [hOff, offTimeEnd_idle (by simp [hr])]
  · rw [hSettle, settleFailed_idle (by simp [hr])]
  · rw [hOff, offTimeEnd_idle (by simp [hr])]
  · rw [hSettle, settleFailed_idle fun m hm => by rw [hr] at hm; cases hm; exact hn]
  · intro c hn hf hp hl hc
    obtain ⟨ended, he⟩ := latchFault_paused (c := c) hc hl hp
    obtain ⟨w, hw⟩ := addLatched_bay (b := b) (s := s) (condBit c)
    obtain ⟨hRetry, hFault, hCount, -⟩ := enterClosing_supply (b := b) (verdict := .aborted)
      (cause := .abort (condCause c)) (offending := 0) (ended := ended) (s := addLatched b (condBit c) s)
    rw [hSettle, settleFailed_missed hr hn hf, he]
    refine ⟨_, rfl, enterClosing_closed, hRetry, hFault, hCount.trans (by rw [hw]), enterClosing_latched _ ?_⟩
    rw [hw]
    exact and_self_of_or ..

end

end Sys2Proof.Machine

namespace Sys2Proof.Machine

open Sys2Proof

section
variable {b : Bay} {s t u : State} {x : StepResult} {e : InFlight} {i : Nat} {o : StepOutcome} {d : Detail}

/-! ## An end taken (R50, R61, R62) -/

/-- A step out of the in-flight table, its result written and the bay status block triggered (R50, R61). -/
def stepLeft (b : Bay) (x : StepResult) (s : State) : State := triggerBay b (writeResult b x (leaveTable b x s))

theorem endStep_of_find (hf : findInFlight (s.bay b).run i = some e) : endStep b i o d s =
    if endStops (s.bay b).run i o then stopRun b i (stepLeft b (resultOf e o d s.rackTime) s)
    else stepLeft b (resultOf e o d s.rackTime) s := by
  simp only [endStep, hf]
  rfl

theorem stepLeft_bay (x : StepResult) : ∃ w, (stepLeft b x s).bay b = { s.bay b with
    run := { releaseClaims x.index (s.bay b).run with
      inFlight := (s.bay b).run.inFlight.filter fun e => e.index ≠ x.index
      results := (s.bay b).run.results ++ [x] }
    xu := { (s.bay b).xu with write := w } } :=
  ⟨_, by rw [stepLeft, triggerBay_self, writeResult_bay, leaveTable_self]⟩

theorem stepLeft_moves (x : StepResult) : Moves none b s (stepLeft b x s) :=
  (leaveTable_moves x).trans ((writeResult_moves x).trans triggerBay_moves)

theorem Moves.rackTime {k : Option OwnItem} (h : Moves k b s t) : t.rackTime = s.rackTime := by
  have ho := congrArg (fun u : State => u.rackTime) h.outside_eq
  exact ho

/-- An end stands through whatever the run goes on with (R62). -/
theorem Ended.after (h : Ended b x s t) (hi : x.index < (t.bay b).run.next) (hc : CarriesOn b t u) (hg : Grows s t)
    (hm : Moves none b t u) : Ended b x s u := by
  obtain ⟨hResult, hFlight, hRecord⟩ := h
  refine ⟨hc.results.subset hResult, fun f hf hEq => ?_, fun k hk hl => hg.issued hm.grows (hRecord k hk hl)⟩
  obtain ⟨g, hg, hIndex, -⟩ := hc.old (flying f) (List.mem_map_of_mem hf) (hEq.trans_lt hi)
  obtain ⟨f', hf', rfl⟩ := List.mem_map.1 hg
  exact hFlight f' hf' (hIndex.trans hEq)

/-- An end after changes that keep the slot held is an end from before them. -/
theorem Ended.before (h : Ended b x t u) (hs : (t.bay b).run.slot = (s.bay b).run.slot)
    (hl : (t.bay b).run.lost = (s.bay b).run.lost) (hm : Moves none b s t) (hg : Grows t u) : Ended b x s u := by
  obtain ⟨hResult, hFlight, hRecord⟩ := h
  refine ⟨hResult, hFlight, fun k hk hLost => ?_⟩
  have hItem := hRecord k (hs.trans hk) (hl.trans hLost)
  rw [hm.areaItem] at hItem
  exact hm.grows.issued_before hg hItem

theorem stepLeft_ended (x : StepResult) : Ended b x s (stepLeft b x s) := by
  obtain ⟨w, hw⟩ := stepLeft_bay (b := b) (s := s) x
  refine ⟨?_, ?_, fun k hk hl => ?_⟩
  · rw [hw]
    exact List.mem_append_right _ (List.mem_singleton_self x)
  · rw [hw]
    exact fun g hg => by simpa using (List.mem_filter.1 hg).2
  · have hLeft : Moves none b s (leaveTable b x s) := leaveTable_moves x
    have hRun : ((leaveTable b x s).bay b).run.slot = some k ∧ ((leaveTable b x s).bay b).run.lost = false := by
      rw [leaveTable_self]
      exact ⟨hk, hl⟩
    have hItem := writeResult_issued (s := leaveTable b x s) x hRun.2
    rw [recordItem, heldOffset_slot hRun.1, hLeft.areaItem] at hItem
    have hTrigger : Moves none b (leaveTable b x s) (stepLeft b x s) := (writeResult_moves x).trans triggerBay_moves
    refine hLeft.grows.issued_before hTrigger.grows ?_
    exact (Moves.grows (writeResult_moves (b := b) x)).issued (Moves.grows (triggerBay_moves (b := b))) hItem

/-- The end of a step in flight, whether it stops the run or not (R50, R56). -/
theorem endStep_ended (hf : findInFlight (s.bay b).run i = some e) :
    Ended b (resultOf e o d s.rackTime) s (endStep b i o d s) := by
  have hLeft := stepLeft_ended (b := b) (s := s) (resultOf e o d s.rackTime)
  rw [endStep_of_find hf]
  split
  · obtain ⟨hResult, -, hRecord⟩ := hLeft
    obtain ⟨-, -, -, -, -, -, hInFlight, -⟩ := enterClosing_closed (b := b) (verdict := .fail)
      (cause := .stoppedOnFail) (offending := i) (s := stepLeft b (resultOf e o d s.rackTime) s)
      (ended := endAll ((stepLeft b (resultOf e o d s.rackTime) s).bay b).run .cut .stopped
        (stepLeft b (resultOf e o d s.rackTime) s).rackTime)
    refine ⟨?_, ?_, fun k hk hl =>
      (stepLeft_moves _).grows.issued (Moves.grows (stopRun_moves i)) (hRecord k hk hl)⟩
    · rw [stopRun, enterClosing_results]
      exact List.mem_append_left _ hResult
    · rw [stopRun, hInFlight]
      nofun
  · exact hLeft

theorem stopRun_next : ((stopRun b i s).bay b).run.next = (s.bay b).run.next := by
  rw [stopRun, settled_item (fun y => y.run.next) (fun _ => rfl) enterClosing_goesOn.bay, atRest_run]
  rfl

theorem endStep_next : ((endStep b i o d s).bay b).run.next = (s.bay b).run.next := by
  cases hf : findInFlight (s.bay b).run i with
  | none => rw [endStep_not_in_flight hf]
  | some e =>
    obtain ⟨w, hw⟩ := stepLeft_bay (b := b) (s := s) (resultOf e o d s.rackTime)
    rw [endStep_of_find hf]
    split
    · rw [stopRun_next, hw]
      rfl
    · rw [hw]
      rfl

/-- The end of a step with what follows it (R50). -/
theorem takeEnd_ended (hf : findInFlight (s.bay b).run i = some e) (hi : i < (s.bay b).run.next) :
    Ended b (resultOf e o d s.rackTime) s (takeEnd b i o d s) := by
  refine (endStep_ended hf).after (t := endStep b i o d s) ?_ afterEnds_carries (Moves.grows (endStep_moves i o d))
    afterEnds_moves
  rw [endStep_next]
  exact (mem_of_find hf).2.trans_lt hi

/-- The same end after the carrying block has let go of the step, which leaves the run but for its claims. -/
theorem takeEnd_ended_before {c : Vector (Option (Nat × Nat)) 14} (hRun : (t.bay b).run = { (s.bay b).run with claims := c })
    (hm : Moves none b s t) (hf : findInFlight (s.bay b).run i = some e) (hi : i < (s.bay b).run.next) :
    Ended b (resultOf e o d s.rackTime) s (takeEnd b i o d t) := by
  have hFind : findInFlight (t.bay b).run i = some e := by
    rw [hRun]
    exact hf
  have hEnd := takeEnd_ended (o := o) (d := d) hFind (by rw [hRun]; exact hi)
  rw [hm.rackTime] at hEnd
  exact hEnd.before (by rw [hRun]) (by rw [hRun]) hm (Moves.grows (takeEnd_moves i o d))

/-! ## The steps' own ends and timeouts (R33, R50 to R52) -/

theorem stopBlock_run (e : InFlight) : ∃ c, ((stopBlock b e s).bay b).run = { (s.bay b).run with claims := c } := by
  have hDrop (i : Nat) : ((dropPrompt b i s).bay b).run = (s.bay b).run := by
    simp only [dropPrompt]
    split
    · obtain ⟨w, hw⟩ := removeEntries_bay (b := b) (s := (s.modPanel b fun p =>
        { p with prompts := p.prompts.filter fun q => q.step ≠ i }).modPanel b fun p => { p with display := none })
        fun e => e.owner = .display (.prompt i)
      rw [hw, bay_modPanel, bay_modPanel]
    · rw [bay_modPanel]
  unfold stopBlock
  split
  · exact ⟨_, by rw [bay_modRun, bay_modStim]; rfl⟩
  · exact ⟨(s.bay b).run.claims, hDrop _⟩
  · obtain ⟨w, hw⟩ := removeEntries_bay (b := b) (s := s) fun x => x.owner = .step e.index
    exact ⟨(s.bay b).run.claims, by rw [hw]⟩
  · exact ⟨(s.bay b).run.claims, by rw [bay_modSupply]⟩
  all_goals exact ⟨(s.bay b).run.claims, rfl⟩

/-- With no CHECK step due, an end reported at a boundary is taken with what follows it. -/
theorem endWithChecks_ended {block : State → State} (hc : NoCheckDue b s)
    (hRun : ∃ c, ((block s).bay b).run = { (s.bay b).run with claims := c }) (hm : Moves none b s (block s))
    (hf : findInFlight (s.bay b).run i = some e) (hi : i < (s.bay b).run.next) :
    Ended b (resultOf e o d s.rackTime) s (endWithChecks b i o d block s) := by
  obtain ⟨c, hRun⟩ := hRun
  rw [endWithChecks_idle o d block (dueBut_idle fun g hg _ => hc g hg) hf]
  exact takeEnd_ended_before hRun hm hf hi

theorem dwellEnd_idle (h : ∀ e, findInFlight (s.bay b).run i = some e → e.work ≠ .dwell 0) : dwellEnd b i s = s := by
  unfold dwellEnd
  split
  · rfl
  · next e he =>
    refine if_neg fun hOver => ?_
    unfold dwellOver at hOver
    split at hOver
    · next hw => exact h e he hw
    · cases hOver

theorem dwellEnd_over (hf : findInFlight (s.bay b).run i = some e) (hw : e.work = .dwell 0) :
    dwellEnd b i s = endWithChecks b i .done .none (fun t => t) s := by
  simp [dwellEnd, hf, dwellOver, hw]

theorem timeoutEnd_idle (h : ∀ e, findInFlight (s.bay b).run i = some e → e.timeout ≠ some 0) : timeoutEnd b i s = s := by
  unfold timeoutEnd
  split
  · rfl
  · next e he => exact if_neg (by simpa [timeoutOver] using h e he)

theorem timeoutEnd_over (hf : findInFlight (s.bay b).run i = some e) (ht : e.timeout = some 0) :
    timeoutEnd b i s = endWithChecks b i .timedOut .none (stopBlock b e) s := by
  simp [timeoutEnd, hf, timeoutOver, ht]

theorem blockReport_not_in_flight (h : findInFlight (s.bay b).run i = none) : blockReport b i o d s = s := by
  simp [blockReport, h]

/-- The report of an end that is due, of a step other than CHECK (R50). -/
theorem blockReport_due (hf : findInFlight (s.bay b).run i = some e) (h : dueEnd (s.bay b) e = some (o, d))
    (hw : isCheck e.work = false) : blockReport b i o d s = endWithChecks b i o d (stopBlock b e) s := by
  simp [blockReport, hf, h, hw, takeReport]

theorem isCheck_of_due {y : BayState} (hc : checkDue e = false) (h : dueEnd y e = some (o, d)) : isCheck e.work = false := by
  cases hw : e.work with
  | check c => simp [dueEnd_check hw, hc] at h
  | _ => rfl

theorem workProbes_of_not_check {w : Work} (h : isCheck w = false) : workProbes w = noProbes := by
  cases w with
  | check c => cases h
  | _ => rfl

end

end Sys2Proof.Machine

namespace Sys2Proof.Machine

open Sys2Proof

section
variable {y : BayState} {e : InFlight}

/-! ## The end that the block carrying a step has to report (R33, R34, R54, R145, R207) -/

theorem mem_indices {n : Nat} (i : Fin n) : i ∈ indices n :=
  List.mem_filterMap.2 ⟨i.1, List.mem_range.2 i.2, dif_pos i.2⟩

theorem placeReached_iff {i p : Nat} : placeReached y i p = true ↔
    ∃ c : Fin 14, ∃ a, y.stim.actions[c] = some a ∧ a.step = i ∧ a.position = p ∧ a.reached = true := by
  simp only [placeReached, List.any_eq_true]
  constructor
  · rintro ⟨c, -, h⟩
    split at h
    · cases h
    · next a ha => exact ⟨c, a, ha, by simpa [and_assoc] using h⟩
  · rintro ⟨c, a, ha, h⟩
    refine ⟨c, mem_indices c, ?_⟩
    rw [ha]
    simpa [and_assoc] using h

theorem dueEnd_drive_going {left : List Nat} {any : Bool} (hw : e.work = .drive left any)
    (h : ∃ p ∈ left, ∀ c : Fin 14, ∀ a, y.stim.actions[c] = some a →
      a.step ≠ e.index ∨ a.position ≠ p ∨ a.reached = false) : dueEnd y e = none := by
  obtain ⟨p, hp, hNot⟩ := h
  have hOpen : ¬placeReached y e.index p = true := fun hReached => by
    obtain ⟨c, a, ha, hStep, hPlace, hEnd⟩ := placeReached_iff.1 hReached
    rcases hNot c a ha with h | h | h
    · exact h hStep
    · exact h hPlace
    · exact absurd (h.symm.trans hEnd) nofun
  simp only [dueEnd, hw]
  exact if_neg fun hAll => hOpen (List.all_eq_true.1 hAll p hp)

theorem dueEnd_drive_over {left : List Nat} {any : Bool} (hw : e.work = .drive left any)
    (h : ∀ p ∈ left, ∃ c : Fin 14, ∃ a, y.stim.actions[c] = some a ∧ a.step = e.index ∧ a.position = p ∧ a.reached = true) :
    dueEnd y e = some (if left = [] ∧ any = false then (.cut, .superseded) else (.done, .none)) := by
  have hAll : left.all (placeReached y e.index) = true := List.all_eq_true.2 fun p hp => placeReached_iff.2 (h p hp)
  simp only [dueEnd, hw, hAll, if_true]
  cases left <;> cases any <;> rfl

/-- Only the head of the prompts can be ARMED in a lawful queue (R205, R206). -/
theorem unanswered_head {q : Prompt} {rest : List Prompt} (hp : y.panel.prompts = q :: rest)
    (hr : ∀ x ∈ rest, x.state ≠ .armed) :
    unanswered y = if q.state = .armed ∧ q.remaining = some 0 then some q else none := by
  have hNone : rest.find? (fun q => q.state = .armed && q.remaining = some 0) = none := by
    rw [List.find?_eq_none]
    exact fun x hx => by simp [hr x hx]
  rw [unanswered, hp, List.find?_cons, hNone]
  by_cases h : q.state = .armed ∧ q.remaining = some 0
  · rw [if_pos h]
    simp [h]
  · rw [if_neg h]
    simp [show (decide (q.state = .armed) && decide (q.remaining = some 0)) = false by simpa using h]

theorem unanswered_none (h : ∀ q ∈ y.panel.prompts, q.state ≠ .armed) : unanswered y = none := by
  rw [unanswered, List.find?_eq_none]
  exact fun q hq => by simp [h q hq]

theorem dueEnd_prompt (hw : e.work = .prompt) :
    dueEnd y e = if (unanswered y).any (fun q => q.step = e.index) then some (.noAnswer, .none) else none := by
  simp [dueEnd, hw]

theorem dueEnd_power (hw : e.work = .power) :
    dueEnd y e = if unsettledStep y.supply = some e.index then some (.fail, .notSettled) else none := by
  simp [dueEnd, hw]

theorem unsettledStep_some {p : Supply} {j : Settle} (h : p.settle = some j) :
    unsettledStep p = if 200 ≤ j.count then some j.step else none := by
  simp [unsettledStep, h]

theorem joinHolds_iff {r : RunEngine} {i : Nat} {tag : Option Nat} : joinHolds r i tag = true ↔
    ∀ g ∈ r.inFlight, g.index = i ∨ ∃ n, tag = some n ∧ g.tag ≠ n := by
  simp only [joinHolds, List.all_eq_true, Bool.or_eq_true, decide_eq_true_eq]
  cases tag <;> simp

end

section
variable {b : Bay} {i : Nat} {o : StepOutcome} {d : Detail}

/-- The result of a step that is no CHECK has no probe entries (R140). -/
theorem resultOf_no_check {e : InFlight} (h : isCheck e.work = false) (hi : e.index = i) (o : StepOutcome) (d : Detail)
    (now : RackTime) : resultOf e o d now =
      ⟨i, e.tag, o, d, e.clamped, e.reported, e.start, now, List.replicate 4 (.none, 0)⟩ := by
  rw [resultOf, workProbes_of_not_check h, hi]
  rfl

/-- Settles O25, by the command and, for what is due of a step, by its kind. -/
theorem stepsEndOnceWithTheirResult : Obligations.StepsEndOnceWithTheirResult := by
  refine ⟨fun s b i hs hc => ?_, fun s b i o d hs hc => ?_, fun y e => ?_⟩
  · have hDwell : exec (.dwellEnd b i) s = .next (dwellEnd b i s) := exec_up hs rfl
    have hTimeout : exec (.stepTimeout b i) s = .next (timeoutEnd b i s) := exec_up hs rfl
    refine ⟨fun hf => ?_, fun e hf hi => ?_⟩
    · rw [hDwell, hTimeout, dwellEnd_idle (by simp [hf]), timeoutEnd_idle (by simp [hf])]
      exact ⟨rfl, rfl⟩
    · have hIdle (h : e.work ≠ .dwell 0) : exec (.dwellEnd b i) s = .next s := by
        rw [hDwell, dwellEnd_idle fun g hg => by rw [hf] at hg; cases hg; exact h]
      obtain ⟨hMem, hIndex⟩ := mem_of_find hf
      refine ⟨fun n hw => hIdle (by simp [hw]), fun hw => hIdle (hw 0), fun hw => ⟨_, hDwell, ?_⟩, fun ht => ?_,
        fun ht => ⟨_, hTimeout, ?_⟩⟩
      · rw [dwellEnd_over hf hw, ← resultOf_no_check (by simp [hw, isCheck]) hIndex]
        exact endWithChecks_ended hc ⟨_, rfl⟩ .refl hf hi
      · rw [hTimeout, timeoutEnd_idle fun g hg => by rw [hf] at hg; cases hg; exact ht]
      · have hEnd := endWithChecks_ended (o := .timedOut) (d := .none) hc (stopBlock_run e) (stopBlock_moves e) hf hi
        rw [resultOf, hIndex] at hEnd
        rwa [timeoutEnd_over hf ht]
  · have hEnd : exec (.stepEnd b i o d) s = .next (blockReport b i o d s) := exec_up hs rfl
    refine ⟨fun hf => by rw [hEnd, blockReport_not_in_flight hf], fun e hf hi => ⟨fun h => ?_, fun h => ⟨_, hEnd, ?_⟩⟩⟩
    · rw [hEnd, blockReport_not_due hf h]
    · obtain ⟨hMem, hIndex⟩ := mem_of_find hf
      have hCheck := isCheck_of_due (hc e hMem) h
      rw [blockReport_due hf h hCheck, ← resultOf_no_check hCheck hIndex]
      exact endWithChecks_ended hc (stopBlock_run e) (stopBlock_moves e) hf hi
  · have hJoin {tag : Option Nat} (hw : e.work = .join tag) : dueEnd y e =
        if ∃ g ∈ y.run.inFlight, g.index ≠ e.index ∧ ∀ n, tag = some n → g.tag = n then none
        else some (.done, .none) := by
      rw [dueEnd_join hw]
      by_cases hj : joinHolds y.run e.index tag = true
      · rw [if_pos hj, if_neg]
        rintro ⟨g, hg, hNe, hTag⟩
        rcases joinHolds_iff.1 hj g hg with h | ⟨n, hn, h⟩
        · exact hNe h
        · exact h (hTag n hn)
      · rw [if_neg hj, if_pos]
        by_contra hNone
        push Not at hNone
        exact hj (joinHolds_iff.2 fun g hg => or_iff_not_imp_left.2 (hNone g hg))
    refine ⟨fun left any hw => ⟨dueEnd_drive_going hw, dueEnd_drive_over hw⟩, fun n hw => dueEnd_dwell hw y,
      fun q rest hw hp hr => ?_, fun hw hp => ?_, fun hw hs => ?_, fun j hw hs => ?_, fun hw => ?_, fun n hw => ?_,
      fun hw => ?_, fun write expected mask hw => ?_⟩
    · rw [dueEnd_prompt hw, unanswered_head hp hr]
      by_cases h : q.state = .armed ∧ q.remaining = some 0
      · simp [h]
      · rw [if_neg h, if_neg nofun, if_neg fun h' => h ⟨h'.1, h'.2.1⟩]
    · rw [dueEnd_prompt hw, unanswered_none hp]
      rfl
    · simp [dueEnd_power hw, unsettledStep, hs]
    · rw [dueEnd_power hw, unsettledStep_some hs]
      by_cases h : 200 ≤ j.count <;> simp [h]
    · simpa using hJoin hw
    · simpa using hJoin hw
    · simp [dueEnd, hw]
    · simp [dueEnd, hw]

end

end Sys2Proof.Machine

namespace Sys2Proof.Machine

open Sys2Proof

/-! ## An action at its target (R54, R74) -/

/-- The entries in flight with one step's entry changed. -/
def changeEntry (i : Nat) (f : InFlight → InFlight) (l : List InFlight) : List InFlight :=
  l.map fun e => if e.index = i then f e else e

theorem find_changeEntry {f : InFlight → InFlight} (hf : ∀ e, (f e).index = e.index) (r : RunEngine) (i j : Nat) :
    findInFlight { r with inFlight := changeEntry i f r.inFlight } j =
      (findInFlight r j).map fun e => if e.index = i then f e else e := by
  simp only [findInFlight, changeEntry, List.find?_map, Function.comp_def]
  congr 2
  funext e
  split <;> simp [hf]

theorem find_changeEntry_self {f : InFlight → InFlight} (hf : ∀ e, (f e).index = e.index) (r : RunEngine) (i : Nat) :
    findInFlight { r with inFlight := changeEntry i f r.inFlight } i = (findInFlight r i).map f := by
  rw [find_changeEntry hf]
  cases h : findInFlight r i with
  | none => rfl
  | some e => simp [(mem_of_find h).2]

theorem find_changeEntry_other {f : InFlight → InFlight} (hf : ∀ e, (f e).index = e.index) (r : RunEngine) {i j : Nat}
    (h : j ≠ i) : findInFlight { r with inFlight := changeEntry i f r.inFlight } j = findInFlight r j := by
  rw [find_changeEntry hf]
  cases hj : findInFlight r j with
  | none => rfl
  | some e => simp [(mem_of_find hj).2, h]

theorem mem_changeEntry {e : InFlight} {i : Nat} {f : InFlight → InFlight} {l : List InFlight} (h : e ∈ changeEntry i f l) :
    ∃ g ∈ l, e = f g ∨ e = g := by
  obtain ⟨g, hg, rfl⟩ := List.mem_map.1 h
  refine ⟨g, hg, ?_⟩
  split
  · exact .inl rfl
  · exact .inr rfl

theorem finishAction_drive {e : InFlight} {left : List Nat} {any : Bool} (h : e.work = .drive left any) (p : Nat)
    (reached : Bool) : finishAction p reached e = { e with work := .drive (left.filter fun q => q ≠ p) (any || reached) } := by
  simp only [finishAction, h]

theorem finishAction_index (p : Nat) (reached : Bool) (e : InFlight) : (finishAction p reached e).index = e.index := by
  unfold finishAction
  split <;> rfl

theorem checkDue_finishAction (p : Nat) (reached : Bool) (e : InFlight) : checkDue (finishAction p reached e) = checkDue e := by
  unfold finishAction
  split
  · next h => simp [checkDue, h]
  · rfl

section
variable {b : Bay} {s t : State} {c : Fin 14} {a : Action} {e : InFlight} {left : List Nat} {any : Bool}

theorem endAction_some (ha : (s.bay b).stim.actions[c] = some a) (reached : Bool) : endAction b c reached s =
    s.modBay b fun y => { y with
      stim := { y.stim with actions := tabSet y.stim.actions c none }
      run := { y.run with
        claims := tabSet y.run.claims c none
        inFlight := changeEntry a.step (finishAction a.position reached) y.run.inFlight } } := by
  simp only [endAction, ha, State.modStim, State.modRun, State.modInFlight, modBay_modBay]
  rfl

theorem finishDrive_going (h : (findInFlight (s.bay b).run a.step).bind driveOver = none) : finishDrive b a.step s = s := by
  simp [finishDrive, h]

/-- The end of a DRIVE step whose last action has reached its target, with no CHECK step due (R54, R74). -/
theorem finishDrive_over (hc : NoCheckDue b s) (hf : findInFlight (s.bay b).run a.step = some e)
    (hw : e.work = .drive [] true) : finishDrive b a.step s = takeEnd b a.step .done .none s := by
  have hOver : (findInFlight (s.bay b).run a.step).bind driveOver = some true := by simp [hf, driveOver, hw]
  simp only [finishDrive, hOver]
  rw [withChecks_idle _ _ (dueBut_idle fun g hg _ => hc g hg)]
  simp only [endDrive, hOver, takeEnd]

theorem reachedAction_none (h : ∀ a, (s.bay b).stim.actions[c] = some a → a.reached = false) : actionReached b c s = s := by
  have hNone : reachedAction (s.bay b) c = none := by
    unfold reachedAction
    split
    · rfl
    · next a ha => simp [h a ha]
  simp only [actionReached, hNone]

theorem actionReached_some (ha : (s.bay b).stim.actions[c] = some a) (hr : a.reached = true) :
    actionReached b c s = finishDrive b a.step (endAction b c true s) := by
  simp [actionReached, reachedAction, ha, hr]

/-- The bay after the end of an action, and the entry of its step. -/
theorem endAction_found (ha : (s.bay b).stim.actions[c] = some a) (hf : findInFlight (s.bay b).run a.step = some e)
    (hw : e.work = .drive left any) : findInFlight ((endAction b c true s).bay b).run a.step =
      some { e with work := .drive (left.filter fun p => p ≠ a.position) true } := by
  rw [endAction_some ha, bay_modBay]
  refine (find_changeEntry_self (finishAction_index _ _) { (s.bay b).run with
    claims := tabSet (s.bay b).run.claims c none } a.step).trans ?_
  have hFind : findInFlight { (s.bay b).run with claims := tabSet (s.bay b).run.claims c none } a.step = some e := hf
  rw [hFind, Option.map_some, finishAction_drive hw, Bool.or_true]

theorem noCheckDue_endAction (hc : NoCheckDue b s) (reached : Bool) : NoCheckDue b (endAction b c reached s) := by
  cases ha : (s.bay b).stim.actions[c] with
  | none =>
    simp only [endAction, ha]
    exact hc
  | some a =>
    intro e he
    rw [endAction_some ha, bay_modBay] at he
    obtain ⟨g, hg, rfl | rfl⟩ := mem_changeEntry he
    · rw [checkDue_finishAction]
      exact hc g hg
    · exact hc _ hg

/-- Settles O29, by whether the action is the last of its step. -/
theorem actionReachesItsTarget : Obligations.ActionReachesItsTarget := by
  intro s b c hs
  have hExec : exec (.actionReachesTarget b c) s = .next (actionReached b c s) := exec_up hs rfl
  refine ⟨fun h => by rw [hExec, reachedAction_none h], fun a e left any ha hr hf hw hi hc => ?_⟩
  have hFound := endAction_found ha hf hw
  rw [hExec, actionReached_some ha hr]
  refine ⟨fun ⟨p, hp, hNe⟩ => ⟨_, rfl, ?_⟩, fun hLast => ⟨_, rfl, ?_⟩⟩
  · have hGoing : (findInFlight ((endAction b c true s).bay b).run a.step).bind driveOver = none := by
      have hMem : p ∈ left.filter fun p => p ≠ a.position := List.mem_filter.2 ⟨hp, by simpa using hNe⟩
      rw [hFound, Option.bind_some, driveOver]
      split
      · next h =>
        injection h with h
        rw [h] at hMem
        cases hMem
      · rfl
    rw [finishDrive_going hGoing]
    rw [endAction_some ha] at hFound ⊢
    rw [bay_modBay] at hFound ⊢
    exact ⟨getElem_tabSet_self .., rfl, getElem_tabSet_self .., rfl, rfl, rfl, hFound⟩
  · have hNil : (left.filter fun p => p ≠ a.position) = [] := by
      simpa [List.filter_eq_nil_iff] using hLast
    rw [hNil] at hFound
    rw [finishDrive_over (noCheckDue_endAction hc true) hFound rfl]
    have hMoves : Moves none b s (endAction b c true s) := endAction_moves c true
    have hRun : ((endAction b c true s).bay b).run.slot = (s.bay b).run.slot ∧
        ((endAction b c true s).bay b).run.lost = (s.bay b).run.lost ∧
        ((endAction b c true s).bay b).run.next = (s.bay b).run.next := by
      rw [endAction_some ha, bay_modBay]
      exact ⟨rfl, rfl, rfl⟩
    have hEnd := takeEnd_ended (o := .done) (d := .none) hFound (hRun.2.2.symm ▸ hi)
    have hResult := resultOf_no_check (e := { e with work := .drive [] true }) rfl (mem_of_find hf).2 .done .none s.rackTime
    rw [hMoves.rackTime, hResult] at hEnd
    exact hEnd.before hRun.1 hRun.2.1 hMoves (Moves.grows (takeEnd_moves ..))

end

end Sys2Proof.Machine

namespace Sys2Proof.Machine

open Sys2Proof

section
variable {b : Bay} {s t u : State}

/-! ## What follows an end in a bay whose run is over (R34, R49, R50, R205) -/

/-- No step is in flight, and the bay neither runs nor pauses. -/
structure Over (y : BayState) : Prop where
  flight : y.run.inFlight = []
  running : y.phase ≠ .running
  paused : y.phase ≠ .paused

theorem Over.of_closed {verdict : Verdict} {cause : EndCause} {offending : Nat} (h : Closed b verdict cause offending s) :
    Over (s.bay b) := by
  obtain ⟨-, -, -, -, -, -, hFlight, -, hPhase⟩ := h
  refine ⟨hFlight, ?_, ?_⟩ <;> rcases hPhase with h | h | h | h <;> rw [h] <;> nofun

theorem Over.asks (h : Over (s.bay b)) (g : PanelAsks b s t) : Over (t.bay b) := by
  obtain ⟨p, f, -, hb⟩ := g.bay
  rw [hb]
  exact ⟨h.flight, h.running, h.paused⟩

/-- What the panel asks for leaves a run's way into CLOSING as it is. -/
theorem Closed.asks {verdict : Verdict} {cause : EndCause} {offending : Nat} (h : Closed b verdict cause offending s)
    (g : PanelAsks b s t) : Closed b verdict cause offending t := by
  obtain ⟨p, f, hp, hb⟩ := g.bay
  rw [Closed, hb]
  obtain ⟨hVerdict, hCause, hOffending, hOn, hSafe, hNet, hFlight, hPrompts, hPhase⟩ := h
  exact ⟨hVerdict, hCause, hOffending, hOn, hSafe, hNet, hFlight, hp.trans hPrompts, hPhase⟩

theorem pumpText_asks : PanelAsks b s (pumpText b s) := by
  unfold pumpText
  split
  · exact (modPanel_asks rfl).trans (requestFixed_asks _)
  · exact .refl b s

theorem writable_none {y : BayState} (hr : y.phase ≠ .running) (hp : y.phase ≠ .paused) : writable y = none := by
  simp [writable, hr, hp]

theorem Over.pumpPrompts (h : Over (s.bay b)) (n : Nat) : pumpPrompts b n s = s := by
  cases n with
  | zero => rfl
  | succ n => simp [Machine.pumpPrompts, writable_none h.running h.paused]

theorem Over.walk (h : Over (s.bay b)) : walk b s = s := by
  have hStart : ¬canStart (s.bay b) = true := fun hs => h.running (canStart_iff.1 hs).1
  have hEnd : ¬atRunEnd (s.bay b) = true := by simp [atRunEnd, h.running, h.paused]
  rw [Machine.walk, walkSteps, if_neg hStart, runEnd, if_neg hEnd]

theorem Over.joinTest (h : Over (s.bay b)) : joinTest b s = s := by
  simp [Machine.joinTest, readyJoin, h.flight]

theorem Over.failHeld (h : Over (s.bay b)) : failHeld b s = s := by
  have hNone : heldFixture b s = none := by
    unfold heldFixture
    split
    · rw [h.flight]
      rfl
    · rfl
  simp only [Machine.failHeld, hNone]

theorem Over.failingPrompt (h : Over (s.bay b)) : failingPrompt b s = none := by
  simp [Machine.failingPrompt, writable_none h.running h.paused]

theorem Over.pumpDisplay (h : Over (s.bay b)) : pumpDisplay b s = pumpText b s :=
  (h.asks pumpText_asks).pumpPrompts 4

/-- Only a text that waits is requested. -/
theorem Over.afterEnds (h : Over (s.bay b)) : afterEnds b s = pumpText b (pumpText b s) := by
  have h1 : Over ((pumpText b s).bay b) := h.asks pumpText_asks
  have h2 : Over ((pumpText b (pumpText b s)).bay b) := h1.asks pumpText_asks
  rw [Machine.afterEnds, h.joinTest, afterPrompts, h1.failingPrompt, Option.isNone_none, if_pos rfl, h1.pumpDisplay,
    h2.walk, h2.failHeld]

theorem Over.afterEnds_asks (h : Over (s.bay b)) : PanelAsks b s (Machine.afterEnds b s) := by
  rw [h.afterEnds]
  exact pumpText_asks.trans pumpText_asks

end

/-! ## The stop of a run by a failing step (R55, R56, R59 to R61) -/

theorem failing_iff (h : Header) (o : StepOutcome) : failing h.marginalIsFail o = true ↔ FailingOutcome h o := by
  cases o <;> simp [failing, FailingOutcome]

theorem endStops_of_stopOnFail {r : RunEngine} {i : Nat} {h : Header} {o : StepOutcome} (hs : StopOnFail r i h)
    (ho : FailingOutcome h o) : endStops r i o = true := by
  obtain ⟨hh, -, -, ⟨record, hRecord, hCounted⟩, x, hx, hStop⟩ := hs
  have hFail := (failing_iff h o).2 ho
  rcases hStop with h' | h' <;> simp [endStops, countedStep, runOption, hh, hRecord, hCounted, hFail, hx, h']

theorem endStops_false {r : RunEngine} {i : Nat} {h : Header} {o : StepOutcome} {x : Step} {record : List Byte}
    (hh : r.copy.header = some h) (hx : r.copy.steps[i]? = some x) (hr : r.copy.records[i]? = some record)
    (hn : recordNotCounted record = true ∨ ¬FailingOutcome h o ∨ (x.stopOnFail = false ∧ h.stopOnFirstFail = false)) :
    endStops r i o = false := by
  rcases hn with hn | hn | ⟨hStep, hRun⟩
  · simp [endStops, countedStep, hr, hn]
  · have hPass : failing h.marginalIsFail o = false := Bool.eq_false_iff.2 fun hf => hn ((failing_iff h o).1 hf)
    simp [endStops, runOption, hh, hPass]
  · simp [endStops, runOption, hh, hx, hStep, hRun]

/-- With a header that says so, an outcome that is not failing stops nothing (R55). -/
theorem endStops_of_passing {r : RunEngine} {h : Header} (hh : r.copy.header = some h) {o : StepOutcome}
    (ho : ¬FailingOutcome h o) (i : Nat) : endStops r i o = false := by
  have hPass : failing h.marginalIsFail o = false := Bool.eq_false_iff.2 fun hf => ho ((failing_iff h o).1 hf)
  simp [endStops, runOption, hh, hPass]

theorem mem_skipped {r : RunEngine} {h : Header} {ended : List StepResult} {j : Nat} (hh : r.copy.header = some h)
    (h1 : 1 ≤ h.stepCount) (h2 : h.stepCount ≤ 96) (hj : j < h.stepCount) (hr : ∀ y ∈ r.results, y.index ≠ j)
    (he : ∀ y ∈ ended, y.index ≠ j) : skippedResult r j ∈ closingResults ended r := by
  have hCount : stepCount r = h.stepCount := by
    simp only [stepCount, hh, stepCountValid, h1, h2, decide_true, Bool.and_self, if_true]
  refine List.mem_append_right _ (List.mem_map_of_mem (List.mem_filter.2 ⟨List.mem_range.2 (hCount ▸ hj), ?_⟩))
  simp only [hasResult, Bool.not_eq_true', List.any_eq_false, List.mem_append, decide_eq_true_eq]
  rintro y (hy | hy)
  · exact hr y hy
  · exact he y hy

section
variable {b : Bay} {s t u : State} {i n : Nat} {o : StepOutcome} {d : Detail} {e : InFlight} {h : Header} {x : StepResult}

/-- What the panel asks for leaves the stop of a run. -/
theorem StoppedBy.asks (g : StoppedBy b i x n s t) (ha : PanelAsks b t u) : StoppedBy b i x n s u := by
  obtain ⟨p, f, -, hb⟩ := ha.bay
  obtain ⟨hClosed, hResult, hCut, hSkipped⟩ := g
  refine ⟨hClosed.asks ha, ?_, fun g hg hi => ?_, fun j hj hf hr => ?_⟩
  · rw [hb]
    exact hResult
  · rw [hb]
    exact hCut g hg hi
  · rw [hb]
    exact hSkipped j hj hf hr

/-- The end that stops a run (R56). -/
theorem endStep_stops (hf : findInFlight (s.bay b).run i = some e) (hs : StopOnFail (s.bay b).run i h)
    (ho : FailingOutcome h o) : StoppedBy b i (resultOf e o d s.rackTime) h.stepCount s (endStep b i o d s) := by
  obtain ⟨hMem, hIndex⟩ := mem_of_find hf
  rw [endStep_of_find hf, if_pos (endStops_of_stopOnFail hs ho)]
  generalize hx : resultOf e o d s.rackTime = x
  have hxi : x.index = i := hx ▸ hIndex
  obtain ⟨w, hw⟩ := stepLeft_bay (b := b) (s := s) x
  have hTime : (stepLeft b x s).rackTime = s.rackTime := (stepLeft_moves x).rackTime
  refine ⟨enterClosing_closed, ?_, fun g hg hi => ?_, fun j hj hFlight hResults => ?_⟩
  · rw [stopRun, enterClosing_results, hw]
    exact List.mem_append_left _ (List.mem_append_right _ (List.mem_singleton_self x))
  · rw [stopRun, enterClosing_results, ← hTime]
    refine List.mem_append_right _ (mem_endAll ?_ ..)
    rw [hw]
    exact List.mem_filter.2 ⟨hg, by simpa [hxi] using hi⟩
  · obtain ⟨hh, h1, h2, -⟩ := hs
    rw [stopRun, enterClosing_results]
    refine ⟨_, List.mem_append_right _ (mem_skipped (h := h) (j := j) ?_ h1 h2 hj ?_ ?_), rfl, rfl, rfl, rfl⟩
    · rw [hw]
      exact hh
    · rw [hw]
      intro y hy
      rcases List.mem_append.1 hy with hy | hy
      · exact hResults y hy
      · rw [List.mem_singleton.1 hy, hxi, ← hIndex]
        exact hFlight e hMem
    · intro y hy
      obtain ⟨g, hg, rfl⟩ := List.mem_map.1 hy
      rw [mem_byIndex, hw] at hg
      exact hFlight g (List.mem_filter.1 hg).1

/-- The end that stops a run, with all that follows it. -/
theorem takeEnd_stops (hf : findInFlight (s.bay b).run i = some e) (hs : StopOnFail (s.bay b).run i h)
    (ho : FailingOutcome h o) : StoppedBy b i (resultOf e o d s.rackTime) h.stepCount s (takeEnd b i o d s) := by
  have hStop := endStep_stops (d := d) hf hs ho
  exact hStop.asks (Over.of_closed hStop.1).afterEnds_asks

/-- The same end after the carrying block has let go of the step. -/
theorem takeEnd_stops_before {block : State → State} (hRun : ∃ c, ((block s).bay b).run = { (s.bay b).run with claims := c })
    (hm : Moves none b s (block s)) (hf : findInFlight (s.bay b).run i = some e) (hs : StopOnFail (s.bay b).run i h)
    (ho : FailingOutcome h o) : StoppedBy b i (resultOf e o d s.rackTime) h.stepCount s (takeEnd b i o d (block s)) := by
  obtain ⟨c, hRun⟩ := hRun
  have hFind : findInFlight ((block s).bay b).run i = some e := by
    rw [hRun]
    exact hf
  have hStop := takeEnd_stops (d := d) hFind (by rw [hRun]; exact hs) ho
  unfold StoppedBy at hStop ⊢
  rwa [hm.rackTime, hRun] at hStop

/-- An end reported at a boundary that stops the run, with no CHECK step due. -/
theorem endWithChecks_stops {block : State → State} (hc : NoCheckDue b s)
    (hRun : ∃ c, ((block s).bay b).run = { (s.bay b).run with claims := c }) (hm : Moves none b s (block s))
    (hf : findInFlight (s.bay b).run i = some e) (hs : StopOnFail (s.bay b).run i h) (ho : FailingOutcome h o) :
    StoppedBy b i (resultOf e o d s.rackTime) h.stepCount s (endWithChecks b i o d block s) := by
  rw [endWithChecks_idle o d block (dueBut_idle fun g hg _ => hc g hg) hf]
  exact takeEnd_stops_before hRun hm hf hs ho

/-- An end that stops nothing (R50). -/
theorem endStep_goes (hf : findInFlight (s.bay b).run i = some e) (hs : endStops (s.bay b).run i o = false) :
    endStep b i o d s = stepLeft b (resultOf e o d s.rackTime) s := by
  rw [endStep_of_find hf, hs]
  rfl

/-! ### The ends of CHECK steps (R135, R136) -/

theorem decideEntry_check {c : CheckWork} (h : e.work = .check c) : decideEntry e = { e with work := .check (decideCheck c) } := by
  simp only [decideEntry, h]

theorem decideEntry_index (e : InFlight) : (decideEntry e).index = e.index := by
  unfold decideEntry
  split <;> rfl

/-- The entry of a step decided (R136). -/
theorem find_decided (s : State) (i : Nat) : findInFlight ((s.modInFlight b i decideEntry).bay b).run i =
    (findInFlight (s.bay b).run i).map decideEntry := by
  rw [State.modInFlight, bay_modRun]
  exact find_changeEntry_self decideEntry_index (s.bay b).run i

theorem endCheck_check {c : CheckWork} (hf : findInFlight (s.bay b).run i = some e) (hw : e.work = .check c) :
    endCheck b i s =
      endStep b i (checkOutcome (decideCheck c).probes) (checkDetail c) (s.modInFlight b i decideEntry) := by
  simp only [endCheck, hf, hw]

theorem resultOf_decided {c : CheckWork} (hw : e.work = .check c) (hi : e.index = i) (o : StepOutcome) (d : Detail)
    (now : RackTime) : resultOf (decideEntry e) o d now =
      ⟨i, e.tag, o, d, e.clamped, e.reported, e.start, now, probeEntries (c.probes.map decideProbe)⟩ := by
  rw [decideEntry_check hw, resultOf, hi]
  rfl

/-- The end of a CHECK step that stops the run, whatever its entry's probes were (R136). -/
theorem endCheck_stops {c : CheckWork} (hf : findInFlight (s.bay b).run i = some e) (hw : e.work = .check c)
    (hs : StopOnFail (s.bay b).run i h) (ho : FailingOutcome h (checkOutcome (c.probes.map decideProbe))) :
    StoppedBy b i ⟨i, e.tag, checkOutcome (c.probes.map decideProbe), checkDetail c, e.clamped, e.reported, e.start,
      s.rackTime, probeEntries (c.probes.map decideProbe)⟩ h.stepCount s (endCheck b i s) := by
  rw [endCheck_check hf hw, ← resultOf_decided hw (mem_of_find hf).2]
  have hBay : ((s.modInFlight b i decideEntry).bay b).run =
      { (s.bay b).run with inFlight := changeEntry i decideEntry (s.bay b).run.inFlight } := by
    rw [State.modInFlight, bay_modRun]
    rfl
  have hFind : findInFlight ((s.modInFlight b i decideEntry).bay b).run i = some (decideEntry e) := by
    rw [find_decided, hf]
    rfl
  obtain ⟨hClosed, hResult, hCut, hSkipped⟩ := endStep_stops (d := checkDetail c) hFind (by rw [hBay]; exact hs) ho
  have hMem {g : InFlight} (hg : g ∈ (s.bay b).run.inFlight) (hi : g.index ≠ i) :
      g ∈ ((s.modInFlight b i decideEntry).bay b).run.inFlight := by
    rw [hBay]
    exact List.mem_map.2 ⟨g, hg, if_neg hi⟩
  refine ⟨hClosed, hResult, fun g hg hi => hCut g (hMem hg hi) hi, fun j hj hFlight hResults =>
    hSkipped j hj (fun g hg => ?_) (by rw [hBay]; exact hResults)⟩
  rw [hBay] at hg
  obtain ⟨g', hg', rfl | rfl⟩ := mem_changeEntry hg
  · rw [decideEntry_index]
    exact hFlight g' hg'
  · exact hFlight _ hg'

/-! ### The commands that take an end -/

theorem settleMissed_some {j : Settle} (hj : (s.bay b).supply.settle = some j) (hn : 200 ≤ j.count) : settleMissed b s =
    endWithChecks b j.step .fail .notSettled (fun t => t.modSupply b fun p => { p with settle := none }) s := by
  simp [settleMissed, unsettledStep_some hj, hn]

theorem armedPrompt_head {y : BayState} {q : Prompt} {rest : List Prompt} (hp : y.phase = .running)
    (hq : y.panel.prompts = q :: rest) (ha : q.state = .armed) : armedPrompt y = some q := by
  simp [armedPrompt, hp, hq, ha]

theorem keyNo_ask {q : Prompt} (hc : NoCheckDue b s) (hq : armedPrompt (s.bay b) = some q) (hf : q.form = .ask) :
    keyNo b s = takeEnd b q.step .fail .none (s.modPanel b (takePrompt q.step)) := by
  simp [keyNo, settleChecks_idle hc, hq, hf, endPrompt]

theorem noAnswerDue_head {q : Prompt} {rest : List Prompt} (hq : (s.bay b).panel.prompts = q :: rest)
    (ha : q.state = .armed) (hr : q.remaining = some 0) : noAnswerDue b s =
      endWithChecks b q.step .noAnswer .none (fun t => t.modPanel b (takePrompt q.step)) s := by
  have hDue : unanswered (s.bay b) = some q := by
    rw [unanswered, hq]
    exact List.find?_cons_of_pos (by simp [ha, hr])
  simp only [noAnswerDue, hDue]

theorem checkEnd_over {test : InFlight → Bool} (hf : findInFlight (s.bay b).run i = some e) (ht : test e = true) :
    checkEnd b test i s = withChecks b (some i) (endStops (s.bay b).run i (dueOutcome e)) (endCheck b i) s := by
  simp [checkEnd, hf, ht]

theorem checkEnd_idle {test : InFlight → Bool} (h : ∀ e, findInFlight (s.bay b).run i = some e → test e = false) :
    checkEnd b test i s = s := by
  unfold checkEnd
  split
  · rfl
  · next e he => exact if_neg (by simp [h e he])

/-- Settles O26, by the command that takes the end. -/
theorem failingStepStopsTheRun : Obligations.FailingStepStopsTheRun := by
  refine ⟨fun s b i o d e hf => ⟨fun h hs ho => endStep_stops hf hs ho, fun h x record hh hx hr hn => ?_⟩,
    fun s b i hs hc _ e hf h hStop => ⟨fun ht => ⟨_, exec_up hs rfl, ?_⟩, fun j hj hn hji => ⟨_, exec_up hs rfl, ?_⟩,
      fun q rest hq ha hqi => ⟨fun hp hForm => ⟨_, exec_up hs rfl, ?_⟩, fun hr => ⟨_, exec_up hs rfl, ?_⟩⟩⟩,
    fun s b i hs hc _ e hf c hw hk h hStop ho => ⟨_, exec_up hs rfl, ?_⟩⟩
  · obtain ⟨w, hw⟩ := stepLeft_bay (b := b) (s := s) (resultOf e o d s.rackTime)
    rw [endStep_goes hf (endStops_false hh hx hr hn), hw]
    exact ⟨rfl, rfl, rfl, by rw [← (mem_of_find hf).2]; rfl⟩
  · rw [timeoutEnd_over hf ht]
    exact endWithChecks_stops hc (stopBlock_run e) (stopBlock_moves e) hf hStop (by simp [FailingOutcome])
  · rw [settleMissed_some hj hn, hji]
    exact endWithChecks_stops (block := fun t => t.modSupply b fun p => { p with settle := none }) hc
      ⟨_, by rw [bay_modSupply]⟩ (modSupply_moves rfl rfl) hf hStop (by simp [FailingOutcome])
  · subst hqi
    rw [keyNo_ask hc (armedPrompt_head hp hq ha) hForm]
    exact takeEnd_stops_before (block := fun t => t.modPanel b (takePrompt q.step)) ⟨_, by rw [bay_modPanel]⟩
      (modPanel_moves _) hf hStop (by simp [FailingOutcome])
  · subst hqi
    rw [noAnswerDue_head hq ha hr]
    exact endWithChecks_stops hc ⟨_, by rw [bay_modPanel]⟩ (modPanel_moves _) hf hStop (by simp [FailingOutcome])
  · have hOver : endedCheck e = true := by simpa [endedCheck, hw, periodOver] using hk
    rw [checkEnd_over hf hOver, withChecks_idle _ _ (dueBut_idle fun g hg hi => hc g hg fun h' => hi (h' ▸ rfl))]
    have hEnd := endCheck_stops hf hw hStop ho
    exact hEnd.asks (Over.of_closed hEnd.1).afterEnds_asks

end

end Sys2Proof.Machine

namespace Sys2Proof.Machine

open Sys2Proof

section
variable {b : Bay} {s t u : State}

/-! ## The mark that CLOSE LID is shown, and the attention line, through CLOSING (R42, R198, R201) -/

/-- The mark that CLOSE LID is shown, and the level of the attention line. -/
abbrev panelMarks (p : Panel) : Bool × Bool := (p.closeLid, p.attention)

/-- Those and the cycle count shown. -/
abbrev bayMarks (y : BayState) : (Bool × Bool) × Word32 := (panelMarks y.panel, y.status.identCycles)

/-- The mark that CLOSE LID is shown, the attention line and the cycle count shown stay as they are. -/
def LidMarkStays (b : Bay) (s t : State) : Prop := bayMarks (t.bay b) = bayMarks (s.bay b)

theorem LidMarkStays.refl (b : Bay) (s : State) : LidMarkStays b s s := rfl

theorem LidMarkStays.trans (h : LidMarkStays b s t) (g : LidMarkStays b t u) : LidMarkStays b s u := Eq.trans g h

theorem LidMarkStays.of_marks (h : bayMarks (t.bay b) = bayMarks (s.bay b)) : LidMarkStays b s t := h

theorem LidMarkStays.ite {c : Prop} [Decidable c] (ht : c → LidMarkStays b s t) (hu : ¬c → LidMarkStays b s u) :
    LidMarkStays b s (if c then t else u) := by
  split
  · exact ht ‹_›
  · exact hu ‹_›

theorem modPanel_lidMark {f : Panel → Panel} (h : panelMarks (f (s.bay b).panel) = panelMarks (s.bay b).panel) :
    LidMarkStays b s (s.modPanel b f) := by
  rw [LidMarkStays, bay_modPanel]
  exact congrArg (·, (s.bay b).status.identCycles) h

theorem triggerBay_lidMark : LidMarkStays b s (triggerBay b s) := .of_marks (by rw [triggerBay_self])

theorem busRequest_bay {e : BusEntry} (h : busRequest e s = some t) (o : Bay) : t.bay o = s.bay o := by
  rw [State.bay, (busRequest_cases h).2.1]
  rfl

theorem busRequest_lidMark {e : BusEntry} (h : busRequest e s = some t) : LidMarkStays b s t :=
  .of_marks (by rw [busRequest_bay h])

theorem requestFixed_lidMark (x : FixedText) : LidMarkStays b s (requestFixed b x s) := by
  unfold requestFixed
  split
  · exact (busRequest_lidMark ‹_›).trans (modPanel_lidMark rfl)
  · exact .refl b s

theorem pumpText_lidMark : LidMarkStays b s (pumpText b s) := by
  unfold pumpText
  split
  · exact (modPanel_lidMark (s := s) rfl).trans (requestFixed_lidMark _)
  · exact .refl b s

theorem wantLamp_lidMark (lamps : Byte) : LidMarkStays b s (wantLamp b lamps s) := by
  unfold wantLamp
  split
  · exact modPanel_lidMark rfl
  · split
    · exact (busRequest_lidMark ‹_›).trans (modPanel_lidMark rfl)
    · exact .of_marks (by rw [flagLampFailed, bay_modStatus])

theorem pollKeys_lidMark : LidMarkStays b s (pollKeys b s) := by
  simp only [pollKeys]
  refine .ite (fun _ => ?_) fun _ => .refl b s
  split
  · exact (busRequest_lidMark ‹_›).trans (modPanel_lidMark rfl)
  · exact modPanel_lidMark rfl

theorem addLatched_lidMark (f : FaultSet) : LidMarkStays b s (addLatched b f s) := by
  obtain ⟨w, h⟩ := addLatched_bay (b := b) (s := s) f
  exact .of_marks (by rw [h])

theorem addReported_lidMark (f : FaultSet) : LidMarkStays b s (addReported b f s) :=
  .ite (fun _ => .refl b s) fun _ => .of_marks (by rw [triggerBay_self, bay_modSupply])

theorem settlePending_lidMark (c : Condition) : LidMarkStays b s (settlePending b c s) := by
  have hSeen : LidMarkStays b s (s.modSupply b fun p =>
      { p with watches := condSet p.watches c { condGet p.watches c with pending := false } }) :=
    .of_marks (by rw [bay_modSupply])
  simp only [settlePending]
  refine .ite (fun _ => ?_) fun _ => .refl b s
  split
  · exact hSeen.trans (addLatched_lidMark _)
  · exact hSeen.trans (addLatched_lidMark _)
  · exact hSeen.trans (addReported_lidMark _)
  · exact hSeen

theorem loseRun_lidMark : LidMarkStays b s (loseRun b s) := by
  cases hl : (s.bay b).run.lost with
  | true =>
    rw [loseRun, if_pos hl]
    exact .refl b s
  | false =>
    obtain ⟨w, hw⟩ := loseRun_bay hl
    exact .of_marks (by rw [hw])

theorem handBackFails_lidMark : LidMarkStays b s (handBackFails b s) :=
  LidMarkStays.trans (t := recordError .writeError (some b) s) (.of_marks (by rw [recordError_bay]))
    (loseRun_lidMark.trans (addLatched_lidMark _))

theorem writeFinished_lidMark : LidMarkStays b s (writeFinished b s) :=
  .ite (fun _ => .of_marks (by rw [setEvent_bay, writeArea_bay])) fun _ => .of_marks (by rw [writeArea_bay])

theorem handBack_lidMark : LidMarkStays b s (handBack b s) := by
  have hHeader (o : Nat) (d : List Byte) : LidMarkStays b s (writeArea (.header b) o d s) :=
    .of_marks (by rw [writeArea_bay])
  have hCount : LidMarkStays b (writeFinished b (writeArea (.header b) (heldOffset b (s.bay b).run + 0x80)
      (runHeaderBytes (s.bay b).run) s)) (countRun b (writeFinished b (writeArea (.header b)
        (heldOffset b (s.bay b).run + 0x80) (runHeaderBytes (s.bay b).run) s))) :=
    .of_marks (by rw [countRun, bay_modStatus])
  unfold handBack
  dsimp only
  split
  · exact (hHeader ..).trans handBackFails_lidMark
  · exact (hHeader ..).trans (writeFinished_lidMark.trans handBackFails_lidMark)
  · exact (hHeader ..).trans (writeFinished_lidMark.trans hCount)
  · exact (hHeader ..).trans (writeFinished_lidMark.trans hCount)

theorem setPhase_lidMark (p : Phase) : LidMarkStays b s (setPhase b p s) := .of_marks (by rw [setPhase_self])

theorem goOffline_lidMark : LidMarkStays b s (goOffline b s) := by
  obtain ⟨w, h⟩ := clearLatched_bay (b := b) (s := s)
  exact LidMarkStays.trans (t := clearLatched b s) (.of_marks (by rw [h])) (setPhase_lidMark _)

theorem goHalted_lidMark : LidMarkStays b s (goHalted b s) :=
  (setPhase_lidMark .halted).trans (.of_marks (by rw [goHalted, setEvent_bay]))

theorem readBackToBack_lidMark : LidMarkStays b s (readBackToBack b s) :=
  .ite (fun _ => .of_marks (by rw [bay_modBayXu])) fun _ => .refl b s

theorem closingEnd_lidMark : LidMarkStays b s (closingEnd b s) := by
  have hPending : LidMarkStays b s (forAll allConditions (settlePending b) s) :=
    forAll_keeps (P := fun t => LidMarkStays b s t) _ _ _ (.refl b s) fun c _ _ ht => ht.trans (settlePending_lidMark c)
  simp only [closingEnd]
  have hLeft (v : State) : LidMarkStays b v (if !(v.bay b).xu.enabled then goOffline b v
      else if (v.bay b).supply.latched ≠ 0 then goHalted b v else readBackToBack b (setPhase b .idle v)) :=
    .ite (fun _ => goOffline_lidMark) fun _ => .ite (fun _ => goHalted_lidMark) fun _ =>
      (setPhase_lidMark _).trans readBackToBack_lidMark
  have hGiven (v : State) : LidMarkStays b v (if (v.bay b).run.lost then v else handBack b v) :=
    .ite (fun _ => .refl b v) fun _ => handBack_lidMark
  refine .trans (.trans (.trans (hPending.trans (hGiven _)) (.of_marks ?_)) (hLeft _)) pollKeys_lidMark
  rw [bay_modBay]

theorem closingPanel_lidMark : LidMarkStays b s (closingPanel b s) := by
  simp only [closingPanel]
  have hMark : LidMarkStays b s (s.modRun b fun r => { r with closing := .panel }) := .of_marks (by rw [bay_modRun])
  have hDone {v : State} : LidMarkStays b v (closingPanelDone b v) :=
    .ite (fun _ => closingEnd_lidMark) fun _ => .refl b v
  have hText (v : State) (text : Option (List Byte)) : LidMarkStays b v (match text with
      | none => v
      | some bytes =>
        match busRequest (displayEntry b .verdictText bytes) v with
        | some t => t.modPanel b fun p => { p with display := some .verdictText }
        | none => flagLampFailed b v) := by
    split
    · exact .refl b v
    · split
      · exact (busRequest_lidMark ‹_›).trans (modPanel_lidMark rfl)
      · exact .of_marks (by rw [flagLampFailed, bay_modStatus])
  cases (s.bay b).run.verdict with
  | none => exact hMark.trans ((hText ..).trans hDone)
  | some v => exact hMark.trans ((wantLamp_lidMark _).trans ((hText ..).trans hDone))

theorem cycleEnded_lidMark {o : BusOutcome} (h : o ≠ .done) : LidMarkStays b s (cycleEnded b o s) := by
  refine .trans (.ite (fun hd => absurd hd h) fun _ => .of_marks ?_) closingPanel_lidMark
  rw [bay_modStatus]

theorem closingCycle_lidMark : LidMarkStays b s (closingCycle b s) := by
  refine .ite (fun _ => ?_) fun _ => closingPanel_lidMark
  split
  · exact (busRequest_lidMark ‹_›).trans (.of_marks (by rw [bay_modRun]))
  · exact cycleEnded_lidMark nofun

/-- A run's way into CLOSING takes the mark back (R198). -/
theorem enterClosing_marks (verdict : Verdict) (cause : EndCause) (offending : Nat) (ended : List StepResult) :
    bayMarks ((enterClosing b verdict cause offending ended s).bay b) =
      ((false, (s.bay b).panel.attention), (s.bay b).status.identCycles) := by
  have hHanded (results : List StepResult) (v : State) : LidMarkStays b v (handOver b results v) :=
    forAll_keeps (P := fun t => LidMarkStays b v t) _ _ _ (.refl b v) fun x _ t ht => ht.trans
      (LidMarkStays.trans (t := writeResult b x t) (.of_marks (by rw [writeResult_bay])) triggerBay_lidMark)
  have hRefused (results : List StepResult) (v : State) : LidMarkStays b v (recordsRefused b results v) :=
    .ite (fun _ => handBackFails_lidMark) fun _ => .refl b v
  have hBus (v : State) : LidMarkStays b v (closingBus b v) :=
    .ite (fun _ => .of_marks (by rw [bay_modRun])) fun _ => closingCycle_lidMark
  have hRest : LidMarkStays b (atRest b verdict cause offending ended s) (enterClosing b verdict cause offending ended s) := by
    rw [enterClosing_eq]
    exact (hHanded ..).trans ((hRefused ..).trans (hBus _))
  refine Eq.trans hRest ?_
  rw [bayMarks, closingEntered_rests.panel, closingEntered_rests.status, bayAtClosing_bay]
  rfl

theorem enterClosing_lidMark (verdict : Verdict) (cause : EndCause) (offending : Nat) (ended : List StepResult) :
    ((enterClosing b verdict cause offending ended s).bay b).panel.closeLid = false :=
  congrArg (fun m => m.1.1) (enterClosing_marks verdict cause offending ended)

end

end Sys2Proof.Machine

namespace Sys2Proof.Machine

open Sys2Proof

section
variable {b : Bay} {s t u : State}

/-! ## What the work of a run leaves as it is (R21, R76, R79, R119, R201)

No start, end, fault or request of a run touches the attention line, the frequency inputs, the channels' values or the ident
values shown, none records a memory error but where a write of the hand-back is marked as one that fails, and none moves a
bay into CLOSING to wait for a bus that carries nothing. -/

/-- The ident values that the status block shows (R185). -/
abbrev idents (u : BayStatus) : Nat × Word32 × Word32 := (u.identType, u.identSerial, u.identCycles)

/-- The bus carries no transaction and is not FAILED. -/
def BusFree (u : Bus) : Prop := u.onBus = false ∧ u.state ≠ .failed

/-- The bay is not in CLOSING with a wait for its transaction on the bus (R46). -/
def NotHeld (y : BayState) : Prop := y.phase = .closing → y.run.closing ≠ .bus

structure Calm (b : Bay) (s t : State) : Prop where
  ident : idents (t.bay b).status = idents (s.bay b).status
  bus : BusFree s.bus → BusFree t.bus
  held : BusFree s.bus → NotHeld (s.bay b) → NotHeld (t.bay b)
  attention : (t.bay b).panel.attention = (s.bay b).panel.attention
  fi : (t.bay b).fi = (s.bay b).fi
  values : (t.bay b).stim.values = (s.bay b).stim.values
  frequency : (t.bay b).stim.frequency = (s.bay b).stim.frequency
  refused : (s.bay b).xu.refused = none → (t.bay b).xu.refused = none
  merr : (s.bay b).xu.refused = none → t.xu.merr = s.xu.merr

theorem Calm.refl (b : Bay) (s : State) : Calm b s s := ⟨rfl, id, fun _ => id, rfl, rfl, rfl, rfl, id, fun _ => rfl⟩

theorem Calm.trans (h : Calm b s t) (g : Calm b t u) : Calm b s u where
  ident := g.ident.trans h.ident
  bus hs := g.bus (h.bus hs)
  held hs hy := g.held (h.bus hs) (h.held hs hy)
  attention := g.attention.trans h.attention
  fi := g.fi.trans h.fi
  values := g.values.trans h.values
  frequency := g.frequency.trans h.frequency
  refused hs := g.refused (h.refused hs)
  merr hs := (g.merr (h.refused hs)).trans (h.merr hs)

theorem Calm.ite {c : Prop} [Decidable c] (ht : c → Calm b s t) (hu : ¬c → Calm b s u) : Calm b s (if c then t else u) := by
  split
  · exact ht ‹_›
  · exact hu ‹_›

theorem forAll_calm {α : Type} (xs : List α) {f : α → State → State} (h : ∀ x t, Calm b t (f x t)) :
    Calm b s (forAll xs f s) :=
  forAll_keeps (P := fun t => Calm b s t) xs f s (.refl b s) fun x _ t ht => ht.trans (h x t)

/-! ### Elementary changes -/

theorem modBay_calm {f : BayState → BayState} (ha : (f (s.bay b)).panel.attention = (s.bay b).panel.attention)
    (hf : (f (s.bay b)).fi = (s.bay b).fi) (hv : (f (s.bay b)).stim.values = (s.bay b).stim.values)
    (hq : (f (s.bay b)).stim.frequency = (s.bay b).stim.frequency)
    (hr : (f (s.bay b)).xu.refused = (s.bay b).xu.refused)
    (hi : idents (f (s.bay b)).status = idents (s.bay b).status)
    (hc : NotHeld (s.bay b) → NotHeld (f (s.bay b))) : Calm b s (s.modBay b f) :=
  ⟨by rw [bay_modBay, hi], id, fun _ h => by rw [bay_modBay]; exact hc h, by rw [bay_modBay, ha], by rw [bay_modBay, hf], by rw [bay_modBay, hv], by rw [bay_modBay, hq],
    fun h => by rw [bay_modBay, hr, h], fun _ => rfl⟩

theorem modRun_calm (f : RunEngine → RunEngine) (h : (f (s.bay b).run).closing = (s.bay b).run.closing := by rfl) :
    Calm b s (s.modRun b f) :=
  modBay_calm rfl rfl rfl rfl rfl rfl fun hy hp => h ▸ hy hp

theorem modInFlight_calm (i : Nat) (f : InFlight → InFlight) : Calm b s (s.modInFlight b i f) := modRun_calm _

theorem modStatus_calm {f : BayStatus → BayStatus} (h : idents (f (s.bay b).status) = idents (s.bay b).status) :
    Calm b s (s.modStatus b f) := modBay_calm rfl rfl rfl rfl rfl h id

theorem modSupply_calm (f : Supply → Supply) : Calm b s (s.modSupply b f) :=
  modBay_calm rfl rfl rfl rfl rfl rfl id

theorem modNet_calm (f : Network → Network) : Calm b s (s.modNet b f) := modBay_calm rfl rfl rfl rfl rfl rfl id

theorem modPanel_calm {f : Panel → Panel} (h : (f (s.bay b).panel).attention = (s.bay b).panel.attention) :
    Calm b s (s.modPanel b f) := modBay_calm h rfl rfl rfl rfl rfl id

theorem modStim_calm {f : Stimulus → Stimulus} (hv : (f (s.bay b).stim).values = (s.bay b).stim.values)
    (hq : (f (s.bay b).stim).frequency = (s.bay b).stim.frequency) : Calm b s (s.modStim b f) :=
  modBay_calm rfl rfl hv hq rfl rfl id

theorem modBayXu_calm {f : BayExchange → BayExchange} (h : (f (s.bay b).xu).refused = (s.bay b).xu.refused) :
    Calm b s (s.modBayXu b f) := modBay_calm rfl rfl rfl rfl h rfl id

theorem modBus_calm {f : Bus → Bus} (h : BusFree s.bus → BusFree (f s.bus)) : Calm b s (s.modBus f) :=
  ⟨rfl, h, fun _ => id, rfl, rfl, rfl, rfl, id, fun _ => rfl⟩

theorem setEvent_calm (n : Nat) : Calm b s (setEvent n s) := by
  have hBay : (setEvent n s).bay b = s.bay b := by rw [setEvent_bay]
  refine ⟨by rw [hBay], by rw [setEvent_bus]; exact id, fun _ h => by rw [hBay]; exact h, by rw [hBay], by rw [hBay], by rw [hBay], by rw [hBay], fun h => by rw [hBay, h], fun _ => ?_⟩
  simp only [setEvent]
  split <;> rfl

theorem triggerBay_calm : Calm b s (triggerBay b s) := by
  have hBus : (triggerBay b s).bus = s.bus := by simp
  refine ⟨?_, ?_, ?_, ?_, ?_, ?_, ?_, ?_, ?_⟩ <;> simp only [triggerBay_self, triggerBay_xu, hBus, NotHeld, imp_self, implies_true]

theorem Moves.busFree {k : Option OwnItem} (h : Moves k b s t) (hs : BusFree s.bus) : BusFree t.bus := by
  have keep {α : Type} (g : State → α) (hg : ∀ u, g (outside b u) = g u) : g t = g s := by
    rw [← hg t, h.outside_eq, hg s]
  have hOn := keep (·.bus.onBus) fun _ => rfl
  have hState := keep (·.bus.state) fun _ => rfl
  exact ⟨hOn.trans hs.1, fun hf => hs.2 (hState.symm.trans hf)⟩

theorem PanelAsks.calm (h : PanelAsks b s t) (hl : LidMarkStays b s t) (hm : Moves none b s t) : Calm b s t := by
  obtain ⟨p, f, -, hb⟩ := h.bay
  exact ⟨by rw [hb], hm.busFree, fun _ hy => by rw [hb]; exact hy, congrArg (fun m => m.1.2) hl, by rw [hb], by rw [hb], by rw [hb], fun hr => by rw [hb, hr], fun _ => by rw [h.xu]⟩

theorem busRequest_calm {e : BusEntry} (h : busRequest e s = some t) : Calm b s t :=
  (busRequest_asks h).calm (busRequest_lidMark h) (busRequest_moves h)

theorem changeNet_calm (f : Network → Network) : Calm b s (changeNet b f s) := by
  simp only [changeNet]
  exact .ite (fun _ => modNet_calm f) fun _ => (modNet_calm f).trans triggerBay_calm

theorem setForm_values (c : Fin 14) (k : ActKind) (u : Stimulus) : (setForm c k u).values = u.values := by
  unfold setForm
  split
  · rfl
  · split <;> rfl

theorem setForm_frequency (c : Fin 14) (k : ActKind) (u : Stimulus) : (setForm c k u).frequency = u.frequency := by
  unfold setForm
  split
  · rfl
  · split <;> rfl

theorem stepLeft_calm (x : StepResult) : Calm b s (stepLeft b x s) := by
  have hResult (v : State) : Calm b v (writeResult b x v) :=
    .ite (fun _ => .refl b v) fun _ => ⟨rfl, id, fun _ => id, rfl, rfl, rfl, rfl, id, fun _ => rfl⟩
  have hLeft : Calm b s (leaveTable b x s) := by
    unfold leaveTable addResult
    exact (modRun_calm _).trans (modRun_calm _)
  exact hLeft.trans ((hResult _).trans triggerBay_calm)

theorem setPhase_calm {p : Phase} (h : p ≠ .closing) : Calm b s (setPhase b p s) :=
  Calm.trans (t := s.modBay b fun y => { y with phase := p }) (modBay_calm rfl rfl rfl rfl rfl rfl fun _ hp => absurd hp h) triggerBay_calm

theorem enterSafe_calm : Calm b s (enterSafe b s) := Calm.trans (modStim_calm rfl rfl) (changeNet_calm _)

theorem switchOff_calm (keep : Bool) : Calm b s (switchOff b keep s) :=
  .ite (fun _ => (modSupply_calm _).trans enterSafe_calm) fun _ => .refl b s

theorem removeEntries_calm (test : BusEntry → Bool) : Calm b s (removeEntries b test s) := by
  simp only [removeEntries]
  exact .ite (fun _ => (modBus_calm id).trans ((modBus_calm id).trans triggerBay_calm)) fun _ => .refl b s

/-! ### The entry to CLOSING -/

theorem closingEnd_stage : ((closingEnd b s).bay b).run.closing = .none := by
  have hLeft (v : State) : ((leaveClosing b v).bay b).run = (v.bay b).run := by
    unfold leaveClosing
    split
    · obtain ⟨w, hw⟩ := goOffline_bay (b := b) (s := v)
      rw [hw]
    · split
      · obtain ⟨w, hw⟩ := goHalted_bay (b := b) (s := v)
        rw [hw]
      · simp only [readBackToBack]
        split
        · rw [bay_modBayXu, setPhase_self]
        · rw [setPhase_self]
  obtain ⟨p, f, -, hb⟩ := (pollKeys_asks_only (b := b) (s := leaveClosing b (slotFreed b
    ((forAll allConditions (settlePending b) s).bay b).run.slot
    (handBackUnlessLost b (forAll allConditions (settlePending b) s))))).bay
  rw [closingEnd_eq, hb, hLeft, slotFreed, bay_modBay]

theorem verdictTextWanted_asks (text : Option (List Byte)) : PanelAsks b s (verdictTextWanted b text s) := by
  unfold verdictTextWanted
  split
  · exact .refl b s
  · split
    · exact (busRequest_asks ‹_›).trans (modPanel_asks rfl)
    · exact flagLampFailed_asks

/-- The verdict display waits for no transaction on the bus. -/
theorem closingPanel_stage : ((closingPanel b s).bay b).run.closing ≠ .bus := by
  rw [closingPanel_eq]
  have hLamp : PanelAsks b (s.modRun b fun r => { r with closing := .panel })
      (verdictLampWanted b (s.bay b).run.verdict (s.modRun b fun r => { r with closing := .panel })) := by
    unfold verdictLampWanted
    split
    · exact wantLamp_asks _
    · exact .refl b _
  obtain ⟨p, f, -, hb⟩ := (hLamp.trans (verdictTextWanted_asks (verdictText (s.bay b).run))).bay
  unfold closingPanelDone
  dsimp only
  split
  · rw [closingEnd_stage]
    nofun
  · rw [hb, bay_modRun]
    nofun

theorem closingCycle_stage : ((closingCycle b s).bay b).run.closing ≠ .bus := by
  simp only [closingCycle]
  split
  · split
    · rw [bay_modRun]
      nofun
    · exact closingPanel_stage
  · exact closingPanel_stage

theorem busHolds_free {u : Bus} (h : BusFree u) (b : Bay) : busHolds u b = false := by
  obtain ⟨hOn, hState⟩ := h
  simp [busHolds, bayOnBus, onBusEntry, busEnding, hOn, hState]

/-- With nothing on the bus a run's way into CLOSING waits for nothing there (R46). -/
theorem enterClosing_stage (h : BusFree s.bus) (verdict : Verdict) (cause : EndCause) (offending : Nat)
    (ended : List StepResult) : ((enterClosing b verdict cause offending ended s).bay b).run.closing ≠ .bus := by
  have hMoves : Moves none b s (recordsRefused b (closingResults ended (s.bay b).run) (handOver b
      (closingResults ended (s.bay b).run) (closingEntered b (bayAtClosing b verdict cause offending ended s)))) :=
    (bayAtClosing_moves ..).trans ((switchOff_moves _).trans (enterSafe_moves.trans ((removeEntries_moves _).trans
      ((setPhase_moves _).trans ((handOver_moves _).trans (recordsRefused_moves _))))))
  rw [enterClosing_eq, closingBus, busHolds_free (hMoves.busFree h), if_neg Bool.false_ne_true]
  exact closingCycle_stage

theorem enterClosing_calm (verdict : Verdict) (cause : EndCause) (offending : Nat) (ended : List StepResult) :
    Calm b s (enterClosing b verdict cause offending ended s) := by
  generalize hw : removeEntries b (fun _ => true) (enterSafe b (switchOff b false
    (bayAtClosing b verdict cause offending ended s))) = w
  have hBefore : Calm b s w := by
    rw [← hw]
    refine Calm.trans (t := bayAtClosing b verdict cause offending ended s) (modBay_calm rfl rfl rfl rfl rfl rfl id) ?_
    exact (switchOff_calm _).trans (enterSafe_calm.trans (removeEntries_calm _))
  have hRest : (atRest b verdict cause offending ended s).bay b = { w.bay b with
      phase := .closing, xu := { (w.bay b).xu with
        write := if (w.bay b).xu.write = .idle then .busy else .busyMarked } } := by
    rw [atRest, closingEntered, hw, setPhase_self]
  have hGoes := enterClosing_goesOn (b := b) (verdict := verdict) (cause := cause) (offending := offending) (ended := ended)
    (s := s)
  have hMarks := enterClosing_marks (b := b) (s := s) verdict cause offending ended
  have kept {α : Type} (g : BayState → α) (hg : ∀ y, g (settled y) = g y) :
      g ((enterClosing b verdict cause offending ended s).bay b) = g ((atRest b verdict cause offending ended s).bay b) :=
    settled_item g hg hGoes.bay
  refine ⟨?_, Moves.busFree (enterClosing_moves (k := none) ..), fun hs _ _ => enterClosing_stage hs _ _ _ _, ?_, ?_, ?_, ?_, ?_, ?_⟩
  · obtain ⟨hType, hSerial, -⟩ := by simpa only [Prod.mk.injEq] using hBefore.ident
    have hCycles := congrArg Prod.snd hMarks
    rw [idents, kept (·.status.identType) fun _ => rfl, kept (·.status.identSerial) fun _ => rfl, hRest, hType, hSerial]
    exact congrArg (fun c => ((s.bay b).status.identType, (s.bay b).status.identSerial, c)) hCycles
  · exact congrArg (fun m => m.1.2) hMarks
  · rw [kept (·.fi) fun _ => rfl, hRest, hBefore.fi]
  · rw [kept (·.stim.values) fun _ => rfl, hRest, hBefore.values]
  · rw [kept (·.stim.frequency) fun _ => rfl, hRest, hBefore.frequency]
  · refine fun h => hGoes.bay.refused ?_
    rw [hRest]
    exact hBefore.refused h
  · exact fun h => enterClosing_merr (.inl h)

end

end Sys2Proof.Machine

namespace Sys2Proof.Machine

open Sys2Proof

/-! ## What the work of a run consists of between its events (R34, R49, R50, R53, R205)

The walker, the JOIN's test, the display and the ends that they bring change a bay in these ways alone. -/

def isDrive : Work → Bool
  | .drive _ _ => true
  | .dwell _ | .check _ | .prompt | .frame | .fixture _ _ _ | .power | .join _ => false

/-- A change of the entries of DRIVE steps (R54, R78). -/
structure DriveChange (l : List InFlight) (F : InFlight → InFlight) : Prop where
  index : ∀ e, (F e).index = e.index
  start : ∀ e, (F e).start = e.start
  tag : ∀ e, (F e).tag = e.tag
  overlap : ∀ e, (F e).overlap = e.overlap
  work : ∀ e, (F e).work = e.work ∨ isDrive e.work = true ∧ isDrive (F e).work = true
  others : ∀ e ∈ l, (∀ g ∈ l, g.index = e.index → isDrive g.work = false) → F e = e

/-- Why a step ends by the work of the run itself: its prompt's request fails, its block ends it, or the condition of a JOIN
holds. No CHECK step whose end is due ends so. -/
def EndsBy (y : BayState) (i : Nat) : Prop :=
  ((∀ f ∈ y.run.inFlight, checkDue f = true → f.index ≠ i) ∧ ∃ q ∈ y.panel.prompts, q.step = i) ∨
    (∃ g ∈ y.run.inFlight, g.index = i ∧ isCheck g.work = false ∧ ∀ tag, g.work ≠ .join tag) ∨
    ∃ g ∈ y.run.inFlight, g.index = i ∧ ∃ tag, g.work = .join tag ∧ joinHolds y.run i tag = true

/-- One change of a bay by the work of its run, at a rack time. -/
inductive BayWork (now : RackTime) (y : BayState) : BayState → Prop
  | asks (p : Panel) (f : Bool) (w : WriteProgress)
      (hp : p.prompts.map (fun q => q.step) ⊆ y.panel.prompts.map fun q => q.step)
      (hl : p.closeLid = y.panel.closeLid) :
      BayWork now y { y with panel := p, status := { y.status with lampFailed := f }, xu := { y.xu with write := w } }
  | outputs (u : Stimulus) (n : Network) (q : Supply) (w : WriteProgress) (c : Vector (Option (Nat × Nat)) 14) :
      BayWork now y { y with
        stim := u, net := n, supply := q, run := { y.run with claims := c }, xu := { y.xu with write := w } }
  | entries (F : InFlight → InFlight) (hF : DriveChange y.run.inFlight F) :
      BayWork now y { y with run := { y.run with inFlight := y.run.inFlight.map F } }
  | starts (x : Step) (hc : canStart y = true) (hx : y.run.copy.steps[y.run.next]? = some x) :
      BayWork now y { y with run := { y.run with
        next := y.run.next + 1, inFlight := y.run.inFlight ++ [startEntry y.run.next x now] } }
  | skips (hc : canStart y = true) (hx : y.run.copy.steps[y.run.next]? = none) :
      BayWork now y { y with run := { y.run with next := y.run.next + 1 } }
  | prompts (q : Prompt) (he : ∃ e ∈ y.run.inFlight, e.index = q.step ∧ e.work = .prompt) :
      BayWork now y { y with panel := { y.panel with prompts := y.panel.prompts ++ [q] } }
  | ends (i : Nat) (e : InFlight) (o : StepOutcome) (d : Detail) (p : Panel) (w : WriteProgress)
      (hf : findInFlight y.run i = some e) (hr : EndsBy y i) (hs : endStops y.run i o = false) (ho : o ≠ .skipped)
      (hp : p.prompts.map (fun q => q.step) ⊆ y.panel.prompts.map fun q => q.step)
      (hl : p.closeLid = y.panel.closeLid) :
      BayWork now y { y with
        panel := p
        run := { releaseClaims i y.run with
          inFlight := y.run.inFlight.filter fun g => g.index ≠ i
          results := y.run.results ++ [resultOf e o d now] }
        xu := { y.xu with write := w } }
  | closes (z : BayState) (hd : ∀ f ∈ y.run.inFlight, checkDue f = false) (ho : Over z) (hr : z.run.ran = y.run.ran)
      (ht : z.run.startTime = y.run.startTime) (hl : z.panel.closeLid = false)
      (hp : z.phase = .closing ∨ z.phase = .idle ∨ z.phase = .halted ∨ z.phase = .offline) : BayWork now y z

/-- The work of a bay's run between two states of one event. -/
structure Works (b : Bay) (s t : State) : Prop where
  time : t.rackTime = s.rackTime
  bay : Relation.ReflTransGen (BayWork s.rackTime) (s.bay b) (t.bay b)
  calm : Calm b s t

section
variable {b : Bay} {s t u : State}

theorem Works.refl (b : Bay) (s : State) : Works b s s := ⟨rfl, .refl, .refl b s⟩

theorem Works.trans (h : Works b s t) (g : Works b t u) : Works b s u :=
  ⟨g.time.trans h.time, h.bay.trans (h.time ▸ g.bay), h.calm.trans g.calm⟩

theorem Works.one (ht : t.rackTime = s.rackTime) {z : BayState} (h : BayWork s.rackTime (s.bay b) z)
    (hz : t.bay b = z) (hc : Calm b s t) : Works b s t := ⟨ht, hz ▸ .single h, hc⟩

theorem Works.ite {c : Prop} [Decidable c] (ht : c → Works b s t) (hu : ¬c → Works b s u) : Works b s (if c then t else u) := by
  split
  · exact ht ‹_›
  · exact hu ‹_›

theorem forAll_works {α : Type} (xs : List α) {f : α → State → State} (h : ∀ x t, Works b t (f x t)) :
    Works b s (forAll xs f s) :=
  forAll_keeps (P := fun t => Works b s t) xs f s (.refl b s) fun x _ t ht => ht.trans (h x t)

/-- What every change of the work keeps, the work keeps. -/
theorem Works.keeps {P : BayState → Prop} (h : Works b s t) (h0 : P (s.bay b))
    (hP : ∀ y z, BayWork s.rackTime y z → P y → P z) : P (t.bay b) := by
  obtain ⟨-, h, -⟩ := h
  generalize t.bay b = z at h
  induction h with
  | refl => exact h0
  | tail _ hz ih => exact hP _ _ hz ih

/-! ### Elementary work -/

theorem PanelAsks.works (h : PanelAsks b s t) (hl : LidMarkStays b s t) (hm : Moves none b s t) : Works b s t := by
  obtain ⟨p, f, hp, hb⟩ := h.bay
  have hLid : p.closeLid = (s.bay b).panel.closeLid := by
    rw [LidMarkStays, hb] at hl
    exact congrArg (fun m => m.1.1) hl
  exact .one h.time (.asks p f (s.bay b).xu.write (by rw [hp]; exact List.Subset.refl _) hLid) hb (h.calm hl hm)

theorem modPanel_works {f : Panel → Panel}
    (hp : (f (s.bay b).panel).prompts.map (fun q => q.step) ⊆ (s.bay b).panel.prompts.map fun q => q.step)
    (hl : panelMarks (f (s.bay b).panel) = panelMarks (s.bay b).panel) : Works b s (s.modPanel b f) :=
  .one rfl (.asks (f (s.bay b).panel) (s.bay b).status.lampFailed (s.bay b).xu.write hp (congrArg Prod.fst hl))
    (bay_modPanel ..) (modPanel_calm (congrArg Prod.snd hl))

theorem busRequest_works {e : BusEntry} (h : busRequest e s = some t) : Works b s t :=
  (busRequest_asks h).works (busRequest_lidMark h) (busRequest_moves h)

theorem pumpText_works : Works b s (pumpText b s) := pumpText_asks.works pumpText_lidMark pumpText_moves

theorem modStim_works {f : Stimulus → Stimulus} (hv : (f (s.bay b).stim).values = (s.bay b).stim.values)
    (hq : (f (s.bay b).stim).frequency = (s.bay b).stim.frequency) : Works b s (s.modStim b f) :=
  .one rfl (.outputs (f (s.bay b).stim) (s.bay b).net (s.bay b).supply (s.bay b).xu.write (s.bay b).run.claims)
    (bay_modStim ..) (modStim_calm hv hq)

theorem modSupply_works (f : Supply → Supply) : Works b s (s.modSupply b f) :=
  .one rfl (.outputs (s.bay b).stim (s.bay b).net (f (s.bay b).supply) (s.bay b).xu.write (s.bay b).run.claims)
    (bay_modSupply ..) (modSupply_calm f)

theorem modNet_works (f : Network → Network) : Works b s (s.modNet b f) :=
  .one rfl (.outputs (s.bay b).stim (f (s.bay b).net) (s.bay b).supply (s.bay b).xu.write (s.bay b).run.claims)
    (bay_modNet ..) (modNet_calm f)

theorem modClaims_works (f : RunEngine → Vector (Option (Nat × Nat)) 14) :
    Works b s (s.modRun b fun r => { r with claims := f r }) :=
  .one rfl (.outputs (s.bay b).stim (s.bay b).net (s.bay b).supply (s.bay b).xu.write (f (s.bay b).run))
    (bay_modRun ..) (modRun_calm _)

theorem modInFlight_works (i : Nat) {f : InFlight → InFlight}
    (hF : DriveChange (s.bay b).run.inFlight fun e => if e.index = i then f e else e) : Works b s (s.modInFlight b i f) :=
  .one rfl (.entries _ hF) (bay_modRun ..) (modInFlight_calm i f)

theorem triggerBay_works : Works b s (triggerBay b s) :=
  .one (Moves.rackTime (triggerBay_moves (k := none) (b := b)))
    (.outputs (s.bay b).stim (s.bay b).net (s.bay b).supply (if (s.bay b).xu.write = .idle then .busy else .busyMarked)
      (s.bay b).run.claims)
    (by rw [triggerBay_self]) triggerBay_calm

theorem changeNet_works (f : Network → Network) : Works b s (changeNet b f s) := by
  simp only [changeNet]
  exact .ite (fun _ => modNet_works f) fun _ => (modNet_works f).trans triggerBay_works

/-! ### The ends that the work of the run brings -/

theorem stopRun_works {i : Nat} (hb : (t.bay b).run.ran = (s.bay b).run.ran)
    (ht : (t.bay b).run.startTime = (s.bay b).run.startTime) (hTime : t.rackTime = s.rackTime)
    (hc : Calm b s t) (hd : ∀ f ∈ (s.bay b).run.inFlight, checkDue f = false) (verdict : Verdict) (cause : EndCause)
    (ended : List StepResult) : Works b s (enterClosing b verdict cause i ended t) := by
  have hGoes := (enterClosing_goesOn (b := b) (verdict := verdict) (cause := cause) (offending := i) (ended := ended)
    (s := t)).bay
  have hClosed : Closed b verdict cause i (enterClosing b verdict cause i ended t) := enterClosing_closed
  refine .one ((Moves.rackTime (enterClosing_moves (k := none) verdict cause i ended)).trans hTime)
    (.closes _ hd (.of_closed hClosed) ?_ ?_ (enterClosing_lidMark ..) ?_) rfl (hc.trans (enterClosing_calm ..))
  · rw [settled_item (fun y => y.run.ran) (fun _ => rfl) hGoes, atRest_run]
    exact hb
  · rw [settled_item (fun y => y.run.startTime) (fun _ => rfl) hGoes, atRest_run]
    exact ht
  · obtain ⟨-, -, -, -, -, -, -, -, hPhase⟩ := hClosed
    exact hPhase

/-- The end of a step by the work of its run, with the panel's own part in it. -/
theorem endStep_works {i : Nat} {o : StepOutcome} {d : Detail} {p : Panel} (hb : t.bay b = { s.bay b with panel := p })
    (ht : t.rackTime = s.rackTime) (hc : Calm b s t)
    (hp : p.prompts.map (fun q => q.step) ⊆ (s.bay b).panel.prompts.map fun q => q.step)
    (hl : p.closeLid = (s.bay b).panel.closeLid) (hr : EndsBy (s.bay b) i)
    (hn : endStops (s.bay b).run i o = true → ∀ f ∈ (s.bay b).run.inFlight, checkDue f = false) (ho : o ≠ .skipped) :
    Works b s (endStep b i o d t) := by
  have hRun : (t.bay b).run = (s.bay b).run := by rw [hb]
  cases hf : findInFlight (s.bay b).run i with
  | none =>
    rw [endStep_not_in_flight (by rw [hRun, hf])]
    exact .one ht (.asks p (s.bay b).status.lampFailed (s.bay b).xu.write hp hl) hb hc
  | some e =>
    obtain ⟨w, hw⟩ := stepLeft_bay (b := b) (s := t) (resultOf e o d t.rackTime)
    have hLeft : (stepLeft b (resultOf e o d t.rackTime) t).rackTime = s.rackTime :=
      (stepLeft_moves _).rackTime.trans ht
    have hCalm : Calm b s (stepLeft b (resultOf e o d t.rackTime) t) := hc.trans (stepLeft_calm _)
    rw [endStep_of_find (by rw [hRun, hf]), hRun]
    cases hs : endStops (s.bay b).run i o with
    | true =>
      exact stopRun_works (by rw [hw, hb]; rfl) (by rw [hw, hb]; rfl) hLeft hCalm (hn hs) ..
    | false =>
      refine .one hLeft (.ends i e o d p w hf hr hs ho hp hl) (hw.trans ?_) hCalm
      rw [hb, ht, ← (mem_of_find hf).2]
      rfl

theorem endStops_done (r : RunEngine) (i : Nat) : endStops r i .done = false := by simp [endStops, failing]

theorem endStops_cut (r : RunEngine) (i : Nat) : endStops r i .cut = false := by simp [endStops, failing]

/-- An end that never stops the run. -/
theorem endStep_works_quiet {i : Nat} {o : StepOutcome} {d : Detail} (hr : EndsBy (s.bay b) i)
    (hn : endStops (s.bay b).run i o = false) (ho : o ≠ .skipped) : Works b s (endStep b i o d s) :=
  endStep_works (p := (s.bay b).panel) rfl rfl (.refl b s) (List.Subset.refl _) rfl hr (fun h => absurd (hn.symm.trans h) nofun) ho

theorem mem_readyJoin {r : RunEngine} {e : InFlight} (h : readyJoin r = some e) :
    e ∈ r.inFlight ∧ ∃ tag, e.work = .join tag ∧ joinHolds r e.index tag = true := by
  refine ⟨List.mem_of_find?_eq_some h, ?_⟩
  have hTest := List.find?_some h
  split at hTest
  · next tag hw => exact ⟨tag, hw, hTest⟩
  · cases hTest

theorem joinTest_works : Works b s (joinTest b s) := by
  unfold joinTest
  split
  · next e he =>
    obtain ⟨hMem, tag, hw, hHolds⟩ := mem_readyJoin he
    exact endStep_works_quiet (.inr (.inr ⟨e, hMem, rfl, tag, hw, hHolds⟩)) (endStops_done ..) nofun
  · exact .refl b s

theorem takePrompt_steps (i : Nat) (p : Panel) :
    (takePrompt i p).prompts.map (fun q => q.step) ⊆ p.prompts.map fun q => q.step :=
  List.map_subset _ fun _ h => (List.mem_filter.1 h).1

theorem endWaits_false {r : RunEngine} {i : Nat} (h : endWaits r i = false) :
    (∀ f ∈ r.inFlight, checkDue f = true → f.index ≠ i) ∧
      (endStops r i .error = true → ∀ f ∈ r.inFlight, checkDue f = false) := by
  have hAll (f : InFlight) (hf : f ∈ r.inFlight) (hd : checkDue f = true) :
      endStops r i .error = false ∧ f.index ≠ i := by
    have := (List.any_eq_false.1 h) f hf
    simpa [hd] using this
  refine ⟨fun f hf hd => (hAll f hf hd).2, fun hs f hf => Bool.eq_false_iff.2 fun hd => ?_⟩
  exact absurd ((hAll f hf hd).1.symm.trans hs) nofun

/-- The failing end of a prompt at its request (R205, R208). -/
theorem endPrompt_works {q : Prompt} (hq : q ∈ (s.bay b).panel.prompts) (hw : endWaits (s.bay b).run q.step = false) :
    Works b s (endStep b q.step .error (.bus .busFailed) (s.modPanel b (takePrompt q.step))) := by
  obtain ⟨hDue, hStop⟩ := endWaits_false hw
  exact endStep_works (bay_modPanel ..) rfl (modPanel_calm rfl) (takePrompt_steps ..) rfl (.inl ⟨hDue, q, hq, rfl⟩) hStop nofun

theorem pumpPrompts_works (n : Nat) : Works b s (pumpPrompts b n s) := by
  induction n generalizing s with
  | zero => exact .refl b s
  | succ n ih =>
    unfold pumpPrompts
    split
    · exact .refl b s
    · next q hq =>
      split
      · next u hu =>
        have hSteps := markPrompt_steps (f := fun x => { x with state := .writing }) (fun _ => rfl) q.step (u.bay b).panel
        exact (busRequest_works hu).trans (modPanel_works (hSteps ▸ List.Subset.refl _) rfl)
      · refine .ite (fun _ => .refl b s) fun hw => ?_
        exact (endPrompt_works (mem_of_writable hq) (by simpa using hw)).trans (joinTest_works.trans ih)

theorem pumpDisplay_works : Works b s (pumpDisplay b s) := pumpText_works.trans (pumpPrompts_works 4)

/-! ### The starts -/

/-- The start of a DRIVE step finds its entry in flight. -/
def DriveInFlight (y : BayState) (i : Nat) : Prop := ∃ g ∈ y.run.inFlight, g.index = i ∧ isDrive g.work = true

theorem isDrive_finishAction (p : Nat) (r : Bool) (e : InFlight) : isDrive (finishAction p r e).work = isDrive e.work := by
  unfold finishAction
  split
  · next h => simp [isDrive, h]
  · rfl

theorem finishAction_fields (p : Nat) (r : Bool) (e : InFlight) :
    (finishAction p r e).index = e.index ∧ (finishAction p r e).start = e.start ∧ (finishAction p r e).tag = e.tag ∧
      (finishAction p r e).overlap = e.overlap ∧ (isDrive e.work = false → finishAction p r e = e) := by
  unfold finishAction
  split
  · next h => exact ⟨rfl, rfl, rfl, rfl, fun hd => by rw [h] at hd; cases hd⟩
  · exact ⟨rfl, rfl, rfl, rfl, fun _ => rfl⟩

/-- A change of one step's entry that is in order of DRIVE steps. -/
theorem DriveChange.of_entry {l : List InFlight} {i : Nat} {f : InFlight → InFlight} (hi : ∀ e, (f e).index = e.index)
    (hs : ∀ e, (f e).start = e.start) (ht : ∀ e, (f e).tag = e.tag) (ho : ∀ e, (f e).overlap = e.overlap)
    (hw : ∀ e, (f e).work = e.work ∨ isDrive e.work = true ∧ isDrive (f e).work = true)
    (hf : ∀ e ∈ l, e.index = i → (∀ g ∈ l, g.index = i → isDrive g.work = false) → f e = e) :
    DriveChange l fun e => if e.index = i then f e else e where
  index e := by split <;> [exact hi e; rfl]
  start e := by split <;> [exact hs e; rfl]
  tag e := by split <;> [exact ht e; rfl]
  overlap e := by split <;> [exact ho e; rfl]
  work e := by split <;> [exact hw e; exact .inl rfl]
  others e he hn := by
    split
    · next h => exact hf e he h fun g hg hgi => hn g hg (hgi.trans h.symm)
    · rfl

theorem finishAction_change (l : List InFlight) (i p : Nat) (r : Bool) :
    DriveChange l fun e => if e.index = i then finishAction p r e else e := by
  have hWork (e : InFlight) : (finishAction p r e).work = e.work ∨
      isDrive e.work = true ∧ isDrive (finishAction p r e).work = true := by
    cases hd : isDrive e.work
    · exact .inl (by rw [(finishAction_fields p r e).2.2.2.2 hd])
    · exact .inr ⟨rfl, (isDrive_finishAction p r e).trans hd⟩
  exact .of_entry (fun e => (finishAction_fields p r e).1) (fun e => (finishAction_fields p r e).2.1)
    (fun e => (finishAction_fields p r e).2.2.1) (fun e => (finishAction_fields p r e).2.2.2.1) hWork
    fun e he hi hn => (finishAction_fields p r e).2.2.2.2 (hn e he hi)

theorem flagEntry_change (l : List InFlight) (i p : Nat) :
    DriveChange l fun e => if e.index = i then flagEntry p e else e := by
  have hFields (e : InFlight) : (flagEntry p e).index = e.index ∧ (flagEntry p e).start = e.start ∧
      (flagEntry p e).tag = e.tag ∧ (flagEntry p e).overlap = e.overlap ∧ (flagEntry p e).work = e.work ∧
      (isDrive e.work = false → flagEntry p e = e) := by
    unfold flagEntry
    split
    · next h => exact ⟨rfl, rfl, rfl, rfl, rfl, fun hd => by rw [h] at hd; cases hd⟩
    · exact ⟨rfl, rfl, rfl, rfl, rfl, fun _ => rfl⟩
  exact .of_entry (fun e => (hFields e).1) (fun e => (hFields e).2.1) (fun e => (hFields e).2.2.1)
    (fun e => (hFields e).2.2.2.1) (fun e => .inl (hFields e).2.2.2.2.1) fun e he hi hn => (hFields e).2.2.2.2.2 (hn e he hi)

/-- A change of the entry of a DRIVE step in flight. -/
theorem started_change {y : BayState} {i : Nat} (hB : DriveInFlight y i) {f : InFlight → InFlight}
    (hi : ∀ e, (f e).index = e.index) (hs : ∀ e, (f e).start = e.start) (ht : ∀ e, (f e).tag = e.tag)
    (ho : ∀ e, (f e).overlap = e.overlap)
    (hw : ∀ e, (f e).work = e.work ∨ isDrive e.work = true ∧ isDrive (f e).work = true) :
    DriveChange y.run.inFlight fun e => if e.index = i then f e else e :=
  .of_entry hi hs ht ho hw fun _ _ _ hn => by
    obtain ⟨g, hg, hgi, hd⟩ := hB
    exact absurd ((hn g hg hgi).symm.trans hd) nofun

theorem DriveInFlight.map {y z : BayState} {i : Nat} (h : DriveInFlight y i) {F : InFlight → InFlight}
    (hF : DriveChange y.run.inFlight F) (hz : z.run.inFlight = y.run.inFlight.map F) : DriveInFlight z i := by
  obtain ⟨g, hg, hi, hd⟩ := h
  refine ⟨F g, hz ▸ List.mem_map_of_mem hg, (hF.index g).trans hi, ?_⟩
  rcases hF.work g with hw | ⟨-, hw⟩
  · rw [hw, hd]
  · exact hw

theorem endAction_works (c : Fin 14) (reached : Bool) : Works b s (endAction b c reached s) := by
  unfold endAction
  split
  · exact .refl b s
  · exact (modStim_works (s := s) rfl rfl).trans ((modClaims_works _).trans (modInFlight_works _ (finishAction_change ..)))

theorem olderEnded_works (c : Fin 14) : Works b s (olderEnded b c s) := by
  unfold olderEnded
  split
  · exact endAction_works ..
  · exact .refl b s

theorem endAction_driving {c : Fin 14} {i : Nat} (h : DriveInFlight (s.bay b) i) (reached : Bool) :
    DriveInFlight ((endAction b c reached s).bay b) i := by
  cases ha : (s.bay b).stim.actions[c] with
  | none => simpa only [endAction, ha] using h
  | some a =>
    refine h.map (finishAction_change (s.bay b).run.inFlight a.step a.position reached) ?_
    rw [endAction_some ha, bay_modBay]
    rfl

theorem olderEnded_driving {c : Fin 14} {i : Nat} (h : DriveInFlight (s.bay b) i) :
    DriveInFlight ((olderEnded b c s).bay b) i := by
  unfold olderEnded
  split
  · exact endAction_driving h _
  · exact h

theorem modInFlight_driving {i j : Nat} {f : InFlight → InFlight} (h : DriveInFlight (s.bay b) j)
    (hF : DriveChange (s.bay b).run.inFlight fun e => if e.index = i then f e else e) :
    DriveInFlight ((s.modInFlight b i f).bay b) j :=
  h.map hF (by rw [State.modInFlight, bay_modRun])

theorem modStim_driving {i : Nat} (f : Stimulus → Stimulus) (h : DriveInFlight (s.bay b) i) :
    DriveInFlight ((s.modStim b f).bay b) i := by
  rw [bay_modStim]
  exact h

theorem modRun_driving {i : Nat} {f : RunEngine → RunEngine} (hf : (f (s.bay b).run).inFlight = (s.bay b).run.inFlight)
    (h : DriveInFlight (s.bay b) i) : DriveInFlight ((s.modRun b f).bay b) i := by
  rw [bay_modRun, DriveInFlight, hf]
  exact h

/-- The start of an action on a free channel, which leaves its step's entry that of a DRIVE step. -/
theorem actionStarted_works {i : Nat} (h : DriveInFlight (s.bay b) i) (a : DriveAction) (x : Action) :
    Works b s (actionStarted b i a x s) ∧ DriveInFlight ((actionStarted b i a x s).bay b) i := by
  have hFlags (e : InFlight) : ({ e with clamped := e.clamped ||| BitVec.ofNat 4 (2 ^ a.position) } : InFlight).work =
      e.work ∨ isDrive e.work = true ∧
        isDrive ({ e with clamped := e.clamped ||| BitVec.ofNat 4 (2 ^ a.position) } : InFlight).work = true := .inl rfl
  have hStim : Works b s (s.modStim b (setForm a.channel a.kind)) := modStim_works (setForm_values ..) (setForm_frequency ..)
  have hForm := modStim_driving (setForm a.channel a.kind) h
  have hFlag : Works b s (if x.clamped then (s.modStim b (setForm a.channel a.kind)).modInFlight b i
      fun e => { e with clamped := e.clamped ||| BitVec.ofNat 4 (2 ^ a.position) }
      else s.modStim b (setForm a.channel a.kind)) ∧
      DriveInFlight ((if x.clamped then (s.modStim b (setForm a.channel a.kind)).modInFlight b i
        fun e => { e with clamped := e.clamped ||| BitVec.ofNat 4 (2 ^ a.position) }
        else s.modStim b (setForm a.channel a.kind)).bay b) i := by
    have hChange := started_change hForm
      (f := fun e => { e with clamped := e.clamped ||| BitVec.ofNat 4 (2 ^ a.position) })
      (fun _ => rfl) (fun _ => rfl) (fun _ => rfl) (fun _ => rfl) hFlags
    split
    · exact ⟨hStim.trans (modInFlight_works i hChange), modInFlight_driving hForm hChange⟩
    · exact ⟨hStim, hForm⟩
  have hFinish (e : InFlight) : (finishAction a.position true { e with early := e.early || !x.older.isEmpty }).work =
      e.work ∨ isDrive e.work = true ∧
        isDrive (finishAction a.position true { e with early := e.early || !x.older.isEmpty }).work = true := by
    cases hd : isDrive e.work
    · exact .inl (by rw [(finishAction_fields a.position true { e with early := e.early || !x.older.isEmpty }).2.2.2.2 hd])
    · exact .inr ⟨rfl, (isDrive_finishAction a.position true { e with early := e.early || !x.older.isEmpty }).trans hd⟩
  have hFields (e : InFlight) := finishAction_fields a.position true { e with early := e.early || !x.older.isEmpty }
  simp only [actionStarted]
  split
  · have hChange := started_change hFlag.2 (fun e => (hFields e).1) (fun e => (hFields e).2.1)
      (fun e => (hFields e).2.2.1) (fun e => (hFields e).2.2.2.1) hFinish
    exact ⟨hFlag.1.trans (modInFlight_works i hChange), modInFlight_driving hFlag.2 hChange⟩
  · exact ⟨hFlag.1.trans ((modStim_works rfl rfl).trans (modClaims_works _)), modRun_driving rfl (modStim_driving _ hFlag.2)⟩

theorem startAction_works {i : Nat} (h : DriveInFlight (s.bay b) i) (a : DriveAction) :
    Works b s (startAction b i a s) ∧ DriveInFlight ((startAction b i a s).bay b) i := by
  rw [startAction_eq]
  obtain ⟨hWorks, hDriving⟩ := actionStarted_works (olderEnded_driving (c := a.channel) h) a
    { makeAction i a ((olderEnded b a.channel s).bay b).stim with older := handedOver (s.bay b) a.channel }
  exact ⟨(olderEnded_works _).trans hWorks, hDriving⟩

theorem endDrive_works (i : Nat) : Works b s (endDrive b i s) := by
  have hEnds {any : Bool} (h : (findInFlight (s.bay b).run i).bind driveOver = some any) : EndsBy (s.bay b) i := by
    obtain ⟨e, he, hOver⟩ := Option.bind_eq_some_iff.1 h
    obtain ⟨hMem, hi⟩ := mem_of_find he
    refine .inr (.inl ⟨e, hMem, hi, ?_⟩)
    unfold driveOver at hOver
    split at hOver
    · next hw =>
      rw [hw]
      exact ⟨rfl, nofun⟩
    · cases hOver
  unfold endDrive
  split
  · exact endStep_works_quiet (hEnds ‹_›) (endStops_cut ..) nofun
  · exact endStep_works_quiet (hEnds ‹_›) (endStops_done ..) nofun
  · exact .refl b s

theorem startDrive_works {i : Nat} (h : DriveInFlight (s.bay b) i) (actions : List DriveAction) (on off : BitVec 16) :
    Works b s (startDrive b i actions on off s) := by
  have hActions : Works b s (forAll actions (startAction b i) s) ∧
      DriveInFlight ((forAll actions (startAction b i) s).bay b) i :=
    forAll_keeps (P := fun t => Works b s t ∧ DriveInFlight (t.bay b) i) _ _ _ ⟨.refl b s, h⟩ fun a _ t ht =>
      ⟨ht.1.trans (startAction_works ht.2 a).1, (startAction_works ht.2 a).2⟩
  exact hActions.1.trans ((modStim_works rfl rfl).trans (forAll_works _ fun i _ => endDrive_works i))

theorem startPrompt_works {i : Nat} (h : ∃ e ∈ (s.bay b).run.inFlight, e.index = i ∧ e.work = .prompt) (text : List Byte)
    (form : PromptForm) (timeout : Nat) : Works b s (startPrompt b i text form timeout s) :=
  Works.trans (t := s.modPanel b fun p =>
      { p with prompts := p.prompts ++ [⟨i, form, text, clampNat 0 3600000 timeout, none, .waiting, none⟩] })
    (.one rfl (.prompts ⟨i, form, text, clampNat 0 3600000 timeout, none, .waiting, none⟩ h) (bay_modPanel ..) (modPanel_calm rfl))
    pumpDisplay_works

/-- A step of a block that ends it at its start. -/
def BlockInFlight (y : BayState) (i : Nat) : Prop :=
  ∃ g ∈ y.run.inFlight, g.index = i ∧ isCheck g.work = false ∧ ∀ tag, g.work ≠ .join tag

theorem startFrame_works {i : Nat} (h : BlockInFlight (s.bay b) i) (e : Fin 16) (act : FrameAction) :
    Works b s (startFrame b i e act s) := by
  have hActed : Works b s (if (s.bay b).net.setup.entries[e].enabled then s.modNet b (frameAction s.rackTime e act) else s) ∧
      BlockInFlight ((if (s.bay b).net.setup.entries[e].enabled then s.modNet b (frameAction s.rackTime e act)
        else s).bay b) i := by
    split
    · refine ⟨modNet_works _, ?_⟩
      rw [bay_modNet]
      exact h
    · exact ⟨.refl b s, h⟩
  exact hActed.1.trans (endStep_works_quiet (.inr (.inl hActed.2)) (endStops_done ..) nofun)

theorem startFixture_works {i : Nat} (h : BlockInFlight (s.bay b) i) (m : Fin 16) (write : Bool) (index : Byte)
    (data : List Byte) : Works b s (startFixture b i m write index data s) := by
  simp only [startFixture]
  split
  · exact busRequest_works ‹_›
  · refine .ite (fun _ => .refl b s) fun hw => ?_
    obtain ⟨-, hStop⟩ := endWaits_false (by simpa using hw)
    exact endStep_works (p := (s.bay b).panel) rfl rfl (.refl b s) (List.Subset.refl _) rfl (.inr (.inl h)) hStop nofun

theorem flagClamped_works (c : Fin 14) : Works b s (flagClamped b c s) := by
  unfold flagClamped
  split
  · exact .refl b s
  · exact (modStim_works rfl rfl).trans (modInFlight_works _ (flagEntry_change ..))

theorem setLevel_works (i : Fin 4) : Works b s (setLevel b i s) := by
  simp only [setLevel]
  refine .ite (fun _ => modStim_works rfl rfl) fun _ => ?_
  split
  · exact modStim_works rfl rfl
  · exact modStim_works rfl rfl
  · exact .ite (fun _ => (modStim_works rfl rfl).trans (flagClamped_works _)) fun _ => modStim_works rfl rfl

theorem endSafe_works : Works b s (endSafe b s) := by
  have hUnsafe : Works b s (stimUnsafe b s) := (modStim_works rfl rfl).trans (forAll_works _ fun i _ => setLevel_works i)
  exact hUnsafe.trans (changeNet_works _)

theorem enterSafe_works : Works b s (enterSafe b s) := (modStim_works rfl rfl).trans (changeNet_works _)

theorem switchOff_works (keep : Bool) : Works b s (switchOff b keep s) :=
  .ite (fun _ => (modSupply_works _).trans enterSafe_works) fun _ => .refl b s

theorem startPower_works {i : Nat} (h : BlockInFlight (s.bay b) i) (on : Bool) (setting : Nat) :
    Works b s (startPower b i on setting s) := by
  refine .ite (fun _ => ?_) fun _ => ?_
  · exact .ite (fun _ => (modSupply_works _).trans endSafe_works) fun _ => modSupply_works _
  · refine (switchOff_works false).trans (endStep_works_quiet (.inr (.inl ?_)) (endStops_done ..) nofun)
    rcases switchOff_bay (b := b) (s := s) false with ⟨hs, -⟩ | ⟨w, hs⟩ <;> rw [hs]
    · exact h
    · exact h

/-- The start of a step whose entry is in flight (R32). -/
theorem startBody_works {i : Nat} {body : StepBody}
    (h : ∃ g ∈ (s.bay b).run.inFlight, g.index = i ∧ g.work = startWork body) : Works b s (startBody b i body s) := by
  obtain ⟨g, hg, hi, hw⟩ := h
  cases body with
  | drive actions on off => exact startDrive_works ⟨g, hg, hi, by rw [hw]; rfl⟩ ..
  | dwell ms => exact .refl b s
  | check period probes => exact .refl b s
  | prompt text form timeout => exact startPrompt_works ⟨g, hg, hi, hw⟩ ..
  | frame e act => exact startFrame_works ⟨g, hg, hi, by rw [hw]; exact ⟨rfl, nofun⟩⟩ ..
  | fixture m write index data expected mask =>
    exact startFixture_works ⟨g, hg, hi, by rw [hw]; exact ⟨rfl, nofun⟩⟩ ..
  | power on setting => exact startPower_works ⟨g, hg, hi, by rw [hw]; exact ⟨rfl, nofun⟩⟩ ..
  | join tag => exact joinTest_works

/-! ### The walker and what follows an end -/

/-- The next step comes into flight before its body is handed to its block (R32, R49). -/
def stepBegun (b : Bay) (x : Step) (s : State) : State :=
  s.modRun b fun r => { r with
    next := r.next + 1, inFlight := r.inFlight ++ [startEntry (s.bay b).run.next x s.rackTime] }

theorem startStep_some {x : Step} (hx : (s.bay b).run.copy.steps[(s.bay b).run.next]? = some x) :
    startStep b s = startBody b (s.bay b).run.next x.body (stepBegun b x s) := by
  simp only [startStep, hx, stepBegun, State.modRun, modBay_modBay]

theorem startStep_none (hx : (s.bay b).run.copy.steps[(s.bay b).run.next]? = none) :
    startStep b s = s.modRun b fun r => { r with next := r.next + 1 } := by
  simp only [startStep, hx]

theorem startStep_works (h : canStart (s.bay b) = true) : Works b s (startStep b s) := by
  cases hx : (s.bay b).run.copy.steps[(s.bay b).run.next]? with
  | none =>
    rw [startStep_none hx]
    exact .one rfl (.skips h hx) (bay_modRun ..) (modRun_calm _)
  | some x =>
    rw [startStep_some hx]
    refine Works.trans (t := stepBegun b x s) (.one rfl (.starts x h hx) (bay_modRun ..) (modRun_calm _)) (startBody_works ?_)
    rw [stepBegun, bay_modRun]
    exact ⟨_, List.mem_append_right _ (List.mem_singleton_self _), rfl, rfl⟩

theorem runEnd_works : Works b s (runEnd b s) := by
  refine .ite (fun h => stopRun_works rfl rfl rfl (.refl b s) ?_ ..) fun _ => .refl b s
  simp only [atRunEnd, Bool.and_eq_true, List.isEmpty_iff] at h
  rw [h.2]
  nofun

theorem walkSteps_works (n : Nat) : Works b s (walkSteps b n s) := by
  induction n generalizing s with
  | zero => exact runEnd_works
  | succ n ih => exact .ite (fun h => (startStep_works h).trans ih) fun _ => runEnd_works

theorem walk_works : Works b s (walk b s) := walkSteps_works _

theorem failingPrompt_some {q : Prompt} (h : failingPrompt b s = some q) :
    q ∈ (s.bay b).panel.prompts ∧ endWaits (s.bay b).run q.step = false := by
  refine ⟨mem_of_failingPrompt h, ?_⟩
  unfold failingPrompt at h
  split at h
  · simpa using (Option.filter_eq_some_iff.1 h).2
  · cases h

theorem afterPrompts_works (n : Nat) : Works b s (afterPrompts b n s) := by
  induction n generalizing s with
  | zero => exact pumpDisplay_works.trans walk_works
  | succ n ih =>
    simp only [afterPrompts]
    refine .ite (fun _ => pumpDisplay_works.trans walk_works) fun _ => ?_
    split
    · exact walk_works
    · next q hq =>
      obtain ⟨hMem, hWaits⟩ := failingPrompt_some hq
      exact walk_works.trans ((endPrompt_works hMem hWaits).trans (joinTest_works.trans ih))

theorem failHeld_works : Works b s (failHeld b s) := by
  unfold failHeld
  split
  · exact .refl b s
  · next e he =>
    refine .ite (fun _ => .refl b s) fun hw => ?_
    obtain ⟨-, hStop⟩ := endWaits_false (by simpa using hw)
    refine endStep_works (p := (s.bay b).panel) rfl rfl (.refl b s) (List.Subset.refl _) rfl (.inr (.inl ?_)) hStop nofun
    unfold heldFixture at he
    split at he
    · have hFixture := List.find?_some he
      refine ⟨e, List.mem_of_find?_eq_some he, rfl, ?_⟩
      split at hFixture
      · next h =>
        rw [h]
        exact ⟨rfl, nofun⟩
      · cases hFixture
    · cases he

theorem afterEnds_works : Works b s (afterEnds b s) :=
  joinTest_works.trans (pumpText_works.trans ((afterPrompts_works 4).trans failHeld_works))

end

end Sys2Proof.Machine

namespace Sys2Proof.Machine

open Sys2Proof

section
variable {b : Bay} {s t u : State} {e : BusEntry}

/-! ## A request of a bus that is not FAILED (R162, R166) -/

theorem busRequest_granted (h : s.bus.state ≠ .failed) (e : BusEntry) : ∃ t, busRequest e s = some t := by
  unfold busRequest
  rw [if_neg h]
  split <;> exact ⟨_, rfl⟩

theorem busRequest_failed (h : s.bus.state = .failed) (e : BusEntry) : busRequest e s = none := if_pos h

theorem busRequest_requested (h : busRequest e s = some t) : Requested e s t := by
  unfold busRequest at h
  split at h
  · cases h
  · split at h
    · next hRoom =>
      cases h
      simp only [Bool.and_eq_true, decide_eq_true_eq, List.all_eq_true] at hRoom
      obtain ⟨⟨hLength, hCount⟩, hHeld⟩ := hRoom
      refine ⟨fun _ => ⟨rfl, rfl⟩, fun hFull => ?_, rfl, rfl⟩
      rcases hFull with hf | hf | ⟨g, hg, hb⟩
      · exact absurd hLength (Nat.not_lt.2 hf)
      · exact absurd hCount (Nat.not_lt.2 hf)
      · exact absurd hb (hHeld g hg)
    · next hFull =>
      cases h
      refine ⟨fun ⟨hLength, hCount, hHeld⟩ => absurd ?_ hFull, fun _ => ⟨rfl, rfl⟩, rfl, rfl⟩
      simpa only [Bool.and_eq_true, decide_eq_true_eq, List.all_eq_true] using ⟨⟨hLength, hCount⟩, hHeld⟩

theorem busRequest_mem (h : busRequest e s = some t) : e ∈ t.bus.queue ++ t.bus.held := by
  obtain ⟨-, -, -, ⟨-, -, hQueue, -⟩ | ⟨-, hHeld⟩⟩ := busRequest_cases h
  · rw [hQueue]
    simp
  · rw [hHeld]
    simp

/-- A fixed text requested with no display write outstanding (R198). -/
theorem requestFixed_granted (h : s.bus.state ≠ .failed) (x : FixedText) :
    ((requestFixed b x s).bay b).panel = { (s.bay b).panel with display := some (.fixed x) } ∧
      ⟨b, .display (.fixed x), 1, .write (fixedTextBytes x), 0, 0, false⟩ ∈
        (requestFixed b x s).bus.queue ++ (requestFixed b x s).bus.held := by
  obtain ⟨t, ht⟩ := busRequest_granted h (displayEntry b (.fixed x) (fixedTextBytes x))
  have hMem := busRequest_mem ht
  simp only [requestFixed, ht, bay_modPanel, busRequest_bay ht]
  exact ⟨trivial, hMem⟩

/-! ## What the work of a run leaves of it (R43, R204) -/

/-- A run that has been started keeps its start, and its bay stays as it is or goes through CLOSING. -/
structure RanOn (y z : BayState) : Prop where
  ran : z.run.ran = y.run.ran
  start : z.run.startTime = y.run.startTime
  lid : y.panel.closeLid = false → z.panel.closeLid = false
  phase : z.phase = y.phase ∨ z.phase = .closing ∨ z.phase = .idle ∨ z.phase = .halted ∨ z.phase = .offline

theorem RanOn.trans {x y z : BayState} (h : RanOn x y) (g : RanOn y z) : RanOn x z :=
  ⟨g.ran.trans h.ran, g.start.trans h.start, fun hl => g.lid (h.lid hl), g.phase.elim (fun hp => hp ▸ h.phase) .inr⟩

theorem BayWork.ranOn {now : RackTime} {y z : BayState} (h : BayWork now y z) : RanOn y z := by
  cases h with
  | asks p f w hp hl => exact ⟨rfl, rfl, fun h => hl.trans h, .inl rfl⟩
  | outputs => exact ⟨rfl, rfl, id, .inl rfl⟩
  | entries => exact ⟨rfl, rfl, id, .inl rfl⟩
  | starts => exact ⟨rfl, rfl, id, .inl rfl⟩
  | skips => exact ⟨rfl, rfl, id, .inl rfl⟩
  | prompts => exact ⟨rfl, rfl, id, .inl rfl⟩
  | ends i e o d p w hf hr hs ho hp hl => exact ⟨rfl, rfl, fun h => hl.trans h, .inl rfl⟩
  | closes z hd ho hr ht hl hp => exact ⟨hr, ht, fun _ => hl, .inr hp⟩

theorem Works.ranOn (h : Works b s t) : RanOn (s.bay b) (t.bay b) :=
  h.keeps ⟨rfl, rfl, id, .inl rfl⟩ fun _ _ hz hy => hy.trans hz.ranOn

/-! ## The START and ABORT keys (R42 to R44, R203, R204) -/

/-- The bay at the first entry to RUNNING of its run (R43, R204). -/
def runningEntered (b : Bay) (s : State) : State :=
  setPhase b .running (s.modBay b fun y => { y with
    run := { y.run with startTime := s.rackTime, ran := true }
    panel := { y.panel with closeLid := false } })

theorem enterRunning_eq (s : State) : enterRunning b s = walk b (runningEntered b s) := rfl

theorem runningEntered_bay : ∃ w, (runningEntered b s).bay b = { s.bay b with
    phase := .running
    run := { (s.bay b).run with startTime := s.rackTime, ran := true }
    panel := { (s.bay b).panel with closeLid := false }
    xu := { (s.bay b).xu with write := w } } :=
  ⟨_, by rw [runningEntered, setPhase_self, bay_modBay]⟩

/-- A run that enters RUNNING keeps its start, whether it goes on or has ended at once. -/
theorem enterRunning_ran : ((enterRunning b s).bay b).run.ran = true ∧
    ((enterRunning b s).bay b).run.startTime = s.rackTime ∧ ((enterRunning b s).bay b).panel.closeLid = false ∧
    (((enterRunning b s).bay b).phase = .running ∨ ((enterRunning b s).bay b).phase = .closing ∨
      ((enterRunning b s).bay b).phase = .idle ∨ ((enterRunning b s).bay b).phase = .halted ∨
      ((enterRunning b s).bay b).phase = .offline) := by
  obtain ⟨w, hw⟩ := runningEntered_bay (b := b) (s := s)
  obtain ⟨hRan, hStart, hLid, hPhase⟩ := (walk_works (b := b) (s := runningEntered b s)).ranOn
  rw [hw] at hRan hStart hLid hPhase
  exact ⟨hRan, hStart, hLid rfl, hPhase⟩

theorem keyStart_idle (h : (s.bay b).phase ≠ .arming) : keyStart b s = s := if_neg h

theorem keyStart_open (hp : (s.bay b).phase = .arming) (hl : (s.bay b).supply.lidOpen = true) :
    keyStart b s = wantText b .closeLid (s.modPanel b fun p => { p with closeLid := true }) := by
  simp [keyStart, hp, hl]

theorem keyStart_closed (hp : (s.bay b).phase = .arming) (hl : (s.bay b).supply.lidOpen = false) :
    keyStart b s = enterRunning b s := by
  simp [keyStart, hp, hl]

theorem wantText_lidMark (x : FixedText) : LidMarkStays b s (wantText b x s) :=
  .ite (fun _ => requestFixed_lidMark _) fun _ => modPanel_lidMark rfl

/-- The watches of the conditions armed at the entry to CLOSING (R157). -/
theorem condGet_supplyAtClosing (p : Supply) (phase : Phase) (c : Condition) :
    condGet (supplyAtClosing phase p).atClosing c =
      if conditionArmed p phase c then some (condGet p.watches c) else none := by
  cases c <;> rfl

theorem abortRun_idle (hc : NoCheckDue b s) (h : abortable (s.bay b).phase = false) (cause : AbortCause) :
    abortRun b cause s = s := by
  unfold abortRun
  simp only [settleChecks_idle hc, h, Bool.not_false, if_true]

theorem abortRun_entered {cause : AbortCause} (hc : NoCheckDue b s) (hl : (s.bay b).run.load = none)
    (hp : abortsNow (s.bay b).phase) : abortRun b cause s =
      enterClosing b .aborted (.abort cause) 0 (endAll (s.bay b).run .aborted (.abort cause) s.rackTime) s :=
  (abortRun_now hc hl hp).trans (abortNow_now cause hl)

/-- Settles O49, by the key and the bay's state. -/
theorem startAndAbortKeys : Obligations.StartAndAbortKeys := by
  intro s b hs
  have hStart : exec (.keyStart b) s = .next (keyStart b s) := exec_up hs rfl
  have hAbort : exec (.keyAbort b) s = .next (abortRun b .operator s) := exec_up hs rfl
  refine ⟨fun hp => by rw [hStart, keyStart_idle hp], fun hp hl => ⟨_, hStart, ?_⟩, fun hp hl => ⟨_, hStart, ?_⟩,
    fun hc => ⟨fun hp => ?_, fun l hp hl => ?_, fun hl hp => ⟨_, hAbort, ?_⟩⟩⟩
  · rw [keyStart_open hp hl]
    generalize hs1 : s.modPanel b (fun p => { p with closeLid := true }) = s1
    have hBay : s1.bay b = { s.bay b with panel := { (s.bay b).panel with closeLid := true } } := by
      rw [← hs1, bay_modPanel]
    have hLid : LidMarkStays b s1 (wantText b .closeLid s1) := wantText_lidMark _
    obtain ⟨p, f, -, hb⟩ := (wantText_asks (b := b) (s := s1) .closeLid).bay
    refine ⟨by rw [hb, hBay, hp], (congrArg (fun m => m.1.1) hLid).trans (by rw [hBay]), by rw [hb, hBay], by rw [hb, hBay], fun hd hf => ?_,
      fun hd => ?_⟩
    · have hBus : s1.bus = s.bus := by rw [← hs1, modPanel_bus]
      rw [wantText, if_pos (by rw [hBay]; exact hd)]
      obtain ⟨hPanel, hMem⟩ := requestFixed_granted (b := b) (s := s1) (by rwa [hBus]) .closeLid
      exact ⟨by rw [hPanel], hMem⟩
    · rw [wantText, if_neg (by rw [hBay]; exact hd), bay_modPanel]
  · rw [keyStart_closed hp hl]
    obtain ⟨hRan, hTime, hLid, hPhase⟩ := enterRunning_ran (b := b) (s := s)
    refine ⟨?_, hRan, hTime, hLid⟩
    rcases hPhase with h | h | h | h | h <;> rw [h] <;> nofun
  · rw [hAbort, abortRun_idle hc]
    rcases hp with hp | hp | hp | hp <;> rw [hp] <;> rfl
  · rw [hAbort, abortRun_loading hc hp hl]
    rfl
  · rw [abortRun_entered hc hl hp]
    refine ⟨enterClosing_closed, fun c => ?_, fun e he => enterClosing_ended (mem_endAll he ..)⟩
    obtain ⟨-, -, -, hWatches⟩ := enterClosing_supply (b := b) (verdict := .aborted) (cause := .abort .operator)
      (offending := 0) (ended := endAll (s.bay b).run .aborted (.abort .operator) s.rackTime) (s := s)
    rw [hWatches]
    exact condGet_supplyAtClosing ..

end

end Sys2Proof.Machine

namespace Sys2Proof.Machine

open Sys2Proof

/-! ## A settle judgement that names a CHECK step (R137, R145)

In a state that no run reaches, the settle judgement can name a due CHECK step that the walker has not started by its own
count. The boundary then ends that step DONE, the walker starts it afresh, and the end that was due of it is taken of the fresh
step: its probes have no sample yet, it ends NO_DATA and stops the run, before the other due CHECK step. -/

/-- A CHECK step without probes whose period is over. -/
def overdueCheck : CheckWork := ⟨10, 10, false, []⟩

/-- A CHECK step in flight whose end is due. -/
def overdueEntry (i : Nat) : InFlight := ⟨i, 0, true, 0, false, none, 0, 0, .check overdueCheck⟩

def twoSteps : Header := ⟨0, 0, false, false, false, false, false, 2, false, false, false, false, 0, 0⟩

/-- A CHECK step of one probe, with STOP_ON_FAIL. -/
def strictCheck : Step := ⟨true, true, false, 0, 0, .check 5 [⟨0, .hold, 0, 100, 10, 1, 1, 0, 0⟩]⟩

/-- Bay 0 RUNNING, two CHECK steps due, of which the walker has not counted step 1, and a settle judgement of step 1. -/
def judgesCheck : State := State.reset.modBay .bay0 fun y => { y with
  phase := .running
  run := { y.run with
    next := 1
    inFlight := [overdueEntry 1, overdueEntry 0]
    copy := { y.run.copy with header := some twoSteps, steps := [strictCheck, strictCheck] } }
  supply := { y.supply with on := true, setting := 0, settle := some ⟨1, 1⟩ } }

/-- Refutes O13: where the settle judgement names a due CHECK step that the walker has not counted, the boundary stops the run
by that step's second end, and another due CHECK step ends CUT. -/
theorem not_settledAtTheBoundary : ¬ Obligations.SettledAtTheBoundary := by
  intro h
  obtain ⟨hSettled, -⟩ := h
  obtain ⟨-, -, -, -, -, hWindow⟩ := hSettled judgesCheck .bay0 0
  obtain ⟨-, -, hChecks⟩ := hWindow ⟨1, 1⟩ rfl rfl (by decide) (by decide) (by decide)
  obtain ⟨hResult, -, -⟩ := hChecks 0 (by decide) (by decide) (by decide) (overdueEntry 0) rfl overdueCheck rfl
    (.inl (by decide)) twoSteps rfl (by decide)
  exact absurd hResult (by decide +kernel)

end Sys2Proof.Machine

namespace Sys2Proof.Machine

open Sys2Proof

/-! ## CHECK steps whose end is due while others end (R56, R137)

While a CHECK step whose end is due is in flight, the work of the run neither ends that step nor stops the run. -/

/-- The one entry in flight of a step that the walker has started. -/
structure Sole (i : Nat) (e : InFlight) (y : BayState) : Prop where
  mem : e ∈ y.run.inFlight
  unique : ∀ g ∈ y.run.inFlight, g.index = i → g = e
  index : e.index = i
  old : i < y.run.next

/-- The run goes on, with its slot and its record. -/
structure Steady (y z : BayState) : Prop where
  slot : z.run.slot = y.run.slot
  lost : z.run.lost = y.run.lost
  copy : z.run.copy = y.run.copy
  phase : z.phase = y.phase

theorem Steady.refl (y : BayState) : Steady y y := ⟨rfl, rfl, rfl, rfl⟩

theorem Steady.trans {x y z : BayState} (h : Steady x y) (g : Steady y z) : Steady x z :=
  ⟨g.slot.trans h.slot, g.lost.trans h.lost, g.copy.trans h.copy, g.phase.trans h.phase⟩

section
variable {i j : Nat} {e f : InFlight} {y z : BayState}

theorem Sole.of_find (hf : findInFlight y.run i = some e) (hi : i < y.run.next)
    (hd : (y.run.inFlight.map fun e => e.index).Nodup) : Sole i e y where
  mem := (mem_of_find hf).1
  unique _ hg h := List.inj_on_of_nodup_map hd hg (mem_of_find hf).1 (h.trans (mem_of_find hf).2.symm)
  index := (mem_of_find hf).2
  old := hi

theorem Sole.find (h : Sole i e y) : findInFlight y.run i = some e := by
  cases hf : findInFlight y.run i with
  | none => exact absurd h.index (by simpa using List.find?_eq_none.1 hf e h.mem)
  | some g => exact congrArg some (h.unique g (mem_of_find hf).1 (mem_of_find hf).2)

/-- The entries of other steps leave the table. -/
theorem Sole.filter (h : Sole i e y) (hij : j ≠ i) (hz : z.run.inFlight = y.run.inFlight.filter fun g => g.index ≠ j)
    (hn : y.run.next ≤ z.run.next) : Sole i e z where
  mem := hz ▸ List.mem_filter.2 ⟨h.mem, by simpa [h.index] using hij.symm⟩
  unique g hg := h.unique g (List.mem_filter.1 (hz ▸ hg)).1
  index := h.index
  old := Nat.lt_of_lt_of_le h.old hn

theorem Sole.map {F : InFlight → InFlight} (h : Sole i e y) (hF : ∀ g, (F g).index = g.index)
    (hz : z.run.inFlight = y.run.inFlight.map F) (hn : y.run.next ≤ z.run.next) : Sole i (F e) z where
  mem := hz ▸ List.mem_map_of_mem h.mem
  unique g hg hi := by
    rw [hz] at hg
    obtain ⟨g', hg', rfl⟩ := List.mem_map.1 hg
    rw [h.unique g' hg' ((hF g').symm.trans hi)]
  index := (hF e).trans h.index
  old := Nat.lt_of_lt_of_le h.old hn

theorem Sole.same (h : Sole i e y) (hf : z.run.inFlight = y.run.inFlight) (hn : y.run.next ≤ z.run.next) : Sole i e z :=
  ⟨hf ▸ h.mem, fun g hg => h.unique g (hf ▸ hg), h.index, Nat.lt_of_lt_of_le h.old hn⟩

/-- Another step comes into flight. -/
theorem Sole.append (h : Sole i e y) (hg : f.index = y.run.next) (hz : z.run.inFlight = y.run.inFlight ++ [f])
    (hn : y.run.next ≤ z.run.next) : Sole i e z where
  mem := hz ▸ List.mem_append_left _ h.mem
  unique g hm hi := by
    rw [hz] at hm
    rcases List.mem_append.1 hm with hm | hm
    · exact h.unique g hm hi
    · have hOld := h.old
      rw [← hi, List.mem_singleton.1 hm, hg] at hOld
      exact absurd hOld (Nat.lt_irrefl _)
  index := h.index
  old := Nat.lt_of_lt_of_le h.old hn

theorem isCheck_of_checkDue (h : checkDue e = true) : ∃ c, e.work = .check c ∧ (allDecided c || periodOver c) = true := by
  unfold checkDue at h
  split at h
  · next c hw => exact ⟨c, hw, h⟩
  · cases h

theorem not_isDrive_of_due (h : checkDue e = true) : isDrive e.work = false := by
  obtain ⟨c, hw, -⟩ := isCheck_of_checkDue h
  rw [hw]
  rfl

/-- A CHECK step whose end is due does not end by the work of its run. -/
theorem Sole.not_endsBy (h : Sole i e y) (hd : checkDue e = true) : ¬EndsBy y i := by
  obtain ⟨c, hw, -⟩ := isCheck_of_checkDue hd
  rintro (⟨hDue, -⟩ | ⟨g, hg, hi, hCheck, -⟩ | ⟨g, hg, hi, tag, hJoin, -⟩)
  · exact hDue e h.mem hd h.index
  · rw [h.unique g hg hi, hw] at hCheck
    cases hCheck
  · rw [h.unique g hg hi, hw] at hJoin
    cases hJoin

/-- While a CHECK step is due, a step that the work does not end stays as it is, and the run goes on. -/
theorem BayWork.sole {now : RackTime} (hz : BayWork now y z) (hf : f ∈ y.run.inFlight) (hd : checkDue f = true)
    (h : Sole i e y) (hw : isDrive e.work = false) (hn : ¬EndsBy y i) : Sole i e z ∧ Steady y z := by
  cases hz with
  | asks | outputs | prompts => exact ⟨h.same rfl (Nat.le_refl _), ⟨rfl, rfl, rfl, rfl⟩⟩
  | entries F hF =>
    have hSame : F e = e := hF.others e h.mem fun g hg hi => by rw [h.unique g hg (hi.trans h.index), hw]
    have hMap := h.map (z := { y with run := { y.run with inFlight := y.run.inFlight.map F } }) hF.index rfl (Nat.le_refl _)
    rw [hSame] at hMap
    exact ⟨hMap, ⟨rfl, rfl, rfl, rfl⟩⟩
  | starts x hc hx => exact ⟨h.append (f := startEntry y.run.next x now) rfl rfl (Nat.le_succ _), ⟨rfl, rfl, rfl, rfl⟩⟩
  | skips => exact ⟨h.same rfl (Nat.le_succ _), ⟨rfl, rfl, rfl, rfl⟩⟩
  | ends k g o d p w hg hr =>
    have hki : k ≠ i := fun hEq => hn (hEq ▸ hr)
    exact ⟨h.filter hki rfl (Nat.le_refl _), ⟨rfl, rfl, rfl, rfl⟩⟩
  | closes z hNone => exact absurd ((hNone f hf).symm.trans hd) nofun

/-- A CHECK step that is due stays as it is. -/
theorem Works.sole {b : Bay} {s t : State} (hw : Works b s t) (h : Sole i e (s.bay b)) (hd : checkDue e = true) :
    Sole i e (t.bay b) ∧ Steady (s.bay b) (t.bay b) :=
  hw.keeps (P := fun z => Sole i e z ∧ Steady (s.bay b) z) ⟨h, .refl _⟩ fun _ _ hz hy => by
    obtain ⟨hSole, hSteady⟩ := hz.sole hy.1.mem hd hy.1 (not_isDrive_of_due hd) (hy.1.not_endsBy hd)
    exact ⟨hSole, hy.2.trans hSteady⟩

/-! ### The other CHECK steps that are due -/

/-- The end of a CHECK step is still to come with the work it had when it fell due, or the step has left the table. -/
def Tracked (i : Nat) (w : Work) (y : BayState) : Prop :=
  (findInFlight y.run i = none ∧ i < y.run.next) ∨
    ∃ g, findInFlight y.run i = some g ∧ g.work = w ∧ (i < y.run.next ∨ ∀ f ∈ y.run.inFlight, f.index = i → f.work = w)

theorem Sole.tracked (h : Sole i e y) : Tracked i e.work y := .inr ⟨e, h.find, rfl, .inl h.old⟩

theorem find_map {F : InFlight → InFlight} (hF : ∀ g, (F g).index = g.index) (hz : z.run.inFlight = y.run.inFlight.map F) :
    findInFlight z.run i = (findInFlight y.run i).map F := by
  rw [findInFlight, hz, List.find?_map]
  congr 2
  funext g
  simp [hF]

theorem find_filter (hij : j ≠ i) (hz : z.run.inFlight = y.run.inFlight.filter fun g => g.index ≠ j) :
    findInFlight z.run i = findInFlight y.run i := by
  rw [findInFlight, hz, List.find?_filter]
  congr 1
  funext g
  by_cases h : g.index = i <;> simp [h, hij.symm]

theorem find_filtered (hz : z.run.inFlight = y.run.inFlight.filter fun g => g.index ≠ i) : findInFlight z.run i = none := by
  rw [findInFlight, hz, List.find?_eq_none]
  exact fun g hg => by simpa using (List.mem_filter.1 hg).2

theorem Tracked.filter {w : Work} (h : Tracked i w y) (hij : j ≠ i)
    (hz : z.run.inFlight = y.run.inFlight.filter fun g => g.index ≠ j) (hn : y.run.next ≤ z.run.next) : Tracked i w z := by
  rw [Tracked, find_filter hij hz]
  rcases h with ⟨hNone, hi⟩ | ⟨g, hg, hw, hAll⟩
  · exact .inl ⟨hNone, Nat.lt_of_lt_of_le hi hn⟩
  · refine .inr ⟨g, hg, hw, hAll.imp (Nat.lt_of_lt_of_le · hn) fun h f hf => h f (List.mem_filter.1 (hz ▸ hf)).1⟩

theorem Tracked.map {w : Work} {F : InFlight → InFlight} (h : Tracked i w y) (hF : ∀ g, (F g).index = g.index)
    (hw : ∀ g, g.work = w → (F g).work = w) (hz : z.run.inFlight = y.run.inFlight.map F) (hn : y.run.next ≤ z.run.next) :
    Tracked i w z := by
  rw [Tracked, find_map hF hz]
  rcases h with ⟨hNone, hi⟩ | ⟨g, hg, hgw, hAll⟩
  · exact .inl ⟨by rw [hNone]; rfl, Nat.lt_of_lt_of_le hi hn⟩
  · refine .inr ⟨F g, by rw [hg]; rfl, hw g hgw, hAll.imp (Nat.lt_of_lt_of_le · hn) fun h f hf hi => ?_⟩
    rw [hz] at hf
    obtain ⟨f', hf', rfl⟩ := List.mem_map.1 hf
    exact hw f' (h f' hf' ((hF f').symm.trans hi))

theorem Tracked.append {w : Work} (h : Tracked i w y) (hf : f.index = y.run.next)
    (hz : z.run.inFlight = y.run.inFlight ++ [f]) (hn : z.run.next = y.run.next + 1) : Tracked i w z := by
  have hFind : findInFlight z.run i = (findInFlight y.run i).or (if f.index = i then some f else none) := by
    rw [findInFlight, hz, List.find?_append]
    by_cases hi : f.index = i <;> simp [findInFlight, hi]
  rcases h with ⟨hNone, hi⟩ | ⟨g, hg, hw, hAll⟩
  · refine .inl ⟨?_, by omega⟩
    rw [hFind, hNone, if_neg (by omega)]
    rfl
  · refine .inr ⟨g, by rw [hFind, hg]; rfl, hw, ?_⟩
    by_cases hi : i < z.run.next
    · exact .inl hi
    · refine .inr fun f' hf' hi' => ?_
      rw [hz] at hf'
      rcases List.mem_append.1 hf' with hf' | hf'
      · exact (hAll.resolve_left (by omega)) f' hf' hi'
      · rw [List.mem_singleton.1 hf'] at hi'
        omega

/-- While a CHECK step is due, the ends of the others stay to come as they are. -/
theorem BayWork.tracked {now : RackTime} {c : CheckWork} (hz : BayWork now y z) (hf : f ∈ y.run.inFlight)
    (hd : checkDue f = true) (h : Tracked i (.check c) y) (hc : (allDecided c || periodOver c) = true) :
    Tracked i (.check c) z := by
  cases hz with
  | asks | outputs | prompts => exact h
  | entries F hF =>
    refine h.map hF.index (fun g hg => ?_) rfl (Nat.le_refl _)
    rcases hF.work g with hw | ⟨hw, -⟩
    · rw [hw, hg]
    · rw [hg] at hw
      cases hw
  | starts x hs hx => exact h.append (f := startEntry y.run.next x now) rfl rfl rfl
  | skips =>
    rcases h with ⟨hNone, hi⟩ | ⟨g, hg, hw, hAll⟩
    · exact .inl ⟨hNone, Nat.lt_succ_of_lt hi⟩
    · exact .inr ⟨g, hg, hw, hAll.imp_left Nat.lt_succ_of_lt⟩
  | ends k g o d p w hg hr =>
    by_cases hki : k = i
    · subst hki
      refine .inl ⟨find_filtered rfl, ?_⟩
      rcases h with ⟨hNone, hi⟩ | ⟨g', hg', hw, hAll⟩
      · exact hi
      · refine hAll.elim id fun hAll => ?_
        rcases hr with ⟨hDue, -⟩ | ⟨x, hx, hxi, hCheck, -⟩ | ⟨x, hx, hxi, tag, hJoin, -⟩
        · obtain ⟨hMem, hIndex⟩ := mem_of_find hg'
          exact absurd hIndex (hDue g' hMem (by simp only [checkDue, hw, hc]))
        · rw [hAll x hx hxi] at hCheck
          cases hCheck
        · rw [hAll x hx hxi] at hJoin
          cases hJoin
    · exact h.filter hki rfl (Nat.le_refl _)
  | closes z hNone => exact absurd ((hNone f hf).symm.trans hd) nofun

/-- While a CHECK step is due, the ends of the others stay to come as they are. -/
theorem Works.tracked {b : Bay} {s t : State} {c : CheckWork} (hw : Works b s t) (hs : Sole j f (s.bay b))
    (hd : checkDue f = true) (h : Tracked i (.check c) (s.bay b)) (hc : (allDecided c || periodOver c) = true) :
    Tracked i (.check c) (t.bay b) :=
  (hw.keeps (P := fun z => Sole j f z ∧ Tracked i (.check c) z) ⟨hs, h⟩ fun _ _ hz hy =>
    ⟨(hz.sole hy.1.mem hd hy.1 (not_isDrive_of_due hd) (hy.1.not_endsBy hd)).1,
      hz.tracked hy.1.mem hd hy.2 hc⟩).2

end

end Sys2Proof.Machine

namespace Sys2Proof.Machine

open Sys2Proof

/-! ### The probes of due CHECK steps decided (R136, R137) -/

theorem periodEndOutcome_decided (p : Probe) : periodEndOutcome p ≠ .pending := by
  unfold periodEndOutcome
  split
  · nofun
  · split
    · split
      · nofun
      · split <;> nofun
    · nofun
    · split
      · nofun
      · split
        · nofun
        · split <;> nofun
    · split <;> nofun

theorem decideProbe_decided (p : Probe) : (decideProbe p).state ≠ .pending := by
  unfold decideProbe
  split
  · exact periodEndOutcome_decided p
  · assumption

theorem decideProbe_of_decided {p : Probe} (h : p.state ≠ .pending) : decideProbe p = p := if_neg h

theorem decideCheck_twice (c : CheckWork) : decideCheck (decideCheck c) = decideCheck c := by
  simp only [decideCheck, List.map_map]
  congr 1
  exact List.map_congr_left fun p _ => decideProbe_of_decided (decideProbe_decided p)

theorem allDecided_decideCheck (c : CheckWork) : allDecided (decideCheck c) = true := by
  simp only [allDecided, decideCheck, List.all_map, List.all_eq_true, Function.comp_def, decide_eq_true_eq]
  exact fun p _ => decideProbe_decided p

theorem decideEntry_twice (e : InFlight) : decideEntry (decideEntry e) = decideEntry e := by
  cases hw : e.work with
  | check c => rw [decideEntry_check hw, decideEntry_check rfl, decideCheck_twice]
  | _ => simp only [decideEntry, hw]

/-- The entries of some steps decided. -/
def decideIn (l : List Nat) (e : InFlight) : InFlight := if e.index ∈ l then decideEntry e else e

theorem decideIn_index (l : List Nat) (e : InFlight) : (decideIn l e).index = e.index := by
  unfold decideIn
  split
  · exact decideEntry_index e
  · rfl

theorem decideIn_cons (i : Nat) (l : List Nat) (e : InFlight) :
    decideIn l (if e.index = i then decideEntry e else e) = decideIn (i :: l) e := by
  unfold decideIn
  by_cases hi : e.index = i
  · rw [if_pos hi, decideEntry_index, decideEntry_twice, ite_self, if_pos (by simp [hi])]
  · simp [hi]

section
variable {b : Bay} {s t u : State} {i j k : Nat} {e f g : InFlight} {c : CheckWork} {x : StepResult}

theorem decideAll_eq (l : List InFlight) : forAll l (fun e t => t.modInFlight b e.index decideEntry) s =
    s.modRun b fun r => { r with inFlight := r.inFlight.map (decideIn (l.map fun e => e.index)) } := by
  induction l generalizing s with
  | nil =>
    have hId : decideIn ([] : List Nat) = id := by
      funext e
      simp [decideIn]
    simp only [forAll, List.foldl_nil, List.map_nil, hId, List.map_id]
    exact congrArg (fun bays => { s with bays := bays }) (baySet_bayGet s.bays b).symm
  | cons a l ih =>
    have hStep : forAll (a :: l) (fun e t => t.modInFlight b e.index decideEntry) s =
        forAll l (fun e t => t.modInFlight b e.index decideEntry) (s.modInFlight b a.index decideEntry) := rfl
    rw [hStep, ih]
    simp only [State.modInFlight, State.modRun, modBay_modBay, List.map_map, List.map_cons]
    congr 1
    funext y
    congr 2
    exact List.map_congr_left fun e _ => decideIn_cons ..

theorem decideDue_eq (x : Option Nat) : decideDue b x s = s.modRun b fun r =>
    { r with inFlight := r.inFlight.map (decideIn ((dueBut x (s.bay b).run).map fun e => e.index)) } := decideAll_eq _

theorem decideDue_bay (x : Option Nat) : (decideDue b x s).bay b = { s.bay b with run := { (s.bay b).run with
    inFlight := (s.bay b).run.inFlight.map (decideIn ((dueBut x (s.bay b).run).map fun e => e.index)) } } := by
  rw [decideDue_eq, bay_modRun]

theorem decideDue_steady (x : Option Nat) : Steady (s.bay b) ((decideDue b x s).bay b) := by
  rw [decideDue_bay]
  exact ⟨rfl, rfl, rfl, rfl⟩

theorem mem_dueBut {y : Option Nat} {r : RunEngine} : e ∈ dueBut y r ↔
    e ∈ r.inFlight ∧ checkDue e = true ∧ y ≠ some e.index := by
  simp [dueBut]

/-- The step named is not decided. -/
theorem Sole.undecided (h : Sole i e (s.bay b)) : Sole i e ((decideDue b (some i) s).bay b) := by
  have hSame : decideIn ((dueBut (some i) (s.bay b).run).map fun e => e.index) e = e := if_neg fun hi => by
    obtain ⟨g, hg, hgi⟩ := List.mem_map.1 hi
    exact (mem_dueBut.1 hg).2.2 (congrArg some (h.index.symm.trans hgi.symm))
  have hMap := h.map (z := (decideDue b (some i) s).bay b) (decideIn_index _) (by rw [decideDue_bay]) (by rw [decideDue_bay])
  rwa [hSame] at hMap

/-- A due CHECK step but that named is decided. -/
theorem Sole.decided (h : Sole j f (s.bay b)) (hd : checkDue f = true) {y : Option Nat} (hj : y ≠ some j) :
    Sole j (decideEntry f) ((decideDue b y s).bay b) := by
  have hIn : decideIn ((dueBut y (s.bay b).run).map fun e => e.index) f = decideEntry f :=
    if_pos (List.mem_map.2 ⟨f, mem_dueBut.2 ⟨h.mem, hd, h.index ▸ hj⟩, rfl⟩)
  have hMap := h.map (z := (decideDue b y s).bay b) (decideIn_index _) (by rw [decideDue_bay]) (by rw [decideDue_bay])
  rwa [hIn] at hMap

theorem checkDue_decideEntry (hd : checkDue e = true) : checkDue (decideEntry e) = true := by
  obtain ⟨c, hw, -⟩ := isCheck_of_checkDue hd
  rw [decideEntry_check hw]
  simp only [checkDue, allDecided_decideCheck, Bool.true_or]

/-! ### The ends of due CHECK steps, one after the other (R50, R56, R137) -/

theorem endStops_copy {r q : RunEngine} (h : q.copy = r.copy) (i : Nat) (o : StepOutcome) :
    endStops q i o = endStops r i o := by
  simp only [endStops, countedStep, runOption, h]

/-- A bay after the end of one step, which stops nothing. -/
def EndedAs (k : Nat) (y z : BayState) : Prop := ∃ x w, z = { y with
  run := { releaseClaims k y.run with
    inFlight := y.run.inFlight.filter fun g => g.index ≠ k
    results := y.run.results ++ [x] }
  xu := { y.xu with write := w } }

theorem EndedAs.steady {y z : BayState} (h : EndedAs k y z) : Steady y z := by
  obtain ⟨x, w, rfl⟩ := h
  exact ⟨rfl, rfl, rfl, rfl⟩

theorem EndedAs.flight {y z : BayState} (h : EndedAs k y z) : z.run.inFlight = y.run.inFlight.filter fun g => g.index ≠ k := by
  obtain ⟨x, w, rfl⟩ := h
  rfl

theorem EndedAs.next {y z : BayState} (h : EndedAs k y z) : z.run.next = y.run.next := by
  obtain ⟨x, w, rfl⟩ := h
  rfl

theorem filter_changeEntry {F : InFlight → InFlight} (hF : ∀ e, (F e).index = e.index) (l : List InFlight) :
    (changeEntry k F l).filter (fun g => g.index ≠ k) = l.filter fun g => g.index ≠ k := by
  unfold changeEntry
  induction l with
  | nil => rfl
  | cons a l ih =>
    rw [List.map_cons, List.filter_cons, List.filter_cons]
    by_cases ha : a.index = k
    · simpa [ha, hF] using ih
    · simpa [ha] using ih

/-- The end of a CHECK step that stops nothing (R136). -/
theorem endCheck_goes (hf : findInFlight (s.bay b).run k = some e) (hw : e.work = .check c)
    (hs : endStops (s.bay b).run k (checkOutcome (decideCheck c).probes) = false) :
    EndedAs k (s.bay b) ((endCheck b k s).bay b) := by
  have hBay : (s.modInFlight b k decideEntry).bay b = { s.bay b with
      run := { (s.bay b).run with inFlight := changeEntry k decideEntry (s.bay b).run.inFlight } } := by
    rw [State.modInFlight, bay_modRun]
    rfl
  have hFind : findInFlight ((s.modInFlight b k decideEntry).bay b).run k = some (decideEntry e) := by
    rw [find_decided, hf]
    rfl
  rw [endCheck_check hf hw, endStep_goes hFind (by rw [hBay]; exact hs)]
  generalize hx : resultOf (decideEntry e) (checkOutcome (decideCheck c).probes) (checkDetail c)
    (s.modInFlight b k decideEntry).rackTime = x
  have hIndex : x.index = k := hx ▸ (decideEntry_index e).trans (mem_of_find hf).2
  obtain ⟨w, hLeft⟩ := stepLeft_bay (b := b) (s := s.modInFlight b k decideEntry) x
  rw [hBay, hIndex] at hLeft
  refine ⟨x, w, hLeft.trans ?_⟩
  dsimp only
  rw [filter_changeEntry decideEntry_index]
  rfl

/-- What the work of the run and the ends of CHECK steps keep while a CHECK step is due. -/
structure KeptWhileDue (now : RackTime) (j : Nat) (f : InFlight) (P : BayState → Prop) : Prop where
  work : ∀ y z, BayWork now y z → Sole j f y → P y → P z
  ends : ∀ y z k e c, findInFlight y.run k = some e → e.work = .check c → k ≠ j → EndedAs k y z → P y → P z

theorem keptWhileDue_trivial (now : RackTime) (j : Nat) (f : InFlight) : KeptWhileDue now j f fun _ => True :=
  ⟨fun _ _ _ _ _ => trivial, fun _ _ _ _ _ _ _ _ _ _ => trivial⟩

theorem KeptWhileDue.works {P : BayState → Prop} (hP : KeptWhileDue s.rackTime j f P) (hw : Works b s t)
    (h : Sole j f (s.bay b)) (hd : checkDue f = true) (h0 : P (s.bay b)) : P (t.bay b) :=
  (hw.keeps (P := fun z => Sole j f z ∧ P z) ⟨h, h0⟩ fun y z hz hy =>
    ⟨(hz.sole hy.1.mem hd hy.1 (not_isDrive_of_due hd) (hy.1.not_endsBy hd)).1, hP.work y z hz hy.1 hy.2⟩).2

/-- A CHECK step whose end is still to come and stops nothing. -/
def Passing (k : Nat) (y : BayState) : Prop := ∃ c, Tracked k (.check c) y ∧ (allDecided c || periodOver c) = true ∧
  endStops y.run k (checkOutcome (decideCheck c).probes) = false

theorem Passing.of_steady {y z : BayState} (hs : Steady y z) (h : ∀ c, (allDecided c || periodOver c) = true →
    Tracked k (.check c) y → Tracked k (.check c) z) (hp : Passing k y) : Passing k z := by
  obtain ⟨c, hTracked, hDue, hStop⟩ := hp
  exact ⟨c, h c hDue hTracked, hDue, (endStops_copy hs.copy ..).trans hStop⟩

/-- One due CHECK end that stops nothing is taken with what follows it; another step that is due stays. -/
theorem nextCheck_passes {P : BayState → Prop} (hP : KeptWhileDue s.rackTime j f P) (h : Sole j f (s.bay b))
    (hd : checkDue f = true) (h0 : P (s.bay b)) (hk : Passing k (s.bay b)) (hkj : k ≠ j) :
    Sole j f ((nextCheck b k s).bay b) ∧ Steady (s.bay b) ((nextCheck b k s).bay b) ∧ P ((nextCheck b k s).bay b) ∧
      ∀ m, m ≠ k → Passing m (s.bay b) → Passing m ((nextCheck b k s).bay b) := by
  obtain ⟨c, hTracked, -, hStop⟩ := hk
  rcases hTracked with ⟨hNone, -⟩ | ⟨g, hg, hw, -⟩
  · simp only [nextCheck, hNone]
    exact ⟨h, .refl _, h0, fun _ _ h => h⟩
  · have hEnd := endCheck_goes hg hw hStop
    have hSole := h.filter hkj hEnd.flight (Nat.le_of_eq hEnd.next.symm)
    have hTime : (endCheck b k s).rackTime = s.rackTime := Moves.rackTime (endCheck_moves (k := none) k)
    have hWorks : Works b (endCheck b k s) (afterEnds b (endCheck b k s)) := afterEnds_works
    obtain ⟨hSole', hSteady⟩ := hWorks.sole hSole hd
    have hNext : nextCheck b k s = afterEnds b (endCheck b k s) := by simp only [nextCheck, hg]
    rw [hNext]
    refine ⟨hSole', hEnd.steady.trans hSteady, (hTime ▸ hP).works hWorks hSole hd (hP.ends _ _ _ _ _ hg hw hkj hEnd h0),
      fun m hm hp => ?_⟩
    refine Passing.of_steady hSteady (fun c hDue hT => hWorks.tracked hSole hd hT hDue) ?_
    exact hp.of_steady hEnd.steady fun c _ hT => hT.filter hm.symm hEnd.flight (Nat.le_of_eq hEnd.next.symm)

/-- Due CHECK ends that stop nothing, taken one after the other; another step that is due stays. -/
theorem takeChecks_passes {P : BayState → Prop} (hP : KeptWhileDue s.rackTime j f P) (hd : checkDue f = true)
    (ks : List Nat) (h : Sole j f (s.bay b)) (h0 : P (s.bay b)) (hk : ∀ k ∈ ks, Passing k (s.bay b)) (hj : j ∉ ks)
    (hn : ks.Nodup) : Sole j f ((takeChecks b ks s).bay b) ∧ Steady (s.bay b) ((takeChecks b ks s).bay b) ∧
      P ((takeChecks b ks s).bay b) := by
  induction ks generalizing s with
  | nil => exact ⟨h, .refl _, h0⟩
  | cons k ks ih =>
    have hjk : j ≠ k := fun hEq => hj (hEq ▸ List.mem_cons_self ..)
    have hj' : j ∉ ks := fun hm => hj (List.mem_cons_of_mem _ hm)
    obtain ⟨hkn, hn'⟩ := List.nodup_cons.1 hn
    have hTime : (nextCheck b k s).rackTime = s.rackTime := Moves.rackTime (nextCheck_moves (k := none) k)
    obtain ⟨hSole, hSteady, hKept, hOthers⟩ := nextCheck_passes hP h hd h0 (hk k (List.mem_cons_self ..)) (Ne.symm hjk)
    rw [takeChecks_cons]
    obtain ⟨hSole', hSteady', hKept'⟩ := ih (hTime ▸ hP) hSole hKept
      (fun m hm => hOthers m (fun hEq => hkn (hEq ▸ hm)) (hk m (List.mem_cons_of_mem _ hm))) hj' hn'
    exact ⟨hSole', hSteady.trans hSteady', hKept'⟩

theorem mem_dueChecks {y : Option Nat} {stops : Bool} {r : RunEngine} (h : k ∈ dueChecks y stops r) :
    ∃ e ∈ r.inFlight, e.index = k ∧ checkDue e = true ∧ y ≠ some k ∧ endStops r k (dueOutcome e) = stops := by
  obtain ⟨e, he, rfl⟩ := List.mem_map.1 h
  obtain ⟨hDue, hStops⟩ := List.mem_filter.1 he
  obtain ⟨hMem, hCheck, hNot⟩ := mem_dueBut.1 hDue
  exact ⟨e, hMem, rfl, hCheck, hNot, by simpa using hStops⟩

theorem dueChecks_nodup {r : RunEngine} (hn : (r.inFlight.map fun e => e.index).Nodup) (y : Option Nat) (stops : Bool) :
    (dueChecks y stops r).Nodup :=
  hn.sublist ((List.filter_sublist.trans List.filter_sublist).map _)

/-- The due CHECK steps that stop nothing are so with their probes decided. -/
theorem dueChecks_passing (hn : ((s.bay b).run.inFlight.map fun e => e.index).Nodup) {y : Option Nat}
    (hk : k ∈ dueChecks y false (s.bay b).run) : Passing k ((decideDue b y s).bay b) := by
  obtain ⟨e, hMem, rfl, hDue, hNot, hStop⟩ := mem_dueChecks hk
  obtain ⟨c, hw, -⟩ := isCheck_of_checkDue hDue
  have hIn : decideIn ((dueBut y (s.bay b).run).map fun e => e.index) e = decideEntry e :=
    if_pos (List.mem_map.2 ⟨e, mem_dueBut.2 ⟨hMem, hDue, hNot⟩, rfl⟩)
  have hUnique {g : InFlight} (hg : g ∈ (s.bay b).run.inFlight) (hi : g.index = e.index) : g = e :=
    List.inj_on_of_nodup_map hn hg hMem hi
  have hFind : findInFlight (s.bay b).run e.index = some e := by
    cases hf : findInFlight (s.bay b).run e.index with
    | none => exact absurd (List.find?_eq_none.1 hf e hMem) (by simp)
    | some g => exact congrArg some (hUnique (mem_of_find hf).1 (mem_of_find hf).2)
  have hFlight : ((decideDue b y s).bay b).run.inFlight = (s.bay b).run.inFlight.map
      (decideIn ((dueBut y (s.bay b).run).map fun e => e.index)) := by rw [decideDue_bay]
  have hWork : (decideEntry e).work = .check (decideCheck c) := by rw [decideEntry_check hw]
  refine ⟨decideCheck c, .inr ⟨decideEntry e, ?_, hWork, .inr fun g hg hi => ?_⟩,
    by rw [allDecided_decideCheck, Bool.true_or], ?_⟩
  · rw [find_map (decideIn_index _) hFlight, hFind, Option.map_some, hIn]
  · rw [hFlight] at hg
    obtain ⟨g', hg', rfl⟩ := List.mem_map.1 hg
    rw [hUnique hg' ((decideIn_index _ g').symm.trans hi), hIn, hWork]
  · rw [endStops_copy (decideDue_steady y).copy, decideCheck_twice]
    simpa only [dueOutcome, hw] using hStop

end

end Sys2Proof.Machine

namespace Sys2Proof.Machine

open Sys2Proof

/-- The result of a CHECK step at its own end (R136, R140). -/
def checkResult (e : InFlight) (c : CheckWork) (now : RackTime) : StepResult :=
  ⟨e.index, e.tag, checkOutcome (c.probes.map decideProbe), checkDetail c, e.clamped, e.reported, e.start, now,
    probeEntries (c.probes.map decideProbe)⟩

theorem map_decideProbe_decided {ps : List Probe} (h : ∀ p ∈ ps, p.state ≠ .pending) : ps.map decideProbe = ps :=
  (List.map_congr_left fun p hp => decideProbe_of_decided (h p hp)).trans (List.map_id ps)

theorem checkResult_decided {e : InFlight} {c : CheckWork} (hw : e.work = .check c) (now : RackTime) :
    checkResult (decideEntry e) (decideCheck c) now = checkResult e c now := by
  have hProbes : (decideCheck c).probes.map decideProbe = c.probes.map decideProbe := by
    rw [← show (decideCheck (decideCheck c)).probes = (decideCheck c).probes.map decideProbe from rfl, decideCheck_twice]
    rfl
  rw [decideEntry_check hw, checkResult, hProbes]
  rfl

theorem checkDue_iff {e : InFlight} {c : CheckWork} (hw : e.work = .check c) :
    checkDue e = true ↔ c.period ≤ c.k ∨ ∀ p ∈ c.probes, p.state ≠ .pending := by
  simp [checkDue, hw, allDecided, periodOver, or_comm]

section
variable {b : Bay} {s t u : State} {i j k : Nat} {e f g : InFlight} {c : CheckWork} {x : StepResult}

theorem endCheck_ended (hf : findInFlight (s.bay b).run j = some f) (hw : f.work = .check c) :
    Ended b (checkResult f c s.rackTime) s (endCheck b j s) := by
  have hFind : findInFlight ((s.modInFlight b j decideEntry).bay b).run j = some (decideEntry f) := by
    rw [find_decided, hf]
    rfl
  have hEnd := endStep_ended (o := checkOutcome (decideCheck c).probes) (d := checkDetail c) hFind
  rw [resultOf_decided hw rfl] at hEnd
  rw [endCheck_check hf hw]
  exact hEnd.before (by rw [State.modInFlight, bay_modRun]) (by rw [State.modInFlight, bay_modRun]) (modInFlight_moves ..)
    (Moves.grows (endStep_moves ..))

theorem endCheck_next : ((endCheck b j s).bay b).run.next = (s.bay b).run.next := by
  unfold endCheck
  split
  · rfl
  · split
    · rw [endStep_next, State.modInFlight, bay_modRun]
    · rfl

theorem nextCheck_ended (h : Sole j f (s.bay b)) (hw : f.work = .check c) :
    Ended b (checkResult f c s.rackTime) s (nextCheck b j s) := by
  have hNext : nextCheck b j s = afterEnds b (endCheck b j s) := by simp only [nextCheck, h.find]
  rw [hNext]
  refine (endCheck_ended h.find hw).after ?_ afterEnds_carries (Moves.grows (endCheck_moves j)) afterEnds_moves
  rw [endCheck_next]
  exact h.index.trans_lt h.old

/-! ### The own end of a CHECK step, whatever others are due (R34, R52, R135, R136) -/

/-- An end of a CHECK step whose own end is due is taken whatever other CHECK steps are due. -/
theorem withChecks_own {op : State → State} (h : Sole i e (s.bay b)) (hd : checkDue e = true)
    (hn : ((s.bay b).run.inFlight.map fun e => e.index).Nodup) (hi : x.index = i)
    (hEnd : ∀ u, Sole i e (u.bay b) → u.rackTime = s.rackTime → Ended b x u (op u))
    (hNext : ∀ u, ((op u).bay b).run.next = (u.bay b).run.next) (hMoves : ∀ u, Moves none b u (op u)) (stops : Bool) :
    Ended b x s (withChecks b (some i) stops op s) := by
  have hOld {u : State} (hu : Sole i e (u.bay b)) : x.index < ((op u).bay b).run.next := by
    rw [hNext, hi]
    exact hu.old
  have hDecided : Moves none b s (decideDue b (some i) s) := decideDue_moves _
  have hSole : Sole i e ((decideDue b (some i) s).bay b) := h.undecided
  have hSteady := decideDue_steady (b := b) (s := s) (some i)
  cases stops with
  | true =>
    have hNot : i ∉ dueChecks (some i) false (s.bay b).run := fun hm => by
      obtain ⟨-, -, -, -, hi, -⟩ := mem_dueChecks hm
      exact hi rfl
    obtain ⟨hSole', hSteady', -⟩ := takeChecks_passes (keptWhileDue_trivial _ i e) hd
      (dueChecks (some i) false (s.bay b).run) hSole trivial (fun k hk => dueChecks_passing hn hk) hNot
      (dueChecks_nodup hn ..)
    have hTaken : Moves none b s (takeChecks b (dueChecks (some i) false (s.bay b).run) (decideDue b (some i) s)) :=
      hDecided.trans (takeChecks_moves _)
    have hAll := hSteady.trans hSteady'
    refine Ended.before ?_ hAll.slot hAll.lost hTaken (Moves.grows ((hMoves _).trans afterEnds_moves))
    exact (hEnd _ hSole' hTaken.rackTime).after (hOld hSole') afterEnds_carries (hMoves _).grows afterEnds_moves
  | false =>
    refine Ended.before ?_ hSteady.slot hSteady.lost hDecided
      (Moves.grows ((hMoves _).trans (afterEnds_moves.trans (takeChecks_moves _))))
    exact (hEnd _ hSole hDecided.rackTime).after (hOld hSole) (afterEnds_carries.trans (takeChecks_carries _))
      (hMoves _).grows (afterEnds_moves.trans (takeChecks_moves _))

theorem checkTaken_own (h : Sole i e (s.bay b)) (hw : e.work = .check c) (hd : checkDue e = true)
    (hn : ((s.bay b).run.inFlight.map fun e => e.index).Nodup) (stops : Bool) :
    Ended b (checkResult e c s.rackTime) s (withChecks b (some i) stops (endCheck b i) s) :=
  withChecks_own h hd hn h.index (fun _ hu ht => ht ▸ endCheck_ended hu.find hw) (fun _ => endCheck_next)
    (fun _ => endCheck_moves i) stops

theorem stopBlock_check (hw : e.work = .check c) : stopBlock b e s = s := by simp only [stopBlock, hw]

theorem endInFlight_found {o : StepOutcome} {d : Detail} {block : State → State}
    (hf : findInFlight (s.bay b).run i = some e) : endInFlight b i o d block s = endStep b i o d (block s) := by
  simp only [endInFlight, hf]

theorem timeoutTaken_own (h : Sole i e (s.bay b)) (hw : e.work = .check c) (hd : checkDue e = true)
    (hn : ((s.bay b).run.inFlight.map fun e => e.index).Nodup) (ht : e.timeout = some 0) :
    Ended b (resultOf e .timedOut .none s.rackTime) s (timeoutEnd b i s) := by
  have hBlock : stopBlock b e = id := funext fun _ => stopBlock_check hw
  have hAtEnd : checkAtEnd (s.bay b).run i = true := by simp [checkAtEnd, h.find, hd]
  rw [timeoutEnd_over h.find ht, endWithChecks, hBlock]
  simp only [hAtEnd, Bool.not_true, Bool.and_false, Bool.false_eq_true, if_false]
  refine withChecks_own h hd hn h.index (fun u hu hTime => ?_) (fun _ => ?_) (fun _ => ?_) _
  · rw [endInFlight_found hu.find, ← hTime]
    exact endStep_ended hu.find
  · unfold endInFlight
    split
    · rfl
    · exact endStep_next
  · exact endInFlight_moves i _ _ fun _ => .refl

/-! ### The end of another CHECK step, and the JOIN that waits on it (R34, R56, R137) -/

/-- The step named keeps its entry when the others are decided. -/
theorem decideIn_named (hf : findInFlight (s.bay b).run i = some e) :
    decideIn ((dueBut (some i) (s.bay b).run).map fun e => e.index) e = e := if_neg fun hi => by
  obtain ⟨g, hg, hgi⟩ := List.mem_map.1 hi
  exact (mem_dueBut.1 hg).2.2 (congrArg some ((mem_of_find hf).2.symm.trans hgi.symm))

theorem find_undecided (hf : findInFlight (s.bay b).run i = some e) :
    findInFlight ((decideDue b (some i) s).bay b).run i = some e := by
  rw [find_map (z := (decideDue b (some i) s).bay b) (decideIn_index _) (by rw [decideDue_bay]), hf, Option.map_some,
    decideIn_named hf]

/-- The CHECK step named passes when its own end is due and stops nothing. -/
theorem named_passing (hf : findInFlight (s.bay b).run i = some e) (hw : e.work = .check c) (hd : checkDue e = true)
    (hn : ((s.bay b).run.inFlight.map fun e => e.index).Nodup) (hs : endStops (s.bay b).run i (dueOutcome e) = false) :
    Passing i ((decideDue b (some i) s).bay b) := by
  refine ⟨c, .inr ⟨e, find_undecided hf, hw, .inr fun g hg hi => ?_⟩, by simpa only [checkDue, hw] using hd, ?_⟩
  · rw [decideDue_bay] at hg
    obtain ⟨g', hg', rfl⟩ := List.mem_map.1 hg
    obtain ⟨hMem, hIndex⟩ := mem_of_find hf
    rw [List.inj_on_of_nodup_map hn hg' hMem (((decideIn_index _ g').symm.trans hi).trans hIndex.symm), decideIn_named hf, hw]
  · rw [endStops_copy (decideDue_steady _).copy]
    simpa only [dueOutcome, hw] using hs

/-- The steps taken before a CHECK step that is due and not failing leave it to its own end, and what follows keeps that
end. -/
theorem checkTaken_other {P : BayState → Prop} (hi : findInFlight (s.bay b).run i = some e)
    (hw : e.work = .check c) (hd : checkDue e = true) (hj : Sole j f (s.bay b)) (hjd : checkDue f = true) (hij : i ≠ j)
    (hn : ((s.bay b).run.inFlight.map fun e => e.index).Nodup)
    (hs : endStops (s.bay b).run j (dueOutcome f) = false)
    (hP : KeptWhileDue s.rackTime j (decideEntry f) P) (h0 : P ((decideDue b (some i) s).bay b)) :
    ∃ u, Sole j (decideEntry f) (u.bay b) ∧ P (u.bay b) ∧ Steady (s.bay b) (u.bay b) ∧ Moves none b s u ∧
      CarriesOn b (nextCheck b j u)
        (withChecks b (some i) (endStops (s.bay b).run i (dueOutcome e)) (endCheck b i) s) ∧
      Moves none b (nextCheck b j u)
        (withChecks b (some i) (endStops (s.bay b).run i (dueOutcome e)) (endCheck b i) s) := by
  have hMem : j ∈ dueChecks (some i) false (s.bay b).run := by
    refine List.mem_map.2 ⟨f, List.mem_filter.2 ⟨mem_dueBut.2 ⟨hj.mem, hjd, ?_⟩, ?_⟩, hj.index⟩
    · rw [hj.index]
      exact fun h => hij (Option.some.inj h)
    · rw [hj.index, hs]
      rfl
  obtain ⟨xs, ys, hSplit⟩ := List.append_of_mem hMem
  have hNodup := dueChecks_nodup hn (some i) false
  have hPass (k : Nat) (hk : k ∈ xs) : Passing k ((decideDue b (some i) s).bay b) :=
    dueChecks_passing hn (hSplit ▸ List.mem_append_left _ hk)
  rw [hSplit] at hNodup
  obtain ⟨hXs, -, hDisjoint⟩ := List.nodup_append.1 hNodup
  have hjNot : j ∉ xs := fun h => hDisjoint j h j (List.mem_cons_self ..) rfl
  have hDecided : Moves none b s (decideDue b (some i) s) := decideDue_moves _
  have hDue := checkDue_decideEntry hjd
  have hSole : Sole j (decideEntry f) ((decideDue b (some i) s).bay b) := hj.decided hjd fun h => hij (Option.some.inj h)
  have hKept : KeptWhileDue (decideDue b (some i) s).rackTime j (decideEntry f) P := hDecided.rackTime ▸ hP
  have hSteady := decideDue_steady (b := b) (s := s) (some i)
  cases hStops : endStops (s.bay b).run i (dueOutcome e) with
  | true =>
    obtain ⟨hSole', hSteady', hP'⟩ := takeChecks_passes hKept hDue xs hSole h0 hPass hjNot hXs
    refine ⟨_, hSole', hP', hSteady.trans hSteady', hDecided.trans (takeChecks_moves _), ?_, ?_⟩ <;>
      simp only [withChecks, if_true, hSplit, takeChecks_append, takeChecks_cons]
    · exact (takeChecks_carries _).trans ((endCheck_carries i).trans afterEnds_carries)
    · exact (takeChecks_moves _).trans ((endCheck_moves i).trans afterEnds_moves)
  | false =>
    have hFirst : afterEnds b (endCheck b i (decideDue b (some i) s)) = nextCheck b i (decideDue b (some i) s) := by
      simp only [nextCheck, find_undecided hi]
    have hOwnPass := named_passing hi hw hd hn hStops
    have hiNot : i ∉ xs := fun hm => by
      obtain ⟨-, -, -, -, h, -⟩ := mem_dueChecks (hSplit ▸ List.mem_append_left _ hm : i ∈ dueChecks (some i) false _)
      exact h rfl
    obtain ⟨hSole', hSteady', hP'⟩ := takeChecks_passes hKept hDue (i :: xs) hSole h0
      (fun k hk => (List.mem_cons.1 hk).elim (fun h => h ▸ hOwnPass) (hPass k))
      (fun hm => (List.mem_cons.1 hm).elim (fun h => hij h.symm) hjNot) (List.nodup_cons.2 ⟨hiNot, hXs⟩)
    refine ⟨_, hSole', hP', hSteady.trans hSteady', hDecided.trans (takeChecks_moves _), ?_, ?_⟩ <;>
      simp only [withChecks, Bool.false_eq_true, if_false, hSplit, hFirst, takeChecks_append, takeChecks_cons]
    · exact (takeChecks_carries _).trans (takeChecks_carries _)
    · exact (takeChecks_moves _).trans (takeChecks_moves _)

/-- No step starts while a JOIN is in flight (R31, R49). -/
theorem not_join_of_canStart {y : BayState} (h : canStart y = true) (hg : g ∈ y.run.inFlight) (tag : Option Nat) :
    g.work ≠ .join tag := fun hw => by
  obtain ⟨-, -, -, hLets⟩ := canStart_iff.1 h
  have hOne := List.all_eq_true.1 hLets g hg
  simp [letsNextStart, hw] at hOne

/-- A JOIN in flight that waits on one step alone. -/
structure JoinWaits (j k : Nat) (f g : InFlight) (y : BayState) : Prop where
  sole : Sole k g y
  others : ∀ z ∈ y.run.inFlight, z.index ≠ j → z.index ≠ k → z.tag ≠ f.tag ∧ ∀ w, z.work ≠ .join w
  prompts : ∀ q ∈ y.panel.prompts, q.step ≠ k

theorem JoinWaits.not_endsBy {y : BayState} (h : JoinWaits j k f g y) (hj : Sole j f y) (hjk : j ≠ k)
    (hg : g.work = .join (some f.tag)) : ¬EndsBy y k := by
  rintro (⟨-, q, hq, hk⟩ | ⟨z, hz, hk, -, hJoin⟩ | ⟨z, hz, hk, tag, hJoin, hHolds⟩)
  · exact h.prompts q hq hk
  · exact hJoin _ (h.sole.unique z hz hk ▸ hg)
  · rw [h.sole.unique z hz hk, hg] at hJoin
    obtain rfl := Work.join.inj hJoin
    rcases joinHolds_iff.1 hHolds f hj.mem with h' | ⟨n, hn, h'⟩
    · exact hjk (hj.index.symm.trans h')
    · exact h' (Option.some.inj hn)

theorem mem_prompts_of_subset {y z : BayState} {q : Prompt}
    (hp : z.panel.prompts.map (fun q => q.step) ⊆ y.panel.prompts.map fun q => q.step) (hq : q ∈ z.panel.prompts) :
    ∃ q' ∈ y.panel.prompts, q'.step = q.step := List.mem_map.1 (hp (List.mem_map_of_mem hq))

/-- The JOIN waits as long as the step it waits on is due. -/
theorem joinWaits_kept (now : RackTime) (hjk : j ≠ k) (hd : checkDue f = true) (hg : g.work = .join (some f.tag)) :
    KeptWhileDue now j f (JoinWaits j k f g) where
  work y z hz hj hy := by
    have hNotDrive : isDrive g.work = false := by rw [hg]; rfl
    have hSole := (hz.sole hj.mem hd hy.sole hNotDrive (hy.not_endsBy hj hjk hg)).1
    cases hz with
    | asks p fl w hp =>
      refine ⟨hSole, hy.others, fun q hq => ?_⟩
      obtain ⟨q', hq', hEq⟩ := mem_prompts_of_subset (z := { y with panel := p }) hp hq
      exact hEq ▸ hy.prompts q' hq'
    | outputs => exact ⟨hSole, hy.others, hy.prompts⟩
    | entries F hF =>
      refine ⟨hSole, fun z hz hzj hzk => ?_, hy.prompts⟩
      obtain ⟨z', hz', rfl⟩ := List.mem_map.1 hz
      obtain ⟨hTag, hJoin⟩ := hy.others z' hz' (hF.index z' ▸ hzj) (hF.index z' ▸ hzk)
      refine ⟨(hF.tag z').symm ▸ hTag, fun w hw => ?_⟩
      rcases hF.work z' with h | ⟨-, h⟩
      · exact hJoin w (h.symm.trans hw)
      · rw [hw] at h
        cases h
    | starts x hc => exact absurd hg (not_join_of_canStart hc hy.sole.mem _)
    | skips hc => exact absurd hg (not_join_of_canStart hc hy.sole.mem _)
    | prompts q he =>
      refine ⟨hSole, hy.others, fun q' hq' => ?_⟩
      rcases List.mem_append.1 hq' with hq' | hq'
      · exact hy.prompts q' hq'
      · obtain ⟨z, hz, hzi, hw⟩ := he
        rw [List.mem_singleton.1 hq', ← hzi]
        intro hzk
        rw [hy.sole.unique z hz hzk, hg] at hw
        cases hw
    | ends m z o d p w hf hr hs ho hp =>
      refine ⟨hSole, fun z hz => hy.others z (List.mem_filter.1 hz).1, fun q hq => ?_⟩
      obtain ⟨q', hq', hEq⟩ := mem_prompts_of_subset (z := { y with panel := p }) hp hq
      exact hEq ▸ hy.prompts q' hq'
    | closes z hNone => exact absurd ((hNone f hj.mem).symm.trans hd) nofun
  ends y z m e c hf hw hmj hEnd hy := by
    have hmk : m ≠ k := fun h => by
      subst h
      rw [hy.sole.find] at hf
      rw [Option.some.inj hf, hw] at hg
      cases hg
    refine ⟨hy.sole.filter hmk hEnd.flight (Nat.le_of_eq hEnd.next.symm), fun z' hz' => hy.others z' ?_, ?_⟩
    · rw [hEnd.flight] at hz'
      exact (List.mem_filter.1 hz').1
    · obtain ⟨x, w, rfl⟩ := hEnd
      exact hy.prompts

/-- The JOIN ends with the step that it waits on (R34). -/
theorem joinTest_ended {y : State} (h : JoinWaits j k f g (y.bay b)) (hg : g.work = .join (some f.tag))
    (hNo : ∀ z ∈ (y.bay b).run.inFlight, z.index ≠ j) : Ended b (resultOf g .done .none y.rackTime) y (joinTest b y) := by
  have hReady : readyJoin (y.bay b).run = some g := by
    cases hr : readyJoin (y.bay b).run with
    | none =>
      have hHolds : joinHolds (y.bay b).run g.index (some f.tag) = true := joinHolds_iff.2 fun z hz => by
        by_cases hzk : z.index = k
        · exact .inl (hzk.trans h.sole.index.symm)
        · exact .inr ⟨f.tag, rfl, (h.others z hz (hNo z hz) hzk).1⟩
      have hNot := List.find?_eq_none.1 hr g h.sole.mem
      simp only [hg] at hNot
      exact absurd hHolds hNot
    | some z =>
      obtain ⟨hMem, tag, hw, -⟩ := mem_readyJoin hr
      by_cases hzk : z.index = k
      · rw [h.sole.unique z hMem hzk]
      · exact absurd hw ((h.others z hMem (hNo z hMem) hzk).2 tag)
  have hTest : joinTest b y = endStep b k .done .none y := by
    simp only [joinTest, hReady, h.sole.index]
  rw [hTest]
  exact endStep_ended h.sole.find

theorem nextCheck_joinEnded (hj : Sole j f (s.bay b)) (hw : f.work = .check c)
    (hs : endStops (s.bay b).run j (checkOutcome (decideCheck c).probes) = false) (hjk : j ≠ k)
    (h : JoinWaits j k f g (s.bay b)) (hg : g.work = .join (some f.tag)) :
    Ended b (resultOf g .done .none s.rackTime) s (nextCheck b j s) := by
  have hNext : nextCheck b j s = afterEnds b (endCheck b j s) := by simp only [nextCheck, hj.find]
  have hEnd := endCheck_goes hj.find hw hs
  have hWaits : JoinWaits j k f g ((endCheck b j s).bay b) := by
    refine ⟨h.sole.filter hjk hEnd.flight (Nat.le_of_eq hEnd.next.symm), fun z hz => h.others z ?_, ?_⟩
    · rw [hEnd.flight] at hz
      exact (List.mem_filter.1 hz).1
    · obtain ⟨x, w, hx⟩ := hEnd
      rw [hx]
      exact h.prompts
  have hMoves : Moves none b s (endCheck b j s) := endCheck_moves j
  have hTest : Ended b (resultOf g .done .none s.rackTime) (endCheck b j s) (joinTest b (endCheck b j s)) := by
    have := joinTest_ended hWaits hg fun z hz => by
      rw [hEnd.flight] at hz
      simpa using (List.mem_filter.1 hz).2
    rwa [hMoves.rackTime] at this
  have hRest : CarriesOn b (joinTest b (endCheck b j s)) (afterEnds b (endCheck b j s)) :=
    pumpText_carries.trans ((afterPrompts_carries _).trans failHeld_carries)
  have hRestMoves : Moves none b (joinTest b (endCheck b j s)) (afterEnds b (endCheck b j s)) :=
    pumpText_moves.trans ((afterPrompts_moves _).trans failHeld_moves)
  have hOld : (resultOf g .done .none s.rackTime).index < ((joinTest b (endCheck b j s)).bay b).run.next := by
    have hStep : ((joinTest b (endCheck b j s)).bay b).run.next = ((endCheck b j s).bay b).run.next := by
      unfold joinTest
      split
      · exact endStep_next
      · rfl
    rw [hStep]
    exact h.sole.index.trans_lt hWaits.sole.old
  rw [hNext]
  exact (hTest.after hOld hRest (Moves.grows joinTest_moves) hRestMoves).before hEnd.steady.slot hEnd.steady.lost hMoves
    (Moves.grows (afterEnds_moves (b := b)))

end

end Sys2Proof.Machine

namespace Sys2Proof.Machine

open Sys2Proof

/-! ## The walker before the stop of a due CHECK step (R49, R56, R137) -/

/-- Only the end of the step before it has held the next step of the run. -/
structure Ready (n : Nat) (y : BayState) : Prop where
  next : y.run.next = n
  starts : canStart y = true
  record : y.run.copy.steps[n]? ≠ none
  flight : ∀ g ∈ y.run.inFlight, g.index < n

/-- A step has been started at a rack time: it is in flight or has ended since. -/
structure Underway (n : Nat) (now : RackTime) (y : BayState) : Prop where
  next : n < y.run.next
  start : ∀ g ∈ y.run.inFlight, g.index = n → g.start = now
  stands : (∃ g ∈ y.run.inFlight, g.index = n) ∨
    ∃ x ∈ y.run.results, x.index = n ∧ x.outcome ≠ .skipped ∧ x.start = now

section
variable {b : Bay} {s t u : State} {i j n : Nat} {e f : InFlight} {c : CheckWork} {y z : BayState} {now : RackTime}

theorem Ready.same (h : Ready n y) (hp : z.phase = y.phase) (hn : z.run.next = y.run.next) (hc : z.run.copy = y.run.copy)
    (hf : z.run.inFlight = y.run.inFlight) : Ready n z where
  next := hn.trans h.next
  starts := by
    have hStarts := h.starts
    simp only [canStart, stepCount, hp, hn, hc, hf] at hStarts ⊢
    exact hStarts
  record := hc ▸ h.record
  flight := hf ▸ h.flight

theorem canStart_filter (h : canStart y = true) (hp : z.phase = y.phase) (hn : z.run.next = y.run.next)
    (hc : z.run.copy = y.run.copy) (hf : z.run.inFlight = y.run.inFlight.filter fun g => g.index ≠ i) :
    canStart z = true := by
  obtain ⟨hRuns, hLeft, hRoom, hLets⟩ := canStart_iff.1 h
  refine canStart_iff.2 ⟨hp.trans hRuns, ?_, ?_, ?_⟩
  · rw [hn, show stepCount z.run = stepCount y.run by simp only [stepCount, hc]]
    exact hLeft
  · rw [hf]
    exact Nat.lt_of_le_of_lt (List.length_filter_le ..) hRoom
  · rw [hf, List.all_eq_true]
    exact fun g hg => List.all_eq_true.1 hLets g (List.mem_filter.1 hg).1

theorem letsNextStart_change {l : List InFlight} {F : InFlight → InFlight} (hF : DriveChange l F) {e : InFlight}
    (h : letsNextStart e = true) : letsNextStart (F e) = true := by
  simp only [letsNextStart, hF.overlap, Bool.and_eq_true] at h ⊢
  refine ⟨h.1, ?_⟩
  rcases hF.work e with hw | ⟨-, hw⟩
  · rw [hw]
    exact h.2
  · split
    · next hJoin =>
      rw [hJoin] at hw
      cases hw
    · rfl

/-- The work before the walker's own starts nothing out of order: the next step is still to start, or has been started. -/
theorem BayWork.ready (hz : BayWork now y z) (hj : Sole j f y) (hd : checkDue f = true) (h : Ready n y) :
    Ready n z ∨ Underway n now z := by
  cases hz with
  | asks | outputs | prompts => exact .inl (h.same rfl rfl rfl rfl)
  | entries F hF =>
    obtain ⟨hRuns, hLeft, hRoom, hLets⟩ := canStart_iff.1 h.starts
    refine .inl ⟨h.next, canStart_iff.2 ⟨hRuns, hLeft, ?_, ?_⟩, h.record, fun g hg => ?_⟩
    · rw [List.length_map]
      exact hRoom
    · simp only [List.all_map, List.all_eq_true] at hLets ⊢
      exact fun g hg => letsNextStart_change hF (hLets g hg)
    · obtain ⟨g', hg', rfl⟩ := List.mem_map.1 hg
      exact hF.index g' ▸ h.flight g' hg'
  | starts x hc hx =>
    refine .inr ⟨h.next ▸ Nat.lt_succ_self _, fun g hg hi => ?_,
      .inl ⟨_, List.mem_append_right _ (List.mem_singleton_self _), h.next⟩⟩
    rcases List.mem_append.1 hg with hg | hg
    · exact absurd hi (Nat.ne_of_lt (h.flight g hg))
    · rw [List.mem_singleton.1 hg]
      rfl
  | skips hc hx => exact absurd (h.next ▸ hx) h.record
  | ends k g o d p w =>
    exact .inl ⟨h.next, canStart_filter h.starts rfl rfl rfl rfl, h.record, fun g hg => h.flight g (List.mem_filter.1 hg).1⟩
  | closes z hNone => exact absurd ((hNone f hj.mem).symm.trans hd) nofun

/-- Once started, a step stays in flight or leaves its result. -/
theorem BayWork.begun (hz : BayWork now y z) (hj : Sole j f y) (hd : checkDue f = true) (h : Underway n now y) :
    Underway n now z := by
  cases hz with
  | asks | outputs | prompts => exact ⟨h.next, h.start, h.stands⟩
  | entries F hF =>
    refine ⟨h.next, fun g hg hi => ?_, h.stands.imp_left fun ⟨g, hg, hi⟩ => ⟨F g, List.mem_map_of_mem hg, (hF.index g).trans hi⟩⟩
    obtain ⟨g', hg', rfl⟩ := List.mem_map.1 hg
    exact (hF.start g').trans (h.start g' hg' ((hF.index g').symm.trans hi))
  | starts x hc hx =>
    refine ⟨Nat.lt_succ_of_lt h.next, fun g hg hi => ?_,
      h.stands.imp_left fun ⟨g, hg, hi⟩ => ⟨g, List.mem_append_left _ hg, hi⟩⟩
    rcases List.mem_append.1 hg with hg | hg
    · exact h.start g hg hi
    · rw [List.mem_singleton.1 hg]
      rfl
  | skips => exact ⟨Nat.lt_succ_of_lt h.next, h.start, h.stands⟩
  | ends k g o d p w hf hr hs ho =>
    refine ⟨h.next, fun g hg => h.start g (List.mem_filter.1 hg).1, ?_⟩
    rcases h.stands with ⟨x, hx, hi⟩ | ⟨x, hx, hi⟩
    · by_cases hk : n = k
      · obtain ⟨hMem, hIndex⟩ := mem_of_find hf
        exact .inr ⟨_, List.mem_append_right _ (List.mem_singleton_self _), hIndex.trans hk.symm, ho,
          h.start g hMem (hIndex.trans hk.symm)⟩
      · exact .inl ⟨x, List.mem_filter.2 ⟨hx, by simpa [hi] using hk⟩, hi⟩
    · exact .inr ⟨x, List.mem_append_left _ hx, hi⟩
  | closes z hNone => exact absurd ((hNone f hj.mem).symm.trans hd) nofun

/-- The work of the run while a CHECK step is due, with the next step to start or started. -/
theorem Works.readyOrBegun (hw : Works b s t) (hj : Sole j f (s.bay b)) (hd : checkDue f = true)
    (h : Ready n (s.bay b) ∨ Underway n s.rackTime (s.bay b)) :
    Sole j f (t.bay b) ∧ (Ready n (t.bay b) ∨ Underway n t.rackTime (t.bay b)) := by
  rw [hw.time]
  refine hw.keeps (P := fun y => Sole j f y ∧ (Ready n y ∨ Underway n s.rackTime y)) ⟨hj, h⟩ fun y z hz hy => ?_
  obtain ⟨hSole, hState⟩ := hy
  refine ⟨(hz.sole hSole.mem hd hSole (not_isDrive_of_due hd) (hSole.not_endsBy hd)).1, ?_⟩
  exact hState.elim (fun h => hz.ready hSole hd h) fun h => .inr (hz.begun hSole hd h)

theorem Works.begun (hw : Works b s t) (hj : Sole j f (s.bay b)) (hd : checkDue f = true)
    (h : Underway n s.rackTime (s.bay b)) : Underway n t.rackTime (t.bay b) := by
  rw [hw.time]
  refine (hw.keeps (P := fun y => Sole j f y ∧ Underway n s.rackTime y) ⟨hj, h⟩ fun y z hz hy => ?_).2
  exact ⟨(hz.sole hy.1.mem hd hy.1 (not_isDrive_of_due hd) (hy.1.not_endsBy hd)).1, hz.begun hy.1 hd hy.2⟩

/-- The walker starts the step that nothing holds any more (R49). -/
theorem walk_begun (hj : Sole j f (s.bay b)) (hd : checkDue f = true)
    (h : Ready n (s.bay b) ∨ Underway n s.rackTime (s.bay b)) : Underway n (walk b s).rackTime ((walk b s).bay b) := by
  rcases h with h | h
  · obtain ⟨x, hx⟩ := Option.ne_none_iff_exists'.1 (h.next ▸ h.record)
    have hWalk : walk b s = walkSteps b 95 (startStep b s) := if_pos h.starts
    let z : BayState := { s.bay b with run := { (s.bay b).run with
      next := (s.bay b).run.next + 1, inFlight := (s.bay b).run.inFlight ++ [startEntry (s.bay b).run.next x s.rackTime] } }
    have hStart : BayWork s.rackTime (s.bay b) z := .starts x h.starts hx
    have hEntered : Works b s (stepBegun b x s) :=
      .one rfl hStart (bay_modRun ..) (modRun_calm _)
    have hBegun : Underway n (stepBegun b x s).rackTime ((stepBegun b x s).bay b) := by
      have hBay : (stepBegun b x s).bay b = z := bay_modRun ..
      rw [hBay]
      refine ⟨h.next ▸ Nat.lt_succ_self _, fun g hg hi => ?_,
        .inl ⟨_, List.mem_append_right _ (List.mem_singleton_self _), h.next⟩⟩
      rcases List.mem_append.1 hg with hg | hg
      · exact absurd hi (Nat.ne_of_lt (h.flight g hg))
      · rw [List.mem_singleton.1 hg]
        rfl
    have hBody : Works b (stepBegun b x s) (startStep b s) := by
      rw [startStep_some hx]
      refine startBody_works ⟨startEntry (s.bay b).run.next x s.rackTime, ?_, rfl, rfl⟩
      rw [stepBegun, bay_modRun]
      exact List.mem_append_right _ (List.mem_singleton_self _)
    rw [hWalk]
    exact (hBody.trans (walkSteps_works 95)).begun (hEntered.sole hj hd).1 hd hBegun
  · exact walk_works.begun hj hd h

theorem afterPrompts_begun (m : Nat) (hj : Sole j f (s.bay b)) (hd : checkDue f = true)
    (h : Ready n (s.bay b) ∨ Underway n s.rackTime (s.bay b)) :
    Underway n (afterPrompts b m s).rackTime ((afterPrompts b m s).bay b) := by
  have hQuiet : Underway n (walk b (pumpDisplay b s)).rackTime ((walk b (pumpDisplay b s)).bay b) := by
    obtain ⟨hSole, hState⟩ := pumpDisplay_works.readyOrBegun hj hd h
    exact walk_begun hSole hd hState
  cases m with
  | zero => exact hQuiet
  | succ m =>
    simp only [afterPrompts]
    split
    · exact hQuiet
    · have hWalk := walk_begun hj hd h
      split
      · exact hWalk
      · next q hq =>
        obtain ⟨hMem, hWaits⟩ := failingPrompt_some hq
        exact ((endPrompt_works hMem hWaits).trans (joinTest_works.trans (afterPrompts_works m))).begun
          (walk_works.sole hj hd).1 hd hWalk

/-- The walker's test follows an end, whatever else does (R49, R50). -/
theorem afterEnds_begun (hj : Sole j f (s.bay b)) (hd : checkDue f = true) (h : Ready n (s.bay b)) :
    Underway n (afterEnds b s).rackTime ((afterEnds b s).bay b) := by
  have hBefore : Works b s (pumpText b (joinTest b s)) := joinTest_works.trans pumpText_works
  obtain ⟨hSole, hState⟩ := hBefore.readyOrBegun hj hd (.inl h)
  exact failHeld_works.begun ((afterPrompts_works 4).sole hSole hd).1 hd (afterPrompts_begun 4 hSole hd hState)

/-- With one CHECK step due, it alone is among those that follow an end. -/
theorem dueBut_sole (hj : Sole j f y) (hd : checkDue f = true) (hij : i ≠ j)
    (hn : (y.run.inFlight.map fun e => e.index).Nodup)
    (hOnly : ∀ e ∈ y.run.inFlight, e.index ≠ j → checkDue e = false) : dueBut (some i) y.run = [f] := by
  have hMem : f ∈ dueBut (some i) y.run := mem_dueBut.2 ⟨hj.mem, hd, fun h => hij ((Option.some.inj h).trans hj.index)⟩
  have hOne (g : InFlight) (hg : g ∈ dueBut (some i) y.run) : g = f := by
    obtain ⟨hgMem, hgDue, -⟩ := mem_dueBut.1 hg
    refine hj.unique g hgMem (by_contra fun h => ?_)
    exact absurd ((hOnly g hgMem h).symm.trans hgDue) nofun
  have hNodup : (dueBut (some i) y.run).Nodup := (hn.of_map _).sublist List.filter_sublist
  exact List.perm_singleton.1 ((List.perm_ext_iff_of_nodup hNodup (List.nodup_singleton f)).2 fun g =>
    ⟨fun hg => List.mem_singleton.2 (hOne g hg), fun hg => List.mem_singleton.1 hg ▸ hMem⟩)

end

end Sys2Proof.Machine

namespace Sys2Proof.Machine

open Sys2Proof

section
variable {b : Bay} {s t u : State} {i j n : Nat} {e f : InFlight} {c x : CheckWork}

theorem dueOutcome_check (hw : e.work = .check c) : dueOutcome e = checkOutcome (c.probes.map decideProbe) := by
  simp only [dueOutcome, hw]
  rfl

/-- The end of a due CHECK step that is not failing is taken with another's, and the JOIN that waits on it follows. -/
theorem periodEnd_others (hd : ((s.bay b).run.inFlight.map fun e => e.index).Nodup) (hi : findInFlight (s.bay b).run i = some e)
    (hw : e.work = .check c) (hk : c.period ≤ c.k) (hj : Sole j f (s.bay b)) (hwj : f.work = .check x)
    (hx : checkDue f = true) (hij : i ≠ j) {h : Header} (hh : (s.bay b).run.copy.header = some h)
    (ho : ¬FailingOutcome h (checkOutcome (x.probes.map decideProbe))) :
    Ended b (checkResult f x s.rackTime) s (checkEnd b endedCheck i s) ∧
      ∀ k g, Sole k g (s.bay b) → g.work = .join (some f.tag) →
        (∀ y ∈ (s.bay b).run.inFlight, y.index ≠ j → y.index ≠ k → y.tag ≠ f.tag ∧ ∀ w, y.work ≠ .join w) →
        (∀ q ∈ (s.bay b).panel.prompts, q.step ≠ k) →
        Ended b (resultOf g .done .none s.rackTime) s (checkEnd b endedCheck i s) := by
  have hOver : endedCheck e = true := by simpa [endedCheck, hw, periodOver] using hk
  have hDue : checkDue e = true := (checkDue_iff hw).2 (.inl hk)
  have hStops : endStops (s.bay b).run j (dueOutcome f) = false := by
    rw [dueOutcome_check hwj]
    exact endStops_of_passing hh ho j
  have hTag : (decideEntry f).tag = f.tag := by rw [decideEntry_check hwj]
  have hWork : (decideEntry f).work = .check (decideCheck x) := by rw [decideEntry_check hwj]
  rw [checkEnd_over hi hOver]
  constructor
  · obtain ⟨u, hSole, -, hSteady, hMoves, hCarries, hRest⟩ :=
      checkTaken_other hi hw hDue hj hx hij hd hStops (keptWhileDue_trivial _ _ _) trivial
    have hEnd := nextCheck_ended hSole hWork
    rw [checkResult_decided hwj, hMoves.rackTime] at hEnd
    have hTaken : Moves none b u (nextCheck b j u) := nextCheck_moves j
    refine (hEnd.after ?_ hCarries hTaken.grows hRest).before hSteady.slot hSteady.lost hMoves
      (Moves.grows (hTaken.trans hRest))
    exact hj.index.trans_lt (Nat.lt_of_lt_of_le hSole.old (nextCheck_carries j).next)
  · intro k g hk hg hOthers hPrompts
    have hjk : j ≠ k := fun hEq => by
      subst hEq
      rw [hk.unique f hj.mem hj.index, hg] at hwj
      cases hwj
    have hWaits : JoinWaits j k (decideEntry f) g ((decideDue b (some i) s).bay b) := by
      have hSame : decideIn ((dueBut (some i) (s.bay b).run).map fun e => e.index) g = g := by
        unfold decideIn
        split
        · simp only [decideEntry, hg]
        · rfl
      have hMap := hk.map (z := (decideDue b (some i) s).bay b) (decideIn_index _) (by rw [decideDue_bay])
        (by rw [decideDue_bay])
      rw [hSame] at hMap
      refine ⟨hMap, fun y hy hyj hyk => ?_, by rw [decideDue_bay]; exact hPrompts⟩
      rw [decideDue_bay] at hy
      obtain ⟨y', hy', rfl⟩ := List.mem_map.1 hy
      rw [decideIn_index] at hyj hyk
      obtain ⟨hNot, hJoin⟩ := hOthers y' hy' hyj hyk
      rw [hTag]
      unfold decideIn decideEntry
      split
      · split
        · exact ⟨hNot, nofun⟩
        · exact ⟨hNot, hJoin⟩
      · exact ⟨hNot, hJoin⟩
    have hJoin : g.work = .join (some (decideEntry f).tag) := by rw [hTag, hg]
    obtain ⟨u, hSole, hKept, hSteady, hMoves, hCarries, hRest⟩ := checkTaken_other hi hw hDue hj hx hij hd hStops
      (joinWaits_kept _ hjk (checkDue_decideEntry hx) hJoin) hWaits
    have hPass : endStops (u.bay b).run j (checkOutcome (decideCheck (decideCheck x)).probes) = false := by
      rw [endStops_copy hSteady.copy, decideCheck_twice]
      exact endStops_of_passing hh ho j
    have hEnd := nextCheck_joinEnded hSole hWork hPass hjk hKept hJoin
    rw [hMoves.rackTime] at hEnd
    have hTaken : Moves none b u (nextCheck b j u) := nextCheck_moves j
    refine (hEnd.after ?_ hCarries hTaken.grows hRest).before hSteady.slot hSteady.lost hMoves (Moves.grows (hTaken.trans hRest))
    exact hk.index.trans_lt (Nat.lt_of_lt_of_le hKept.sole.old (nextCheck_carries j).next)

theorem letsNextStart_decideIn (l : List Nat) (g : InFlight) : letsNextStart (decideIn l g) = letsNextStart g := by
  unfold decideIn decideEntry
  split
  · split
    · next hw =>
      simp only [letsNextStart, hw]
    · rfl
  · rfl

/-- The end of a DWELL step that alone held the walker, with a due CHECK step that stops the run (R49, R56, R137). -/
theorem dwellEnd_before_stop (hn : (s.bay b).run.next = n) (hRuns : (s.bay b).phase = .running)
    (hLength : (s.bay b).run.inFlight.length ≤ 4) (hi : Sole i e (s.bay b)) (hw : e.work = .dwell 0)
    (hj : Sole j f (s.bay b)) (hwj : f.work = .check x) (hx : checkDue f = true) (hij : i ≠ j)
    (hFlight : ∀ g ∈ (s.bay b).run.inFlight, g.index < n ∧ (g.index ≠ i → g.overlap = true ∧ ∀ w, g.work ≠ .join w))
    (hd : ((s.bay b).run.inFlight.map fun e => e.index).Nodup) (hOnly : OnlyCheckDue b j s) {h : Header}
    (hStop : StopOnFail (s.bay b).run j h) (ho : FailingOutcome h (checkOutcome (x.probes.map decideProbe)))
    (hCount : n < h.stepCount) (hRecord : (s.bay b).run.copy.steps[n]? ≠ none) :
    Closed b .fail .stoppedOnFail j (dwellEnd b i s) ∧ Ended b (resultOf e .done .none s.rackTime) s (dwellEnd b i s) ∧
      Ended b (checkResult f x s.rackTime) s (dwellEnd b i s) ∧
      ∃ y ∈ ((dwellEnd b i s).bay b).run.results, y.index = n ∧ y.outcome ≠ .skipped ∧ y.start = s.rackTime := by
  have hStops : endStops (s.bay b).run j (dueOutcome f) = true := by
    rw [dueOutcome_check hwj]
    exact endStops_of_stopOnFail hStop ho
  have hDue := dueBut_sole hj hx hij hd hOnly
  have hPass : dueChecks (some i) false (s.bay b).run = [] := by simp [dueChecks, hDue, hj.index, hStops]
  have hStopping : dueChecks (some i) true (s.bay b).run = [j] := by simp [dueChecks, hDue, hj.index, hStops]
  have hOwn : Sole i e ((decideDue b (some i) s).bay b) := hi.undecided
  have hOther : Sole j (decideEntry f) ((decideDue b (some i) s).bay b) :=
    hj.decided hx fun hEq => hij (Option.some.inj hEq)
  have hSteady := decideDue_steady (b := b) (s := s) (some i)
  have hDecided : Moves none b s (decideDue b (some i) s) := decideDue_moves _
  have hDueF := checkDue_decideEntry hx
  have hTaken : dwellEnd b i s =
      nextCheck b j (afterEnds b (endStep b i .done .none (decideDue b (some i) s))) := by
    rw [dwellEnd_over hi.find hw, endWithChecks, endStops_done]
    simp only [Bool.false_and, Bool.false_eq_true, if_false, withChecks, hPass, hStopping, List.nil_append,
      takeChecks_cons, takeChecks_nil, endInFlight_found hOwn.find]
  have hGoes := endStep_goes (d := .none) hOwn.find (endStops_done ((decideDue b (some i) s).bay b).run i)
  obtain ⟨w, hLeft⟩ := stepLeft_bay (b := b) (s := decideDue b (some i) s)
    (resultOf e .done .none (decideDue b (some i) s).rackTime)
  rw [← hGoes] at hLeft
  generalize hv : endStep b i .done .none (decideDue b (some i) s) = v at hTaken hLeft
  have hFlightV : (v.bay b).run.inFlight = ((decideDue b (some i) s).bay b).run.inFlight.filter fun g => g.index ≠ i := by
    rw [hLeft, ← hi.index]
    rfl
  have hNextV : (v.bay b).run.next = n := by
    rw [hLeft, decideDue_bay]
    exact hn
  have hCopyV : (v.bay b).run.copy = (s.bay b).run.copy := by
    rw [hLeft]
    exact hSteady.copy
  have hMovesV : Moves none b (decideDue b (some i) s) v := hv ▸ endStep_moves ..
  have hMoves : Moves none b s v := hDecided.trans hMovesV
  have hSoleV : Sole j (decideEntry f) (v.bay b) := hOther.filter hij hFlightV (by rw [hNextV, decideDue_bay]; exact hn.le)
  have hEntry {g : InFlight} (hg : g ∈ (v.bay b).run.inFlight) : g.index < n ∧ letsNextStart g = true := by
    rw [hFlightV, decideDue_bay] at hg
    obtain ⟨hMem, hIndex⟩ := List.mem_filter.1 hg
    obtain ⟨g', hg', rfl⟩ := List.mem_map.1 hMem
    rw [decideIn_index] at hIndex ⊢
    obtain ⟨hOld, hLets⟩ := hFlight g' hg'
    obtain ⟨hOverlap, hNoJoin⟩ := hLets (by simpa using hIndex)
    rw [letsNextStart_decideIn]
    exact ⟨hOld, by simp only [letsNextStart, hOverlap, Bool.true_and]⟩
  have hRoom : (v.bay b).run.inFlight.length < 4 := by
    have hShort : (v.bay b).run.inFlight.length < ((decideDue b (some i) s).bay b).run.inFlight.length := by
      rw [hFlightV]
      exact List.length_filter_lt_length_iff_exists.2 ⟨e, hOwn.mem, by simp [hi.index]⟩
    rw [decideDue_bay, List.length_map] at hShort
    omega
  obtain ⟨hh, h1, h2, hRest⟩ := hStop
  have hReady : Ready n (v.bay b) := by
    refine ⟨hNextV, canStart_iff.2 ⟨?_, ?_, hRoom, List.all_eq_true.2 fun g hg => (hEntry hg).2⟩, hCopyV ▸ hRecord,
      fun g hg => (hEntry hg).1⟩
    · rw [hLeft, decideDue_bay]
      exact hRuns
    · simpa [hNextV, stepCount, hCopyV, hh, stepCountValid, h1, h2] using hCount
  have hUnderway := afterEnds_begun hSoleV hDueF hReady
  obtain ⟨hSoleW, hSteadyW⟩ := (afterEnds_works (b := b) (s := v)).sole hSoleV hDueF
  have hTimeW : (afterEnds b v).rackTime = s.rackTime := Moves.rackTime (hMoves.trans afterEnds_moves)
  have hWork : (decideEntry f).work = .check (decideCheck x) := by rw [decideEntry_check hwj]
  have hProbes : (decideCheck x).probes.map decideProbe = x.probes.map decideProbe :=
    congrArg CheckWork.probes (decideCheck_twice x)
  have hStopW : StopOnFail ((afterEnds b v).bay b).run j h := by
    unfold StopOnFail
    rw [hSteadyW.copy, hCopyV]
    exact ⟨hh, h1, h2, hRest⟩
  have hStopped := endCheck_stops hSoleW.find hWork hStopW (hProbes ▸ ho)
  have hLast : nextCheck b j (afterEnds b v) = afterEnds b (endCheck b j (afterEnds b v)) := by
    simp only [nextCheck, hSoleW.find]
  have hAll := hStopped.asks (Over.of_closed hStopped.1).afterEnds_asks
  rw [← hLast, ← hTaken] at hAll
  have hMovesW : Moves none b s (afterEnds b v) := hMoves.trans afterEnds_moves
  have hTakenMoves : Moves none b (afterEnds b v) (dwellEnd b i s) := hTaken ▸ nextCheck_moves j
  have hTakenCarries : CarriesOn b (afterEnds b v) (dwellEnd b i s) := hTaken ▸ nextCheck_carries j
  obtain ⟨hClosed, -, hCut, -⟩ := hAll
  refine ⟨hClosed, ?_, ?_, ?_⟩
  · have hEnd : Ended b (resultOf e .done .none s.rackTime) (decideDue b (some i) s) v := by
      rw [← hDecided.rackTime, ← hv]
      exact endStep_ended hOwn.find
    refine (hEnd.after ?_ (afterEnds_carries.trans hTakenCarries) hMovesV.grows (afterEnds_moves.trans hTakenMoves)).before
      hSteady.slot hSteady.lost hDecided (Moves.grows (hMovesV.trans (afterEnds_moves.trans hTakenMoves)))
    rw [hNextV]
    exact hn ▸ hi.index.trans_lt hi.old
  · have hEnd := nextCheck_ended hSoleW hWork
    rw [checkResult_decided hwj, hTimeW, ← hTaken] at hEnd
    refine hEnd.before ?_ ?_ hMovesW hTakenMoves.grows
    · rw [hSteadyW.slot, hLeft, decideDue_bay]
      rfl
    · rw [hSteadyW.lost, hLeft, decideDue_bay]
      rfl
  · rcases hUnderway.stands with ⟨g, hg, hgn⟩ | ⟨y, hy, hyn, hOutcome, hStart⟩
    · have hgj : g.index ≠ j := by
        have hOld := hj.old
        omega
      refine ⟨_, hCut g hg hgj, hgn, nofun, ?_⟩
      exact (hUnderway.start g hg hgn).trans hTimeW
    · exact ⟨y, hTakenCarries.results.subset hy, hyn, hOutcome, hStart.trans hTimeW⟩

/-- Settles O27, by the command that takes the end and, of several ends, by their order. -/
theorem checkStepEnds : Obligations.CheckStepEnds := by
  refine ⟨fun s b i hs => ⟨fun hf => ?_, fun e hf hw => ?_, fun e hf c hw => ⟨fun hp => ?_, fun hk => ?_,
    fun hi hd => ?_⟩⟩, fun s b i o d hs e hf c hw => ⟨fun h => ?_, fun hk hi hd ho hDetail => ?_⟩, ?_, ?_⟩
  · have hNone (test : InFlight → Bool) : checkEnd b test i s = s := checkEnd_idle fun e he => by simp [hf] at he
    exact ⟨(exec_up hs rfl).trans (congrArg _ (hNone _)), (exec_up hs rfl).trans (congrArg _ (hNone _))⟩
  · constructor
    · refine (exec_up hs rfl).trans (congrArg _ (checkEnd_idle fun e' he => ?_))
      obtain rfl := Option.some.inj (hf.symm.trans he)
      unfold decidedCheck
      split
      · next c h => exact absurd h (hw c)
      · rfl
    · refine (exec_up hs rfl).trans (congrArg _ (checkEnd_idle fun e' he => ?_))
      obtain rfl := Option.some.inj (hf.symm.trans he)
      unfold endedCheck
      split
      · next c h => exact absurd h (hw c)
      · rfl
  · refine (exec_up hs rfl).trans (congrArg _ (checkEnd_idle fun e' he => ?_))
    obtain rfl := Option.some.inj (hf.symm.trans he)
    simpa [decidedCheck, hw, allDecided] using hp
  · refine (exec_up hs rfl).trans (congrArg _ (checkEnd_idle fun e' he => ?_))
    obtain rfl := Option.some.inj (hf.symm.trans he)
    simpa [endedCheck, hw, periodOver] using hk
  · have hSole : Sole i e (s.bay b) := .of_find hf hi hd
    obtain rfl := hSole.index
    refine ⟨fun hp => ⟨_, exec_up hs rfl, ?_⟩, fun hk => ⟨_, exec_up hs rfl, ?_⟩, fun hk ht => ⟨_, exec_up hs rfl, ?_⟩⟩
    · have hOver : decidedCheck e = true := by simpa [decidedCheck, hw, allDecided] using hp
      have hEnd := checkTaken_own hSole hw ((checkDue_iff hw).2 (.inr hp)) hd
        (endStops (s.bay b).run e.index (dueOutcome e))
      rw [checkResult, map_decideProbe_decided hp] at hEnd
      rw [checkEnd_over hf hOver]
      exact hEnd
    · have hOver : endedCheck e = true := by simpa [endedCheck, hw, periodOver] using hk
      rw [checkEnd_over hf hOver]
      exact checkTaken_own hSole hw ((checkDue_iff hw).2 (.inl hk)) hd _
    · have hEnd := timeoutTaken_own hSole hw ((checkDue_iff hw).2 hk) hd ht
      rw [resultOf, hw] at hEnd
      exact hEnd
  · have hNot : dueEnd (s.bay b) e ≠ some (o, d) := fun hEq => by
      rw [dueEnd_check hw] at hEq
      split at hEq
      · next hDue =>
        obtain ⟨rfl, rfl⟩ := Prod.mk.inj (Option.some.inj hEq)
        rcases h with ⟨hk, p, hp, hPending⟩ | h | h
        · rcases (checkDue_iff hw).1 hDue with h' | h'
          · omega
          · exact h' p hp hPending
        · exact h (dueOutcome_check hw)
        · exact h rfl
      · cases hEq
    refine (exec_up hs rfl).trans (congrArg _ ?_)
    simp only [blockReport, hf, if_neg hNot]
  · have hSole : Sole i e (s.bay b) := .of_find hf hi hd
    have hDue : checkDue e = true := (checkDue_iff hw).2 hk
    have hEq : dueEnd (s.bay b) e = some (o, d) := by
      rw [dueEnd_check hw, if_pos hDue, dueOutcome_check hw, ho, hDetail]
    have hReport : blockReport b i o d s = withChecks b (some i) (endStops (s.bay b).run i (dueOutcome e)) (endCheck b i) s := by
      simp only [blockReport, hf, if_pos hEq, hw, isCheck, if_true, checkEnd_over hf hDue]
    have hEnd := checkTaken_own hSole hw hDue hd (endStops (s.bay b).run i (dueOutcome e))
    rw [← hReport] at hEnd
    rw [ho, hDetail] at *
    obtain rfl := hSole.index
    exact ⟨_, exec_up hs rfl, hEnd⟩
  · intro s b i j n hs hij hn hi hj hRuns hLength hFlight hd e he hw f hf x hwj hx hOnly h hStop ho hCount hRecord _
    have hSole : Sole i e (s.bay b) := .of_find he (hn ▸ hi) hd
    have hOther : Sole j f (s.bay b) := .of_find hf (hn ▸ hj) hd
    refine ⟨_, exec_up hs rfl, ?_⟩
    have hAll := dwellEnd_before_stop hn hRuns hLength hSole hw hOther hwj ((checkDue_iff hwj).2 (.inl hx)) hij hFlight hd
      hOnly hStop ho hCount hRecord
    rw [resultOf_no_check (by rw [hw]; rfl) hSole.index, checkResult, hOther.index] at hAll
    exact hAll
  · intro s b i j hs hij hj hd e he c hw hk f hf x hwj hx h hh ho
    have hOther : Sole j f (s.bay b) := .of_find hf hj hd
    obtain ⟨hEnd, hJoins⟩ := periodEnd_others hd he hw hk hOther hwj ((checkDue_iff hwj).2 hx) hij hh ho
    rw [checkResult, hOther.index] at hEnd
    refine ⟨_, exec_up hs rfl, hEnd, fun k hk g hg hJoin hOthers hPrompts => ?_⟩
    have hSole : Sole k g (s.bay b) := .of_find hg hk hd
    rw [← resultOf_no_check (by rw [hJoin]; rfl) hSole.index]
    exact hJoins k g hSole hJoin hOthers hPrompts

end

end Sys2Proof.Machine

namespace Sys2Proof.Machine

open Sys2Proof

/-! ## What a conversion of the outputs changes (R78, R79, R81, R83) -/

/-- A change of clamped flags alone. -/
def FlagsOnly (F : InFlight → InFlight) : Prop := ∀ e, F e = { e with clamped := (F e).clamped }

theorem FlagsOnly.id : FlagsOnly id := fun _ => rfl

theorem FlagsOnly.comp {F G : InFlight → InFlight} (hG : FlagsOnly G) (hF : FlagsOnly F) : FlagsOnly (G ∘ F) := fun e => by
  rw [Function.comp_apply, hG (F e)]
  exact congrArg (fun g : InFlight => { g with clamped := (G (F e)).clamped }) (hF e)

theorem flagsOnly_flagEntry (i p : Nat) : FlagsOnly fun e => if e.index = i then flagEntry p e else e := fun e => by
  dsimp only
  split
  · unfold flagEntry
    split <;> rfl
  · rfl

/-- A stimulus unit after conversions: outputs, frequencies and clamped flags may be new. -/
structure StimConverts (u v : Stimulus) : Prop where
  setup : v.setup = u.setup
  values : v.values = u.values
  lines : v.lines = u.lines
  lineOut : v.lineOut = u.lineOut
  safe : v.safe = u.safe
  forms : v.forms = u.forms
  stopped : v.stopped = u.stopped
  actions : ∀ c : Fin 14, v.actions[c] = u.actions[c] ∨
    ∃ a, u.actions[c] = some a ∧ v.actions[c] = some { a with clamped := true }

theorem StimConverts.refl (u : Stimulus) : StimConverts u u := ⟨rfl, rfl, rfl, rfl, rfl, rfl, rfl, fun _ => .inl rfl⟩

theorem StimConverts.trans {u v w : Stimulus} (h : StimConverts u v) (g : StimConverts v w) : StimConverts u w where
  setup := g.setup.trans h.setup
  values := g.values.trans h.values
  lines := g.lines.trans h.lines
  lineOut := g.lineOut.trans h.lineOut
  safe := g.safe.trans h.safe
  forms := g.forms.trans h.forms
  stopped := g.stopped.trans h.stopped
  actions c := by
    rcases g.actions c with hg | ⟨a, ha, hg⟩
    · rw [hg]
      exact h.actions c
    · rw [hg]
      rcases h.actions c with hh | ⟨a', ha', hh⟩
      · exact .inr ⟨a, hh ▸ ha, rfl⟩
      · obtain rfl := Option.some.inj (ha.symm.trans hh)
        exact .inr ⟨a', ha', rfl⟩

/-- A bay's outputs converted. -/
structure Converts (b : Bay) (s t : State) : Prop where
  time : t.rackTime = s.rackTime
  bay : ∃ u F, FlagsOnly F ∧ StimConverts (s.bay b).stim u ∧
    t.bay b = { s.bay b with stim := u, run := { (s.bay b).run with inFlight := (s.bay b).run.inFlight.map F } }

section
variable {b : Bay} {s t w : State}

theorem Converts.refl (b : Bay) (s : State) : Converts b s s :=
  ⟨rfl, (s.bay b).stim, id, .id, .refl _, by rw [List.map_id]⟩

theorem Converts.trans (h : Converts b s t) (g : Converts b t w) : Converts b s w := by
  obtain ⟨ht, u, F, hF, hu, hb⟩ := h
  obtain ⟨ht', u', G, hG, hu', hb'⟩ := g
  rw [hb] at hu' hb'
  refine ⟨ht'.trans ht, u', G ∘ F, hG.comp hF, hu.trans hu', ?_⟩
  rw [hb', ← List.map_map]

theorem modStim_converts {f : Stimulus → Stimulus} (h : StimConverts (s.bay b).stim (f (s.bay b).stim)) :
    Converts b s (s.modStim b f) :=
  ⟨rfl, _, id, .id, h, by rw [bay_modStim, List.map_id]⟩

theorem flagClamped_converts (c : Fin 14) : Converts b s (flagClamped b c s) := by
  unfold flagClamped
  split
  · exact .refl b s
  · next a ha =>
    refine ⟨rfl, { (s.bay b).stim with actions := tabSet (s.bay b).stim.actions c (some { a with clamped := true }) },
      _, flagsOnly_flagEntry a.step a.position, ⟨rfl, rfl, rfl, rfl, rfl, rfl, rfl, fun d => ?_⟩, ?_⟩
    · by_cases hd : d = c
      · subst hd
        exact .inr ⟨a, ha, getElem_tabSet_self ..⟩
      · exact .inl ((getElem_tabSet ..).trans (if_neg (Ne.symm hd)))
    · rw [State.modInFlight, bay_modRun, bay_modStim]

theorem setLevel_converts (i : Fin 4) : Converts b s (setLevel b i s) := by
  have hOut (o : LevelOut) : Converts b s (s.modStim b fun u => { u with levelOut := tabSet u.levelOut i o }) :=
    modStim_converts ⟨rfl, rfl, rfl, rfl, rfl, rfl, rfl, fun _ => .inl rfl⟩
  simp only [setLevel]
  split
  · exact hOut _
  · split
    · exact hOut _
    · exact hOut _
    · have hNew (o : LevelOut) (j : Option Nat) : Converts b s (s.modStim b fun u =>
          { u with levelOut := tabSet u.levelOut i o, stair := tabSet u.stair i j }) :=
        modStim_converts ⟨rfl, rfl, rfl, rfl, rfl, rfl, rfl, fun _ => .inl rfl⟩
      split
      · exact (hNew _ _).trans (flagClamped_converts _)
      · exact hNew _ _

theorem setLevels_converts : Converts b s (forAll (indices 4) (setLevel b) s) :=
  forAll_keeps (P := fun t => Converts b s t) _ _ _ (.refl b s) fun i _ _ h => h.trans (setLevel_converts i)

end

end Sys2Proof.Machine

namespace Sys2Proof.Machine

open Sys2Proof

/-! ## The start of a DRIVE action (R53, R68, R74, R76) -/

theorem clampNat_eq {lo hi : Nat} (h : lo ≤ hi) (v : Nat) : clampNat lo hi v = max lo (min hi v) := by
  unfold clampNat
  split
  · omega
  · split <;> omega

/-- The clamped flag of a new action in its step's entry (R61, R68). -/
def clampEntry (x : Action) (p : Nat) (e : InFlight) : InFlight :=
  { e with clamped := if x.clamped then e.clamped ||| BitVec.ofNat 4 (2 ^ p) else e.clamped }

/-- The entry of a step of which an action has ended at its start. -/
def endedEntry (x : Action) (p : Nat) (e : InFlight) : InFlight :=
  finishAction p true { clampEntry x p e with early := e.early || !x.older.isEmpty }

theorem changeEntry_changeEntry {f g : InFlight → InFlight} (hg : ∀ e, (g e).index = e.index) (i : Nat) (l : List InFlight) :
    changeEntry i f (changeEntry i g l) = changeEntry i (fun e => f (g e)) l := by
  simp only [changeEntry, List.map_map]
  refine List.map_congr_left fun e _ => ?_
  by_cases h : e.index = i <;> simp [h, hg]

theorem changeEntry_self (i : Nat) {f : InFlight → InFlight} (hf : ∀ e, f e = e) (l : List InFlight) : changeEntry i f l = l := by
  simp [changeEntry, hf]

theorem clampEntry_of_not_clamped {x : Action} (h : x.clamped = false) (p : Nat) (e : InFlight) : clampEntry x p e = e := by
  simp [clampEntry, h]

section
variable {b : Bay} {s t : State} {i j : Nat} {a : DriveAction} {x : Action} {c d : Fin 14} {e : InFlight} {old : Action}

theorem setForm_actions (c : Fin 14) (k : ActKind) (u : Stimulus) : (setForm c k u).actions = u.actions := by
  unfold setForm
  split
  · rfl
  · split <;> rfl

theorem levelOf_level {l : Fin 4} (h : l.1 + 2 = c.1) : levelOf c = some l := by
  unfold levelOf
  rw [dif_pos (by omega)]
  exact congrArg some (Fin.ext (by simp only; omega))

theorem eq_of_levelOf {l : Fin 4} (h : levelOf c = some l) : l.1 + 2 = c.1 := by
  unfold levelOf at h
  split at h
  · obtain rfl := Option.some.inj h
    simp only
    omega
  · cases h

/-- The form of the level channel that an action drives (R68, R83). -/
theorem setForm_own {l : Fin 4} (h : l.1 + 2 = c.1) (k : ActKind) (u : Stimulus) :
    (setForm c k u).forms[l] = (match k with | .value => .converted | .opened => .opened | .shorted => .shorted) ∧
      (setForm c k u).stair[l] = (match k with | .value => u.stair[l] | .opened | .shorted => none) := by
  simp only [setForm, levelOf_level h]
  cases k with
  | value => exact ⟨getElem_tabSet_self .., rfl⟩
  | opened => exact ⟨getElem_tabSet_self .., getElem_tabSet_self ..⟩
  | shorted => exact ⟨getElem_tabSet_self .., getElem_tabSet_self ..⟩

theorem setForm_other {l : Fin 4} (h : l.1 + 2 ≠ c.1) (k : ActKind) (u : Stimulus) :
    (setForm c k u).forms[l] = u.forms[l] ∧ (setForm c k u).stair[l] = u.stair[l] := by
  unfold setForm
  split
  · exact ⟨rfl, rfl⟩
  · next m hm =>
    have hml : m ≠ l := fun hEq => h (hEq ▸ eq_of_levelOf hm)
    cases k with
    | value => exact ⟨(getElem_tabSet ..).trans (if_neg hml), rfl⟩
    | opened => exact ⟨(getElem_tabSet ..).trans (if_neg hml), (getElem_tabSet ..).trans (if_neg hml)⟩
    | shorted => exact ⟨(getElem_tabSet ..).trans (if_neg hml), (getElem_tabSet ..).trans (if_neg hml)⟩

/-! ### The older action -/

theorem olderEnded_none (h : (s.bay b).stim.actions[c] = none) : olderEnded b c s = s := by simp only [olderEnded, h]

theorem olderEnded_some (h : (s.bay b).stim.actions[c] = some old) : olderEnded b c s = s.modBay b fun y => { y with
    stim := { y.stim with actions := tabSet y.stim.actions c none }
    run := { y.run with
      claims := tabSet y.run.claims c none
      inFlight := changeEntry old.step (finishAction old.position old.reached) y.run.inFlight } } := by
  simp only [olderEnded, h]
  exact endAction_some h _

/-- The channel is free of actions; the rest of the stimulus unit stays. -/
theorem olderEnded_stim : ∃ t : Vector (Option Action) 14, ((olderEnded b c s).bay b).stim = { (s.bay b).stim with actions := t } ∧
    t[c] = none ∧ ∀ d : Fin 14, d ≠ c → t[d] = (s.bay b).stim.actions[d] := by
  cases h : (s.bay b).stim.actions[c] with
  | none => exact ⟨(s.bay b).stim.actions, by rw [olderEnded_none h], h, fun _ _ => rfl⟩
  | some old =>
    refine ⟨tabSet (s.bay b).stim.actions c none, by rw [olderEnded_some h, bay_modBay], getElem_tabSet_self .., fun d hd => ?_⟩
    exact (getElem_tabSet ..).trans (if_neg hd.symm)

theorem olderEnded_claims : ((s.bay b).stim.actions[c] ≠ none ∨ (s.bay b).run.claims[c] = none →
      ((olderEnded b c s).bay b).run.claims[c] = none) ∧
    ∀ d : Fin 14, d ≠ c → ((olderEnded b c s).bay b).run.claims[d] = (s.bay b).run.claims[d] := by
  cases h : (s.bay b).stim.actions[c] with
  | none =>
    rw [olderEnded_none h]
    exact ⟨fun hc => hc.resolve_left fun hn => hn rfl, fun _ _ => rfl⟩
  | some old =>
    rw [olderEnded_some h, bay_modBay]
    exact ⟨fun _ => getElem_tabSet_self .., fun d hd => (getElem_tabSet ..).trans (if_neg hd.symm)⟩

theorem olderEnded_find_old (h : (s.bay b).stim.actions[c] = some old) :
    findInFlight ((olderEnded b c s).bay b).run old.step =
      (findInFlight (s.bay b).run old.step).map (finishAction old.position old.reached) := by
  rw [olderEnded_some h, bay_modBay]
  exact find_changeEntry_self (finishAction_index _ _) { (s.bay b).run with
    claims := tabSet (s.bay b).run.claims c none } old.step

theorem olderEnded_find_other (h : ∀ old, (s.bay b).stim.actions[c] = some old → old.step ≠ i) :
    findInFlight ((olderEnded b c s).bay b).run i = findInFlight (s.bay b).run i := by
  cases ha : (s.bay b).stim.actions[c] with
  | none => rw [olderEnded_none ha]
  | some old =>
    rw [olderEnded_some ha, bay_modBay]
    exact find_changeEntry_other (finishAction_index _ _) { (s.bay b).run with
      claims := tabSet (s.bay b).run.claims c none } (h old ha).symm

/-! ### The new action -/

theorem flagNew_bay (i : Nat) (p : Nat) : (if x.clamped then s.modInFlight b i fun e =>
      { e with clamped := e.clamped ||| BitVec.ofNat 4 (2 ^ p) } else s).bay b =
    { s.bay b with run := { (s.bay b).run with inFlight := changeEntry i (clampEntry x p) (s.bay b).run.inFlight } } := by
  cases hx : x.clamped with
  | true =>
    have hClamp : clampEntry x p = fun e => { e with clamped := e.clamped ||| BitVec.ofNat 4 (2 ^ p) } := by
      funext e
      simp [clampEntry, hx]
    rw [if_pos rfl, State.modInFlight, bay_modRun, hClamp]
    rfl
  | false =>
    rw [if_neg Bool.false_ne_true, changeEntry_self i (clampEntry_of_not_clamped hx p)]

/-- The bay with a new action in force. -/
theorem actionStarted_inForce (h : endsAtStart x = false) : (actionStarted b i a x s).bay b = { s.bay b with
    stim := { setForm a.channel a.kind (s.bay b).stim with
      actions := tabSet (setForm a.channel a.kind (s.bay b).stim).actions a.channel (some x) }
    run := { (s.bay b).run with
      claims := tabSet (s.bay b).run.claims a.channel (some (i, a.position))
      inFlight := changeEntry i (clampEntry x a.position) (s.bay b).run.inFlight } } := by
  simp only [actionStarted, h, Bool.false_eq_true, if_false]
  rw [bay_modRun, bay_modStim, flagNew_bay, bay_modStim]

/-- The bay with a new action that has ended at its start. -/
theorem actionStarted_ended (h : endsAtStart x = true) : (actionStarted b i a x s).bay b = { s.bay b with
    stim := setForm a.channel a.kind (s.bay b).stim
    run := { (s.bay b).run with inFlight := changeEntry i (endedEntry x a.position) (s.bay b).run.inFlight } } := by
  have hEntry := changeEntry_changeEntry (f := fun e => finishAction a.position true
    { e with early := e.early || !x.older.isEmpty }) (g := clampEntry x a.position) (fun _ => rfl) i (s.bay b).run.inFlight
  simp only [actionStarted, h, if_true, State.modInFlight]
  rw [bay_modRun]
  have hFlag := flagNew_bay (b := b) (s := s.modStim b (setForm a.channel a.kind)) (x := x) i a.position
  simp only [State.modInFlight] at hFlag
  rw [hFlag, bay_modStim]
  exact congrArg (fun l => { s.bay b with
    stim := setForm a.channel a.kind (s.bay b).stim, run := { (s.bay b).run with inFlight := l } }) hEntry

theorem clampEntry_index (x : Action) (p : Nat) (e : InFlight) : (clampEntry x p e).index = e.index := rfl

theorem endedEntry_index (x : Action) (p : Nat) (e : InFlight) : (endedEntry x p e).index = e.index := finishAction_index ..

theorem endedEntry_drive {left : List Nat} {any : Bool} (hw : e.work = .drive left any) (x : Action) (p : Nat) :
    endedEntry x p e = { e with
      early := e.early || !x.older.isEmpty
      clamped := if x.clamped then e.clamped ||| BitVec.ofNat 4 (2 ^ p) else e.clamped
      work := .drive (left.filter fun q => q ≠ p) true } := by
  have hDrive : ({ clampEntry x p e with early := e.early || !x.older.isEmpty } : InFlight).work = .drive left any := hw
  rw [endedEntry, finishAction_drive hDrive, Bool.or_true]
  rfl

theorem actionStarted_stim : ∃ t : Vector (Option Action) 14,
    ((actionStarted b i a x s).bay b).stim = { setForm a.channel a.kind (s.bay b).stim with actions := t } ∧
      ∀ d : Fin 14, d ≠ a.channel → t[d] = (s.bay b).stim.actions[d] := by
  have hForm := setForm_actions a.channel a.kind (s.bay b).stim
  cases h : endsAtStart x with
  | true => exact ⟨(s.bay b).stim.actions, by rw [actionStarted_ended h, ← hForm], fun _ _ => rfl⟩
  | false =>
    refine ⟨tabSet (setForm a.channel a.kind (s.bay b).stim).actions a.channel (some x), by rw [actionStarted_inForce h],
      fun d hd => ?_⟩
    exact ((getElem_tabSet ..).trans (if_neg hd.symm)).trans (by rw [hForm])

theorem actionStarted_claims {d : Fin 14} (hd : d ≠ a.channel) :
    ((actionStarted b i a x s).bay b).run.claims[d] = (s.bay b).run.claims[d] := by
  cases h : endsAtStart x with
  | true => rw [actionStarted_ended h]
  | false =>
    rw [actionStarted_inForce h]
    exact (getElem_tabSet ..).trans (if_neg hd.symm)

theorem actionStarted_find_other (hj : j ≠ i) :
    findInFlight ((actionStarted b i a x s).bay b).run j = findInFlight (s.bay b).run j := by
  cases h : endsAtStart x with
  | true =>
    rw [actionStarted_ended h]
    exact find_changeEntry_other (endedEntry_index _ _) (s.bay b).run hj
  | false =>
    rw [actionStarted_inForce h]
    exact find_changeEntry_other (clampEntry_index _ _) { (s.bay b).run with
      claims := tabSet (s.bay b).run.claims a.channel (some (i, a.position)) } hj

/-! ### The action that a DRIVE step puts in force -/

theorem shapeInRange_fst (k : ActKind) (sh : Shape) : (shapeInRange k sh).1 =
    (match k, sh with
    | .value, .timed d => .timed (max 1 (min 600000 d))
    | .value, .rate r => .rate (max 1 (min 1000000000 r))
    | _, x => x) := by
  cases k <;> cases sh <;> simp [shapeInRange, clampNat_eq]

theorem shapeInRange_snd (k : ActKind) (sh : Shape) : (shapeInRange k sh).2 =
    (decide (k = .value) && decide ((shapeInRange k sh).1 ≠ sh)) := by
  cases k <;> cases sh <;> simp [shapeInRange]

theorem makeAction_eq (i : Nat) (a : DriveAction) (u : Stimulus) {v0 v1 : Int} {sh : Shape} {clamped : Bool}
    (h0 : v0 = u.values[a.channel])
    (h1 : v1 = (match a.kind with
      | .value => clampTo u.setup.ranges[a.channel].min u.setup.ranges[a.channel].max a.target
      | .opened | .shorted => v0))
    (hsh : sh = (match a.kind, a.shape with
      | .value, .timed d => .timed (max 1 (min 600000 d))
      | .value, .rate r => .rate (max 1 (min 1000000000 r))
      | _, x => x))
    (hc : clamped = (decide (a.kind = .value) && (decide (v1 ≠ a.target) || decide (sh ≠ a.shape)))) :
    makeAction i a u = ⟨i, a.position, a.kind, sh, v0, v1, 0, clamped, false, []⟩ := by
  have hShape : (shapeInRange a.kind a.shape).1 = sh := (shapeInRange_fst ..).trans hsh.symm
  have hFlag : (shapeInRange a.kind a.shape).2 = (decide (a.kind = .value) && decide (sh ≠ a.shape)) :=
    hShape ▸ shapeInRange_snd ..
  rw [hc, h1]
  simp only [makeAction, hShape, hFlag, ← h0, Bool.and_or_distrib_left] <;> rfl

theorem endsAtStart_false {x : Action} (h : x.kind ≠ .value ∨ x.shape = .step ∨ x.v1 ≠ x.v0) : endsAtStart x = false := by
  unfold endsAtStart
  split
  · next hk hs =>
    rcases h with h | h | h
    · exact absurd hk h
    · exact absurd (hs.symm.trans h) nofun
    · simpa using h.symm
  · next hk hs =>
    rcases h with h | h | h
    · exact absurd hk h
    · exact absurd (hs.symm.trans h) nofun
    · simpa using h.symm
  · rfl

theorem endsAtStart_true {x : Action} (hk : x.kind = .value) (hs : x.shape ≠ .step) (hv : x.v1 = x.v0) :
    endsAtStart x = true := by
  unfold endsAtStart
  rw [hk]
  cases hShape : x.shape with
  | step => exact absurd hShape hs
  | timed d => simpa using hv.symm
  | rate r => simpa using hv.symm

theorem handedOver_eq (y : BayState) (c : Fin 14) : handedOver y c =
    (match y.stim.actions[c] with
    | none => []
    | some old =>
      match old.reached, findInFlight y.run old.step with
      | false, some e => ⟨old.step, e.start, e.early, (nextValue old y.stim.values[c]).1⟩ :: old.older
      | _, _ => []) := by
  unfold handedOver
  split
  · next h => simp only [h]
  · next old h =>
    simp only [h]
    cases old.reached <;> cases findInFlight y.run old.step <;> rfl

/-- Settles O30, by whether the new action ends at its start. -/
theorem driveActionClaimsItsChannel : Obligations.DriveActionClaimsItsChannel := by
  intro s b i a v0 v1 sh clamped older h0 h1 hsh hc hOlder
  obtain ⟨ended, hStim, hFree, hKept⟩ := olderEnded_stim (b := b) (s := s) (c := a.channel)
  obtain ⟨hClaim, hClaims⟩ := olderEnded_claims (b := b) (s := s) (c := a.channel)
  have hx : ({ makeAction i a ((olderEnded b a.channel s).bay b).stim with older := handedOver (s.bay b) a.channel } : Action) =
      ⟨i, a.position, a.kind, sh, v0, v1, 0, clamped, false, older⟩ := by
    rw [hStim, makeAction_eq i a { (s.bay b).stim with actions := ended } h0 h1 hsh hc, handedOver_eq, hOlder, ← h0] <;> rfl
  rw [startAction_eq, hx]
  generalize hX : (⟨i, a.position, a.kind, sh, v0, v1, 0, clamped, false, older⟩ : Action) = x
  obtain ⟨actions, hStim', hActions⟩ := actionStarted_stim (b := b) (s := olderEnded b a.channel s) (i := i) (a := a) (x := x)
  rw [hStim] at hStim' hActions
  refine ⟨fun hKind => ?_, fun hKind hShape hValue => ?_, fun l hl => ?_, fun l hl => ?_, fun c hne => ⟨?_, ?_⟩, ?_,
    fun old hOld hStep e he left any hw => ?_⟩
  · have hInForce : endsAtStart x = false := by
      rw [← hX]
      refine endsAtStart_false (hKind.imp_right (Or.imp_left fun h => ?_))
      rw [hsh, h]
      cases a.kind <;> rfl
    rw [actionStarted_inForce hInForce]
    refine ⟨getElem_tabSet_self .., getElem_tabSet_self .., fun e he hOthers => ?_⟩
    have hFind := (olderEnded_find_other hOthers).trans he
    refine (find_changeEntry_self (clampEntry_index x a.position) { ((olderEnded b a.channel s).bay b).run with
      claims := tabSet ((olderEnded b a.channel s).bay b).run.claims a.channel (some (i, a.position)) } i).trans ?_
    rw [show findInFlight { ((olderEnded b a.channel s).bay b).run with
      claims := tabSet ((olderEnded b a.channel s).bay b).run.claims a.channel (some (i, a.position)) } i = some e from hFind,
      ← hX]
    rfl
  · have hEnded : endsAtStart x = true := by
      rw [← hX]
      refine endsAtStart_true hKind ?_ hValue
      rw [hsh, hKind]
      cases h : a.shape with
      | step => exact absurd h hShape
      | timed d => nofun
      | rate r => nofun
    rw [actionStarted_ended hEnded]
    refine ⟨?_, hClaim, fun e he left any hw hOthers => ?_⟩
    · rw [setForm_actions, hStim]
      exact hFree
    · have hFind := (olderEnded_find_other hOthers).trans he
      refine (find_changeEntry_self (endedEntry_index x a.position) ((olderEnded b a.channel s).bay b).run i).trans ?_
      rw [hFind, Option.map_some, endedEntry_drive hw, ← hX]
  · rw [hStim']
    exact setForm_own hl a.kind _
  · rw [hStim']
    exact setForm_other hl a.kind _
  · rw [hStim']
    exact (hActions c hne).trans (hKept c hne)
  · exact (actionStarted_claims hne).trans (hClaims c hne)
  · rw [hStim']
    exact setForm_values ..
  · rw [actionStarted_find_other hStep, olderEnded_find_old hOld, he, Option.map_some, finishAction_drive hw]

end

end Sys2Proof.Machine

namespace Sys2Proof.Machine

open Sys2Proof

section
variable {b : Bay} {s t u : State} {i j : Nat} {e f : InFlight} {x : StepResult} {o : StepOutcome} {d : Detail}

/-! ## The start of a step in its block (R32) -/

theorem stepBegun_eq (y : Step) : stepBegun b y s = { s with bays := baySet s.bays b { s.bay b with
    run := { (s.bay b).run with
      next := (s.bay b).run.next + 1
      inFlight := (s.bay b).run.inFlight ++ [startEntry (s.bay b).run.next y s.rackTime] } } } := rfl

/-- An end that does not fail stops nothing. -/
theorem endStep_done (hf : findInFlight (s.bay b).run i = some e) :
    endStep b i .done d s = stepLeft b (resultOf e .done d s.rackTime) s := endStep_goes hf (endStops_done ..)

/-- A step that ends DONE leaves the other blocks of its bay as they are. -/
theorem endStep_done_bay : ∃ r w, (endStep b i .done d s).bay b = { s.bay b with
    run := r, xu := { (s.bay b).xu with write := w } } := by
  cases hf : findInFlight (s.bay b).run i with
  | none => exact ⟨(s.bay b).run, (s.bay b).xu.write, by rw [endStep_not_in_flight hf]⟩
  | some e =>
    obtain ⟨w, hw⟩ := stepLeft_bay (b := b) (s := s) (resultOf e .done d s.rackTime)
    exact ⟨_, w, by rw [endStep_done hf, hw]⟩

/-- An end stands while further steps leave the table. -/
theorem Ended.left (h : Ended b x s t) (hr : (t.bay b).run.results ⊆ (u.bay b).run.results)
    (hf : (u.bay b).run.inFlight ⊆ (t.bay b).run.inFlight) (hg : Grows s t) (hm : Moves none b t u) : Ended b x s u := by
  obtain ⟨hResult, hFlight, hRecord⟩ := h
  exact ⟨hr hResult, fun e he => hFlight e (hf he), fun k hk hl => hg.issued hm.grows (hRecord k hk hl)⟩

/-! ### DRIVE (R53, R54, R69) -/

/-- The end of a DRIVE step with no unfinished action, or nothing (R54). -/
theorem endDrive_cases (j : Nat) : endDrive b j s = s ∨ ∃ e o, findInFlight (s.bay b).run j = some e ∧
    driveOver e = some (decide (o = .done)) ∧ (o = .done ∨ o = .cut) ∧
    endDrive b j s = stepLeft b (resultOf e o (if o = .done then .none else .superseded) s.rackTime) s := by
  have hGoes {o : StepOutcome} {d : Detail} (ho : endStops (s.bay b).run j o = false) {any : Bool}
      (h : (findInFlight (s.bay b).run j).bind driveOver = some any) : ∃ e, findInFlight (s.bay b).run j = some e ∧
        driveOver e = some any ∧ endStep b j o d s = stepLeft b (resultOf e o d s.rackTime) s := by
    obtain ⟨e, he, hOver⟩ := Option.bind_eq_some_iff.1 h
    exact ⟨e, he, hOver, endStep_goes he ho⟩
  unfold endDrive
  split
  · obtain ⟨e, he, hOver, hEnd⟩ := hGoes (d := .superseded) (endStops_cut ..) ‹_›
    exact .inr ⟨e, .cut, he, hOver, .inr rfl, hEnd⟩
  · obtain ⟨e, he, hOver, hEnd⟩ := hGoes (d := .none) (endStops_done ..) ‹_›
    exact .inr ⟨e, .done, he, hOver, .inl rfl, hEnd⟩
  · exact .inl rfl

/-- What the ends of DRIVE steps leave: the outputs, the slot, and every step that goes on. -/
theorem endDrive_leaves (j : Nat) : ((endDrive b j s).bay b).stim = (s.bay b).stim ∧
    (s.bay b).run.results ⊆ ((endDrive b j s).bay b).run.results ∧
    ((endDrive b j s).bay b).run.inFlight ⊆ (s.bay b).run.inFlight ∧
    ∀ i f, findInFlight (s.bay b).run i = some f → (j ≠ i ∨ driveOver f = none) →
      findInFlight ((endDrive b j s).bay b).run i = some f := by
  rcases endDrive_cases (b := b) (s := s) j with h | ⟨e, o, he, hOver, -, h⟩
  · rw [h]
    exact ⟨rfl, List.Subset.refl _, List.Subset.refl _, fun _ _ hf _ => hf⟩
  · generalize hx : resultOf e o (if o = .done then .none else .superseded) s.rackTime = x at h
    have hIndex : x.index = j := hx ▸ (mem_of_find he).2
    obtain ⟨w, hw⟩ := stepLeft_bay (b := b) (s := s) x
    rw [h, hw]
    refine ⟨rfl, List.subset_append_left .., List.filter_subset_self _, fun i f hf hi => ?_⟩
    have hji : j ≠ i := hi.elim id fun hNone hEq => by
      subst hEq
      rw [Option.some.inj (he.symm.trans hf), hNone] at hOver
      cases hOver
    exact (find_filter (y := s.bay b) (hIndex ▸ hji) rfl).trans hf

theorem endDrives_leave (js : List Nat) : ((forAll js (endDrive b) s).bay b).stim = (s.bay b).stim ∧
    (s.bay b).run.results ⊆ ((forAll js (endDrive b) s).bay b).run.results ∧
    ((forAll js (endDrive b) s).bay b).run.inFlight ⊆ (s.bay b).run.inFlight := by
  refine forAll_keeps (P := fun t => (t.bay b).stim = (s.bay b).stim ∧ (s.bay b).run.results ⊆ (t.bay b).run.results ∧
    (t.bay b).run.inFlight ⊆ (s.bay b).run.inFlight) _ _ _ ⟨rfl, List.Subset.refl _, List.Subset.refl _⟩ fun j _ t ht => ?_
  obtain ⟨hStim, hResults, hFlight⟩ := ht
  obtain ⟨hStim', hResults', hFlight', -⟩ := endDrive_leaves (b := b) (s := t) j
  exact ⟨hStim'.trans hStim, List.Subset.trans hResults hResults', List.Subset.trans hFlight' hFlight⟩

theorem endDrives_going (js : List Nat) (hf : findInFlight (s.bay b).run i = some f) (hd : driveOver f = none) :
    findInFlight ((forAll js (endDrive b) s).bay b).run i = some f :=
  forAll_keeps (P := fun t => findInFlight (t.bay b).run i = some f) _ _ _ hf fun j _ t ht =>
    (endDrive_leaves (b := b) (s := t) j).2.2.2 i f ht (.inr hd)

theorem endDrives_ended (js : List Nat) (hf : findInFlight (s.bay b).run i = some f) (hd : driveOver f = some true)
    (hi : i ∈ js) : Ended b (resultOf f .done .none s.rackTime) s (forAll js (endDrive b) s) := by
  induction js generalizing s with
  | nil => cases hi
  | cons j js ih =>
    have hStep : forAll (j :: js) (endDrive b) s = forAll js (endDrive b) (endDrive b j s) := rfl
    have hMoves : Moves none b s (endDrive b j s) := endDrive_moves j
    have hRest : Moves none b (endDrive b j s) (forAll js (endDrive b) (endDrive b j s)) :=
      forAll_moves fun j _ => endDrive_moves j
    obtain ⟨-, -, -, hFind⟩ := endDrive_leaves (b := b) (s := s) j
    rw [hStep]
    by_cases hji : j = i
    · subst hji
      have hEnd : endDrive b j s = endStep b j .done .none s := by simp only [endDrive, hf, Option.bind_some, hd]
      obtain ⟨-, hResults, hFlight⟩ := endDrives_leave (b := b) (s := endDrive b j s) js
      exact Ended.left (hEnd ▸ endStep_ended hf) hResults hFlight hMoves.grows hRest
    · have hEnd := ih (hFind i f hf (.inl hji)) ((List.mem_cons.1 hi).resolve_left fun h => hji h.symm)
      rw [hMoves.rackTime] at hEnd
      have hRun : ((endDrive b j s).bay b).run.slot = (s.bay b).run.slot ∧
          ((endDrive b j s).bay b).run.lost = (s.bay b).run.lost := by
        rcases endDrive_cases (b := b) (s := s) j with h | ⟨e, o, -, -, -, h⟩
        · rw [h]
          exact ⟨rfl, rfl⟩
        · obtain ⟨w, hw⟩ := stepLeft_bay (b := b) (s := s)
            (resultOf e o (if o = .done then .none else .superseded) s.rackTime)
          rw [h, hw]
          exact ⟨rfl, rfl⟩
      exact hEnd.before hRun.1 hRun.2 hMoves hRest.grows

theorem setForm_lines (c : Fin 14) (k : ActKind) (u : Stimulus) : (setForm c k u).lines = u.lines := by
  unfold setForm
  split
  · rfl
  · split <;> rfl

theorem startAction_lines (a : DriveAction) : ((startAction b i a s).bay b).stim.lines = (s.bay b).stim.lines ∧
    ((startAction b i a s).bay b).stim.lineOut = (s.bay b).stim.lineOut ∧
    ((startAction b i a s).bay b).stim.safe = (s.bay b).stim.safe ∧
    ((startAction b i a s).bay b).run.slot = (s.bay b).run.slot ∧
    ((startAction b i a s).bay b).run.lost = (s.bay b).run.lost := by
  obtain ⟨t, hOlder, -⟩ := olderEnded_stim (b := b) (s := s) (c := a.channel)
  rw [startAction_eq]
  obtain ⟨t', hStim, -⟩ := actionStarted_stim (b := b) (s := olderEnded b a.channel s) (i := i) (a := a)
    (x := { makeAction i a ((olderEnded b a.channel s).bay b).stim with older := handedOver (s.bay b) a.channel })
  generalize ({ makeAction i a ((olderEnded b a.channel s).bay b).stim with
    older := handedOver (s.bay b) a.channel } : Action) = x at hStim
  have hForm := setForm_outputs a.channel a.kind { (s.bay b).stim with actions := t }
  have hRun : ((actionStarted b i a x (olderEnded b a.channel s)).bay b).run.slot =
        ((olderEnded b a.channel s).bay b).run.slot ∧
      ((actionStarted b i a x (olderEnded b a.channel s)).bay b).run.lost = ((olderEnded b a.channel s).bay b).run.lost := by
    cases h : endsAtStart x with
    | true =>
      rw [actionStarted_ended h]
      exact ⟨rfl, rfl⟩
    | false =>
      rw [actionStarted_inForce h]
      exact ⟨rfl, rfl⟩
  have hOlderRun : ((olderEnded b a.channel s).bay b).run.slot = (s.bay b).run.slot ∧
      ((olderEnded b a.channel s).bay b).run.lost = (s.bay b).run.lost := by
    cases h : (s.bay b).stim.actions[a.channel] with
    | none =>
      rw [olderEnded_none h]
      exact ⟨rfl, rfl⟩
    | some old =>
      rw [olderEnded_some h, bay_modBay]
      exact ⟨rfl, rfl⟩
  rw [hStim, hOlder]
  exact ⟨setForm_lines .., hForm.lineOut, hForm.safe, hRun.1.trans hOlderRun.1, hRun.2.trans hOlderRun.2⟩

theorem startActions_lines (actions : List DriveAction) :
    ((forAll actions (startAction b i) s).bay b).stim.lines = (s.bay b).stim.lines ∧
    ((forAll actions (startAction b i) s).bay b).stim.lineOut = (s.bay b).stim.lineOut ∧
    ((forAll actions (startAction b i) s).bay b).stim.safe = (s.bay b).stim.safe ∧
    ((forAll actions (startAction b i) s).bay b).run.slot = (s.bay b).run.slot ∧
    ((forAll actions (startAction b i) s).bay b).run.lost = (s.bay b).run.lost := by
  refine forAll_keeps (P := fun t => (t.bay b).stim.lines = (s.bay b).stim.lines ∧
    (t.bay b).stim.lineOut = (s.bay b).stim.lineOut ∧ (t.bay b).stim.safe = (s.bay b).stim.safe ∧
    (t.bay b).run.slot = (s.bay b).run.slot ∧ (t.bay b).run.lost = (s.bay b).run.lost) _ _ _
    ⟨rfl, rfl, rfl, rfl, rfl⟩ fun a _ t ht => ?_
  obtain ⟨h1, h2, h3, h4, h5⟩ := ht
  obtain ⟨g1, g2, g3, g4, g5⟩ := startAction_lines (b := b) (i := i) (s := t) a
  exact ⟨g1.trans h1, g2.trans h2, g3.trans h3, g4.trans h4, g5.trans h5⟩

/-- The start of a DRIVE step: its lines, and its entry when an action is left or its end (R53, R54, R69). -/
theorem startDrive_started (i : Nat) (actions : List DriveAction) (on off : BitVec 16) :
    ((startDrive b i actions on off s).bay b).stim = { ((forAll actions (startAction b i) s).bay b).stim with
        lines := ((s.bay b).stim.lines ||| on) &&& ~~~off
        lineOut := if (s.bay b).stim.safe then (s.bay b).stim.lineOut else ((s.bay b).stim.lines ||| on) &&& ~~~off } ∧
      ∀ f, findInFlight ((forAll actions (startAction b i) s).bay b).run i = some f →
        (driveOver f = none → findInFlight ((startDrive b i actions on off s).bay b).run i = some f) ∧
        (driveOver f = some true → Ended b (resultOf f .done .none s.rackTime) s (startDrive b i actions on off s)) := by
  obtain ⟨hLines, hOut, hSafe, hSlot, hLost⟩ := startActions_lines (b := b) (i := i) (s := s) actions
  have hActed : Moves none b s (forAll actions (startAction b i) s) := forAll_moves fun a _ => startAction_moves i a
  have hMoves : Moves none b s ((forAll actions (startAction b i) s).modStim b (applyLines on off)) :=
    hActed.trans (modStim_moves rfl)
  generalize hv : (forAll actions (startAction b i) s).modStim b (applyLines on off) = v at hMoves
  have hBay : v.bay b = { (forAll actions (startAction b i) s).bay b with
      stim := applyLines on off ((forAll actions (startAction b i) s).bay b).stim } := hv ▸ bay_modStim ..
  have hStart : startDrive b i actions on off s = forAll ((v.bay b).run.inFlight.map fun e => e.index) (endDrive b) v := by
    rw [← hv]
    rfl
  rw [hStart]
  obtain ⟨hStim, -⟩ := endDrives_leave (b := b) (s := v) ((v.bay b).run.inFlight.map fun e => e.index)
  refine ⟨?_, fun f hf => ?_⟩
  · rw [hStim, hBay]
    simp only [applyLines, hLines, hOut, hSafe]
  · have hFind : findInFlight (v.bay b).run i = some f := by
      rw [hBay]
      exact hf
    refine ⟨endDrives_going _ hFind, fun hOver => ?_⟩
    have hEnd := endDrives_ended ((v.bay b).run.inFlight.map fun e => e.index) hFind hOver
      (List.mem_map.2 ⟨f, mem_of_find hFind⟩)
    rw [hMoves.rackTime] at hEnd
    exact hEnd.before (by rw [hBay]; exact hSlot) (by rw [hBay]; exact hLost) hMoves
      (Moves.grows (forAll_moves fun j _ => endDrive_moves j))

/-! ### PROMPT and FIXTURE (R166, R191, R205, R208) -/

theorem endWaits_of_quiet (h : ∀ e ∈ (s.bay b).run.inFlight, checkDue e = true →
    endStops (s.bay b).run i .error = false ∧ e.index ≠ i) : endWaits (s.bay b).run i = false := by
  refine List.any_eq_false.2 fun e he hw => ?_
  simp only [Bool.and_eq_true, Bool.or_eq_true, decide_eq_true_eq] at hw
  obtain ⟨hStop, hIndex⟩ := h e he hw.1
  rcases hw.2 with h' | h'
  · exact absurd (hStop.symm.trans h') nofun
  · exact hIndex h'

theorem endWaits_of_stop {h : Header} (hd : ∃ e ∈ (s.bay b).run.inFlight, checkDue e = true)
    (hs : StopOnFail (s.bay b).run i h) : endWaits (s.bay b).run i = true := by
  obtain ⟨e, he, hDue⟩ := hd
  have hStops : endStops (s.bay b).run i .error = true := endStops_of_stopOnFail hs (by simp [FailingOutcome])
  exact List.any_eq_true.2 ⟨e, he, by simp [hDue, hStops]⟩

theorem endStep_prompts (hp : (s.bay b).panel.prompts = []) (i : Nat) (o : StepOutcome) (d : Detail) :
    ((endStep b i o d s).bay b).panel.prompts = [] := by
  cases hf : findInFlight (s.bay b).run i with
  | none => rwa [endStep_not_in_flight hf]
  | some e =>
    rw [endStep_of_find hf]
    split
    · obtain ⟨-, -, -, -, -, -, -, hPrompts, -⟩ := enterClosing_closed (b := b) (verdict := .fail)
        (cause := .stoppedOnFail) (offending := i) (s := stepLeft b (resultOf e o d s.rackTime) s)
        (ended := endAll ((stepLeft b (resultOf e o d s.rackTime) s).bay b).run .cut .stopped
          (stepLeft b (resultOf e o d s.rackTime) s).rackTime)
      exact hPrompts
    · obtain ⟨w, hw⟩ := stepLeft_bay (b := b) (s := s) (resultOf e o d s.rackTime)
      rwa [hw]

theorem joinTest_prompts (hp : (s.bay b).panel.prompts = []) : ((joinTest b s).bay b).panel.prompts = [] := by
  unfold joinTest
  split
  · exact endStep_prompts hp ..
  · exact hp

theorem pumpPrompts_empty (hp : (s.bay b).panel.prompts = []) (n : Nat) : pumpPrompts b n s = s := by
  cases n with
  | zero => rfl
  | succ n =>
    have hNone : writable (s.bay b) = none := by simp [writable, hp]
    simp only [pumpPrompts, hNone]

theorem pumpText_idle (h : (s.bay b).panel.display ≠ none ∨ (s.bay b).panel.waitingText = none) : pumpText b s = s := by
  unfold pumpText
  split
  · next hd hw =>
    rcases h with h | h
    · exact absurd hd h
    · exact absurd (h.symm.trans hw) nofun
  · rfl

/-- The prompt of a PROMPT step at its start (R205). -/
def newPrompt (i : Nat) (text : List Byte) (form : PromptForm) (ms : Nat) : Prompt :=
  ⟨i, form, text, min 3600000 ms, none, .waiting, none⟩

/-- A bay with a prompt at the tail of its queue. -/
def promptQueued (b : Bay) (q : Prompt) (s : State) : State :=
  s.modPanel b fun p => { p with prompts := p.prompts ++ [q] }

theorem startPrompt_eq (i : Nat) (text : List Byte) (form : PromptForm) (ms : Nat) :
    startPrompt b i text form ms s = pumpDisplay b (promptQueued b (newPrompt i text form ms) s) := by
  rw [startPrompt, clampNat_eq (Nat.zero_le _), Nat.zero_max]
  rfl

theorem promptQueued_bay (q : Prompt) : (promptQueued b q s).bay b = { s.bay b with
    panel := { (s.bay b).panel with prompts := (s.bay b).panel.prompts ++ [q] } } := bay_modPanel ..

/-- Behind a display write or another prompt at the display a prompt only waits. -/
theorem startPrompt_waits {q : Prompt} (h : (s.bay b).panel.display ≠ none ∨
    ((s.bay b).panel.waitingText = none ∧ ∃ x ∈ (s.bay b).panel.prompts, x.state ≠ .waiting)) :
    pumpDisplay b (promptQueued b q s) = promptQueued b q s := by
  have hText : pumpText b (promptQueued b q s) = promptQueued b q s := pumpText_idle (by
    rw [promptQueued_bay]
    exact h.imp id And.left)
  have hNone : writable ((promptQueued b q s).bay b) = none := by
    rw [promptQueued_bay]
    refine if_neg fun hw => ?_
    simp only [Bool.and_eq_true, decide_eq_true_eq, List.all_eq_true] at hw
    obtain ⟨⟨⟨-, hDisplay⟩, -⟩, hAll⟩ := hw
    rcases h with h | ⟨-, x, hx, hState⟩
    · exact h hDisplay
    · exact hState (hAll x (List.mem_append_left _ hx))
  rw [pumpDisplay, hText]
  simp only [pumpPrompts, hNone]

/-- A prompt alone at the display is the one to be written. -/
theorem startPrompt_writes {q : Prompt} (hd : (s.bay b).panel.display = none) (ht : (s.bay b).panel.waitingText = none)
    (hp : (s.bay b).panel.prompts = []) (hq : q.state = .waiting)
    (hRuns : (s.bay b).phase = .running ∨ (s.bay b).phase = .paused) :
    pumpDisplay b (promptQueued b q s) = pumpPrompts b 4 (promptQueued b q s) ∧
      writable ((promptQueued b q s).bay b) = some q := by
  constructor
  · rw [pumpDisplay, pumpText_idle (by rw [promptQueued_bay]; exact .inr ht)]
  · rw [promptQueued_bay]
    have hPhase : (decide ((s.bay b).phase = .running) || decide ((s.bay b).phase = .paused)) = true := by simpa using hRuns
    simp [writable, hd, ht, hp, hq, hPhase]

end

end Sys2Proof.Machine

namespace Sys2Proof.Machine

open Sys2Proof

section
variable {b : Bay} {s t u : State} {i j : Nat} {e f : InFlight} {x : StepResult} {o : StepOutcome} {d : Detail}

/-- A prompt requested with the bus not FAILED enters WRITING (R205). -/
theorem promptQueued_granted {q : Prompt} (hp : (s.bay b).panel.prompts = [])
    (hw : writable ((promptQueued b q s).bay b) = some q) (hb : s.bus.state ≠ .failed) :
    Requested ⟨b, .display (.prompt q.step), 1, .write q.text, 0, 0, false⟩ s (pumpPrompts b 4 (promptQueued b q s)) ∧
      (pumpPrompts b 4 (promptQueued b q s)).bays = baySet s.bays b { s.bay b with
        panel := { (s.bay b).panel with prompts := [{ q with state := .writing }], display := some (.prompt q.step) } } := by
  obtain ⟨u, hu⟩ := busRequest_granted (s := promptQueued b q s) hb (displayEntry b (.prompt q.step) q.text)
  obtain ⟨-, hBays, -⟩ := busRequest_cases hu
  have hPump : pumpPrompts b 4 (promptQueued b q s) = u.modPanel b fun p =>
      { markPrompt q.step (fun x => { x with state := .writing }) p with display := some (.prompt q.step) } := by
    simp only [pumpPrompts, hw, hu]
  have hState : (u.modPanel b fun p => { markPrompt q.step (fun x => { x with state := .writing }) p with
        display := some (.prompt q.step) }).bays = ((promptQueued b q s).modPanel b fun p =>
      { markPrompt q.step (fun x => { x with state := .writing }) p with display := some (.prompt q.step) }).bays := by
    simp only [State.modPanel, State.modBay, State.bay, hBays]
  have hRequested : Requested (displayEntry b (.prompt q.step) q.text) (promptQueued b q s) u := busRequest_requested hu
  rw [hPump]
  refine ⟨hRequested, hState.trans ?_⟩
  simp only [promptQueued, State.modPanel]
  rw [modBay_modBay]
  have hList : (((s.bay b).panel.prompts ++ [q]).map fun x => if x.step = q.step then { x with state := .writing } else x) =
      [{ q with state := .writing }] := by simp [hp]
  exact congrArg (fun l => baySet s.bays b { s.bay b with
    panel := { (s.bay b).panel with prompts := l, display := some (.prompt q.step) } }) hList

/-- A prompt requested with the bus FAILED ends ERROR, when its end need not wait (R205, R208). -/
theorem promptQueued_failed {q : Prompt} (hp : (s.bay b).panel.prompts = [])
    (hw : writable ((promptQueued b q s).bay b) = some q) (hb : s.bus.state = .failed)
    (hf : findInFlight (s.bay b).run q.step = some f) (hi : q.step < (s.bay b).run.next)
    (hEnds : endWaits (s.bay b).run q.step = false) :
    ((pumpPrompts b 4 (promptQueued b q s)).bay b).panel.prompts = [] ∧
      Ended b (resultOf f .error (.bus .busFailed) s.rackTime) s (pumpPrompts b 4 (promptQueued b q s)) := by
  have hTaken : ((promptQueued b q s).modPanel b (takePrompt q.step)).bay b = { s.bay b with
      panel := { (s.bay b).panel with prompts := [] } } := by
    rw [bay_modPanel, promptQueued_bay]
    simp [takePrompt, hp]
  generalize hv : (promptQueued b q s).modPanel b (takePrompt q.step) = v at hTaken
  have hMoves : Moves none b s v := hv ▸ (modPanel_moves _).trans (modPanel_moves _)
  have hEmpty : ((joinTest b (endStep b q.step .error (.bus .busFailed) v)).bay b).panel.prompts = [] :=
    joinTest_prompts (endStep_prompts (by rw [hTaken]) ..)
  have hPump : pumpPrompts b 4 (promptQueued b q s) = joinTest b (endStep b q.step .error (.bus .busFailed) v) := by
    have hRequest : busRequest (displayEntry b (.prompt q.step) q.text) (promptQueued b q s) = none :=
      busRequest_failed (s := promptQueued b q s) hb _
    have hQueued : endWaits ((promptQueued b q s).bay b).run q.step = false := by
      rw [promptQueued_bay]
      exact hEnds
    rw [pumpPrompts]
    simp only [hw, hRequest, hQueued, Bool.false_eq_true, if_false, hv]
    exact pumpPrompts_empty hEmpty 3
  have hFind : findInFlight (v.bay b).run q.step = some f := by
    rw [hTaken]
    exact hf
  have hEnd : Ended b (resultOf f .error (.bus .busFailed) s.rackTime) v (endStep b q.step .error (.bus .busFailed) v) := by
    rw [← hMoves.rackTime]
    exact endStep_ended hFind
  have hStep : Moves none b v (endStep b q.step .error (.bus .busFailed) v) := endStep_moves ..
  rw [hPump]
  refine ⟨hEmpty, ?_⟩
  refine (hEnd.after ?_ joinTest_carries hStep.grows joinTest_moves).before (by rw [hTaken]) (by rw [hTaken]) hMoves
    (Moves.grows (hStep.trans joinTest_moves))
  rw [endStep_next, hTaken]
  exact (mem_of_find hf).2.trans_lt hi

/-- A prompt whose failing end waits for others stays in its queue (R137, R208). -/
theorem promptQueued_held {q : Prompt} (hw : writable ((promptQueued b q s).bay b) = some q) (hb : s.bus.state = .failed)
    (hWaits : endWaits (s.bay b).run q.step = true) : pumpPrompts b 4 (promptQueued b q s) = promptQueued b q s := by
  have hRequest : busRequest (displayEntry b (.prompt q.step) q.text) (promptQueued b q s) = none :=
    busRequest_failed (s := promptQueued b q s) hb _
  have hQueued : endWaits ((promptQueued b q s).bay b).run q.step = true := by
    rw [promptQueued_bay]
    exact hWaits
  rw [pumpPrompts]
  simp only [hw, hRequest, hQueued, if_true]

/-! ### FRAME (R108 to R112) -/

theorem dropWaiting_eq (e : Fin 16) (n : Network) : dropWaiting e n = { n with
    queue := n.queue.filter fun q => q.entry ≠ e || inAttempt n e } := by
  unfold dropWaiting
  cases h : inAttempt n e with
  | true => simp
  | false => simp

/-- The network after the start of a FRAME step, whose end leaves it. -/
theorem startFrame_net (e : Fin 16) (act : FrameAction) : ((startFrame b i e act s).bay b).net =
    if (s.bay b).net.setup.entries[e].enabled then frameAction s.rackTime e act (s.bay b).net else (s.bay b).net := by
  obtain ⟨r, w, hw⟩ := endStep_done_bay (b := b) (i := i) (d := frameDetail (s.bay b).net e)
    (s := if (s.bay b).net.setup.entries[e].enabled then s.modNet b (frameAction s.rackTime e act) else s)
  rw [startFrame, hw]
  split
  · rw [bay_modNet]
  · rfl

theorem startFrame_ended (hf : findInFlight (s.bay b).run i = some f) (e : Fin 16) (act : FrameAction) :
    Ended b (resultOf f .done (frameDetail (s.bay b).net e) s.rackTime) s (startFrame b i e act s) := by
  have hActed : Moves none b s (if (s.bay b).net.setup.entries[e].enabled then
      s.modNet b (frameAction s.rackTime e act) else s) :=
    ite_moves (fun _ => modNet_moves (frameAction_keeps ..)) fun _ => .refl
  have hRun : ((if (s.bay b).net.setup.entries[e].enabled then
      s.modNet b (frameAction s.rackTime e act) else s).bay b).run = (s.bay b).run := by
    split
    · rw [bay_modNet]
    · rfl
  have hEnd := endStep_ended (o := .done) (d := frameDetail (s.bay b).net e) (by rw [hRun]; exact hf)
  rw [hActed.rackTime] at hEnd
  exact hEnd.before (by rw [hRun]) (by rw [hRun]) hActed (Moves.grows (endStep_moves ..))

/-! ### JOIN (R34) -/

theorem joinTest_ends (hf : findInFlight (s.bay b).run i = some f) {tag : Option Nat} (hw : f.work = .join tag)
    (hd : ((s.bay b).run.inFlight.map fun e => e.index).Nodup)
    (hOne : ∀ g ∈ (s.bay b).run.inFlight, g.index ≠ i → ∀ x, g.work ≠ .join x)
    (h : ∀ g ∈ (s.bay b).run.inFlight, g.index ≠ i → ∃ n, tag = some n ∧ g.tag ≠ n) :
    joinTest b s = endStep b i .done .none s := by
  obtain ⟨hMem, hIndex⟩ := mem_of_find hf
  have hReady : readyJoin (s.bay b).run = some f := by
    cases hr : readyJoin (s.bay b).run with
    | none =>
      have hHolds : joinHolds (s.bay b).run f.index tag = true := joinHolds_iff.2 fun g hg => by
        by_cases hi : g.index = i
        · exact .inl (hi.trans hIndex.symm)
        · exact .inr (h g hg hi)
      have hNot := List.find?_eq_none.1 hr f hMem
      simp only [hw] at hNot
      exact absurd hHolds hNot
    | some g =>
      obtain ⟨hgMem, tag', hg, -⟩ := mem_readyJoin hr
      by_cases hi : g.index = i
      · exact congrArg some (List.inj_on_of_nodup_map hd hgMem hMem (hi.trans hIndex.symm))
      · exact absurd hg (hOne g hgMem hi tag')
  simp only [joinTest, hReady, hIndex]

theorem joinTest_stays (hf : findInFlight (s.bay b).run i = some f) {tag : Option Nat} (hw : f.work = .join tag)
    (hd : ((s.bay b).run.inFlight.map fun e => e.index).Nodup)
    (hOne : ∀ g ∈ (s.bay b).run.inFlight, g.index ≠ i → ∀ x, g.work ≠ .join x)
    (h : ∃ g ∈ (s.bay b).run.inFlight, g.index ≠ i ∧ ∀ n, tag = some n → g.tag = n) : joinTest b s = s := by
  obtain ⟨hMem, hIndex⟩ := mem_of_find hf
  obtain ⟨g, hg, hi, hTag⟩ := h
  have hNone : readyJoin (s.bay b).run = none := by
    refine Option.eq_none_iff_forall_ne_some.2 fun k hk => ?_
    obtain ⟨hkMem, tag', hkw, hHolds⟩ := mem_readyJoin hk
    have hki : k.index = i := by_contra fun hi => hOne k hkMem hi tag' hkw
    obtain rfl : k = f := List.inj_on_of_nodup_map hd hkMem hMem (hki.trans hIndex.symm)
    obtain rfl := Work.join.inj (hw.symm.trans hkw)
    rcases joinHolds_iff.1 hHolds g hg with h | ⟨n, hn, h⟩
    · exact hi (h.trans hki)
    · exact h (hTag n hn)
  simp only [joinTest, hNone]

/-! ### POWER (R90, R94, R144 to R146) -/

/-- The end of the safe state: outputs at their settings, the network LIVE, the rest of the run as it was but for clamped
flags (R90, R94). -/
theorem endSafe_bay : ∃ u F w, FlagsOnly F ∧
    StimConverts { (s.bay b).stim with safe := false, lineOut := (s.bay b).stim.lines } u ∧
    (endSafe b s).bay b = { s.bay b with
      stim := u
      net := netLive s.rackTime (s.bay b).net
      run := { (s.bay b).run with inFlight := (s.bay b).run.inFlight.map F }
      xu := { (s.bay b).xu with write := w } } := by
  obtain ⟨-, u, F, hF, hu, hb⟩ := setLevels_converts (b := b)
    (s := s.modStim b fun u => { u with safe := false, lineOut := u.lines })
  obtain ⟨w, hw⟩ := changeNet_bay (b := b) (s := stimUnsafe b s) (netLive s.rackTime)
  rw [bay_modStim] at hu hb
  have hUnsafe : (stimUnsafe b s).bay b = _ := hb
  rw [hUnsafe] at hw
  exact ⟨u, F, w, hF, hu, hw⟩

theorem netLive_anchor (now : RackTime) (n : Network) (e : Fin 16) (h : n.work[e].on = true) :
    (netLive now n).work[e].anchor = some (now + 1) := by
  have hAt : (netLive now n).work[e] = if n.work[e].on then
      anchorEntry now (n.setup.entries.toList.getD e EntrySetup.reset) n.work[e] else n.work[e] := getElem_tabMap ..
  rw [hAt, if_pos h]
  rfl

end

end Sys2Proof.Machine

namespace Sys2Proof.Machine

open Sys2Proof

section
variable {b : Bay} {s t u : State} {i j : Nat} {e f : InFlight}

/-- The queue of a bay's network without the waiting frames of one entry (R110, R112). -/
theorem dropWaiting_queue (e : Fin 16) (n : Network) (w : Vector EntryWork 16) :
    dropWaiting e { n with work := w } = { n with
      work := w
      queue := n.queue.filter fun q => q.entry ≠ e ||
        (match n.attempt with | some a => decide (a.entry = e) | none => false) } := by
  rw [dropWaiting_eq]
  rfl

/-- The effect of a FRAME step on the working part of its entry, by its action (R109 to R112). -/
theorem frameAction_cases (now : RackTime) (e : Fin 16) (act : FrameAction) (n : Network) :
    let kept := n.queue.filter fun q =>
      q.entry ≠ e || (match n.attempt with | some a => decide (a.entry = e) | none => false)
    (act = .start → n.work[e].on = false → n.state ≠ .stopped →
      frameAction now e act n = { n with work := tabSet n.work e { n.work[e] with
        on := true
        anchor := some (now + 1)
        untilRelease := n.setup.entries[e].phase + 1
        due := false } }) ∧
    (act = .start → n.work[e].on = false → n.state = .stopped →
      frameAction now e act n = { n with work := tabSet n.work e { n.work[e] with on := true } }) ∧
    (act = .start → n.work[e].on = true → frameAction now e act n = n) ∧
    (act = .stop → n.work[e].on = true →
      frameAction now e act n = { n with
        work := tabSet n.work e { n.work[e] with on := false, anchor := none, untilRelease := 0, due := false }
        queue := kept }) ∧
    (act = .stop → n.work[e].on = false → frameAction now e act n = n) ∧
    (∀ bytes, act = .setBytes bytes →
      frameAction now e act n = { n with work := tabSet n.work e { n.work[e] with bytes := bytes } }) ∧
    ∀ mode, act = .inject mode →
      frameAction now e act n = { n with
        work := tabSet n.work e { n.work[e] with mode := mode }
        queue := if mode = .silent then kept else n.queue } := by
  refine ⟨?_, ?_, ?_, ?_, ?_, ?_, ?_⟩
  · rintro rfl hOn hState
    simp only [frameAction, hOn, Bool.false_eq_true, if_false, if_neg hState]
    rfl
  · rintro rfl hOn hState
    simp only [frameAction, hOn, Bool.false_eq_true, if_false, hState, if_true]
  · rintro rfl hOn
    simp only [frameAction, hOn, if_true]
  · rintro rfl hOn
    have hDrop := dropWaiting_queue e n
      (tabSet n.work e { n.work[e] with on := false, anchor := none, untilRelease := 0, due := false })
    simp only [frameAction, hOn, if_true]
    exact hDrop
  · rintro rfl hOn
    simp only [frameAction, hOn, Bool.false_eq_true, if_false]
  · rintro bytes rfl
    rfl
  · rintro mode rfl
    simp only [frameAction]
    split
    · exact dropWaiting_queue e n (tabSet n.work e { n.work[e] with mode := mode })
    · rfl

theorem startFixture_granted (h : s.bus.state ≠ .failed) (i : Nat) (m : Fin 16) (write : Bool) (index : Byte)
    (data : List Byte) : Requested ⟨b, .step i, m, if write then .write data else .read data.length, index, 0, false⟩ s
        (startFixture b i m write index data s) ∧ (startFixture b i m write index data s).bays = s.bays := by
  obtain ⟨u, hu⟩ := busRequest_granted h
    (newEntry b (.step i) m (if write then .write data else .read data.length) index)
  obtain ⟨-, hBays, -⟩ := busRequest_cases hu
  have hStart : startFixture b i m write index data s = u := by simp only [startFixture, hu]
  rw [hStart]
  exact ⟨busRequest_requested hu, hBays⟩

theorem startFixture_failed (h : s.bus.state = .failed) (i : Nat) (m : Fin 16) (write : Bool) (index : Byte)
    (data : List Byte) : startFixture b i m write index data s =
      if endWaits (s.bay b).run i then s else endStep b i .error (.bus .busFailed) s := by
  simp only [startFixture, busRequest_failed h]

/-- The start of a POWER ON step (R145, R146). -/
theorem startPowerOn_bay (i v : Nat) : ∃ u n F w, FlagsOnly F ∧
    (startPower b i true v s).bay b = { s.bay b with
      stim := u
      net := n
      supply := powerOn i v (s.bay b).supply
      run := { (s.bay b).run with inFlight := (s.bay b).run.inFlight.map F }
      xu := { (s.bay b).xu with write := w } } ∧
    ((s.bay b).stim.safe = false → u = (s.bay b).stim ∧ n = (s.bay b).net) ∧
    ((s.bay b).stim.safe = true → n = netLive s.rackTime (s.bay b).net ∧
      StimConverts { (s.bay b).stim with safe := false, lineOut := (s.bay b).stim.lines } u) := by
  have hOn : (s.modSupply b (powerOn i v)).bay b = { s.bay b with supply := powerOn i v (s.bay b).supply } :=
    bay_modSupply ..
  simp only [startPower, if_true, hOn]
  split
  · next hSafe =>
    obtain ⟨u, F, w, hF, hu, hw⟩ := endSafe_bay (b := b) (s := s.modSupply b (powerOn i v))
    rw [hOn] at hu hw
    exact ⟨u, _, F, w, hF, hw, fun h => absurd (h.symm.trans hSafe) nofun, fun _ => ⟨rfl, hu⟩⟩
  · next hSafe =>
    refine ⟨(s.bay b).stim, (s.bay b).net, id, (s.bay b).xu.write, .id, ?_, fun _ => ⟨rfl, rfl⟩, fun h => absurd h hSafe⟩
    rw [hOn, List.map_id]

theorem powerOn_eq (i v : Nat) (p : Supply) : powerOn i v p = { p with
    armed := false
    setting := if v = 0 then p.setup.nominal else max 6000 (min 18000 v)
    on := true
    settle := some ⟨i, 0⟩
    watches := { p.watches with
      undervoltage := { p.watches.undervoltage with count := 0, recognized := false }
      overvoltage := { p.watches.overvoltage with count := 0, recognized := false } } } := by
  rw [powerOn, clampNat_eq (by decide)]
  rfl

/-- The start of a POWER OFF step, which ends it (R144, R146). -/
theorem startPowerOff (i v : Nat) : startPower b i false v s = endStep b i .done .none (switchOff b false s) := rfl

theorem startPowerOff_ended (hf : findInFlight (s.bay b).run i = some f) (v : Nat) :
    Ended b (resultOf f .done .none s.rackTime) s (startPower b i false v s) := by
  have hRun := switchOff_run (b := b) (s := s) false
  have hOff : Moves none b s (switchOff b false s) := switchOff_moves _
  have hEnd := endStep_ended (o := .done) (d := .none) (by rw [hRun]; exact hf)
  rw [hOff.rackTime] at hEnd
  exact hEnd.before (by rw [hRun]) (by rw [hRun]) hOff (Moves.grows (endStep_moves ..))

/-- Settles O31, block by block. -/
theorem stepsStartInTheirBlocks : Obligations.StepsStartInTheirBlocks := by
  refine ⟨fun s b x hx => startStep_some hx, fun i x now => ⟨rfl, fun ms h => ?_, fun period probes h => ?_⟩,
    fun s b i actions on off _ => ?_, fun s b i text form ms => ⟨fun h => ?_, fun hd ht hp hRuns => ⟨fun hb => ?_,
      fun hb f hf hw hi => ⟨fun hDue => ?_, fun hDue ⟨h, hStop⟩ => ?_⟩⟩⟩,
    fun s b i m write index data expected mask => ⟨fun hb => startFixture_granted hb .., fun hb f hf hw hi =>
      ⟨fun hDue => ?_, fun hDue ⟨h, hStop⟩ => ?_⟩⟩,
    fun s b i e act => ⟨fun f hf hw => ?_, fun he => ?_, fun he => ?_⟩,
    fun s b i tag f hf hw hd hOne => ⟨fun h => joinTest_stays hf hw hd hOne h, fun h => ?_⟩,
    fun s b i v => ?_, fun s b i v f hf hw => ⟨?_, ?_⟩⟩
  · simp only [startEntry, h, startWork, clampNat_eq (show 1 ≤ 600000 by decide)]
  · refine ⟨_, ?_, rfl, fun p hp => ?_⟩
    · simp only [startEntry, h, startWork, startCheck, clampNat_eq (show 1 ≤ 600000 by decide)]
    · obtain ⟨q, -, rfl⟩ := List.mem_map.1 hp
      rfl
  · obtain ⟨hStim, hEntry⟩ := startDrive_started (b := b) (s := s) i actions on off
    refine ⟨hStim, fun f hf left any hw => ⟨fun hLeft => (hEntry f hf).1 ?_, fun hLeft hAny => ?_⟩⟩
    · unfold driveOver
      rw [hw]
      cases left with
      | nil => exact absurd rfl hLeft
      | cons => rfl
    · subst hLeft hAny
      rw [← resultOf_no_check (by rw [hw]; rfl) (mem_of_find hf).2]
      exact (hEntry f hf).2 (by simp only [driveOver, hw])
  · have hWaits := startPrompt_waits (q := newPrompt i text form ms) h
    exact (startPrompt_eq i text form ms).trans hWaits
  · obtain ⟨hPump, hWritable⟩ := startPrompt_writes (q := newPrompt i text form ms) hd ht hp rfl hRuns
    have hAll := promptQueued_granted hp hWritable hb
    rw [← hPump, ← startPrompt_eq] at hAll
    exact hAll
  · obtain ⟨hPump, hWritable⟩ := startPrompt_writes (q := newPrompt i text form ms) hd ht hp rfl hRuns
    have hAll := promptQueued_failed hp hWritable hb hf hi (endWaits_of_quiet hDue)
    rw [← hPump, ← startPrompt_eq, resultOf_no_check (by rw [hw]; rfl) (mem_of_find hf).2] at hAll
    exact hAll
  · obtain ⟨hPump, hWritable⟩ := startPrompt_writes (q := newPrompt i text form ms) hd ht hp rfl hRuns
    have hHeld := promptQueued_held hWritable hb (endWaits_of_stop hDue hStop)
    refine (startPrompt_eq i text form ms).trans (hPump.trans (hHeld.trans ?_))
    have hOne : (s.bay b).panel.prompts ++ [newPrompt i text form ms] = [newPrompt i text form ms] := by
      rw [hp]
      rfl
    exact congrArg (fun l => { s with bays := baySet s.bays b { s.bay b with
      panel := { (s.bay b).panel with prompts := l } } }) hOne
  · have hStart := startFixture_failed (b := b) hb i m write index data
    rw [endWaits_of_quiet hDue, if_neg Bool.false_ne_true] at hStart
    have hEnd := endStep_ended (o := .error) (d := .bus .busFailed) hf
    rw [resultOf_no_check (by rw [hw]; rfl) (mem_of_find hf).2, ← hStart] at hEnd
    exact hEnd
  · have hStart := startFixture_failed (b := b) hb i m write index data
    rwa [endWaits_of_stop hDue hStop, if_pos rfl] at hStart
  · have hEnd := startFrame_ended hf e act
    rw [resultOf_no_check (by rw [hw]; rfl) (mem_of_find hf).2] at hEnd
    simpa only [frameDetail, Bool.not_eq_true', startBody] using hEnd
  · exact (startFrame_net e act).trans (if_neg (he ▸ Bool.false_ne_true))
  · have hNet : ((startBody b i (.frame e act) s).bay b).net = frameAction s.rackTime e act (s.bay b).net :=
      (startFrame_net e act).trans (if_pos he)
    dsimp only
    rw [hNet]
    exact frameAction_cases s.rackTime e act (s.bay b).net
  · have hEnd := endStep_ended (o := .done) (d := .none) hf
    rw [resultOf_no_check (by rw [hw]; rfl) (mem_of_find hf).2, ← joinTest_ends hf hw hd hOne h] at hEnd
    exact hEnd
  · obtain ⟨u, n, F, w, hF, hBay, hUnsafe, hSafe⟩ := startPowerOn_bay (b := b) (s := s) i v
    have hStart : (startBody b i (.power true v) s).bay b = _ := hBay
    dsimp only
    rw [hStart]
    refine ⟨powerOn_eq .., rfl, rfl, ?_, hUnsafe, fun hs => ?_⟩
    · simp only [List.map_map]
      refine List.map_congr_left fun e _ => ?_
      rw [Function.comp_apply, hF e]
    · obtain ⟨hNet, hConverts⟩ := hSafe hs
      refine ⟨hConverts.safe, hConverts.lineOut, hConverts.values, by rw [hNet]; rfl, fun e he => ?_⟩
      rw [hNet]
      exact netLive_anchor _ _ e he
  · have hEnd := startPowerOff_ended hf v
    rw [resultOf_no_check (by rw [hw]; rfl) (mem_of_find hf).2] at hEnd
    exact hEnd
  · obtain ⟨r, w, hEnd⟩ := endStep_done_bay (b := b) (i := i) (d := .none) (s := switchOff b false s)
    have hStart : (startBody b i (.power false v) s).bay b = _ := hEnd
    rw [hStart]
    cases hOn : (s.bay b).supply.on with
    | false =>
      have hs : switchOff b false s = s := if_neg (by rw [hOn]; nofun)
      rw [hs]
      exact ⟨hOn, rfl, rfl, fun _ => ⟨rfl, rfl, rfl⟩, nofun⟩
    | true =>
      rcases switchOff_bay (b := b) (s := s) false with ⟨-, hOff⟩ | ⟨w', hs⟩
      · exact absurd (hOn.symm.trans hOff) nofun
      · rw [hs]
        exact ⟨rfl, rfl, rfl, nofun, fun _ => ⟨rfl, rfl, rfl, rfl⟩⟩

end

end Sys2Proof.Machine

namespace Sys2Proof.Machine

open Sys2Proof

/-! ## What a boundary's counts do to a channel, a step and a prompt (R33, R51, R74 to R76, R134, R206) -/

/-- The advance of one channel for a counted boundary (R75, R76). -/
def advanceOne (atStart : Nat → Bool) (here : Handed → Bool) (v : Stimulus) (c : Fin 14) : Stimulus :=
  match v.actions[c] with
  | none => v
  | some a => if atStart a.step then handChannel here v c else advanceChannel v c

theorem advanceAll_eq (atStart : Nat → Bool) (here : Handed → Bool) (u : Stimulus) :
    advanceAll atStart here u = (indices 14).foldl (advanceOne atStart here) u := rfl

/-- A channel's value and the action in force on it after a counted boundary. -/
def channelAfter (atStart : Nat → Bool) (here : Handed → Bool) (o : Option Action) (v : Int) : Int × Option Action :=
  match o with
  | none => (v, none)
  | some a =>
    if atStart a.step then
      match handedValue here a.older with
      | none => (v, some a)
      | some w => (w, some (takeValue w a))
    else if a.reached then (v, some a)
    else ((nextValue a v).1, some { a with count := a.count + 1, reached := (nextValue a v).2, older := [] })

section
variable {atStart : Nat → Bool} {here : Handed → Bool} {u v : Stimulus} {c d : Fin 14} {a : Action} {f : Stimulus → Fin 14 → Stimulus}

theorem advanceOne_own : (advanceOne atStart here v c).values[c] = (channelAfter atStart here v.actions[c] v.values[c]).1 ∧
    (advanceOne atStart here v c).actions[c] = (channelAfter atStart here v.actions[c] v.values[c]).2 := by
  unfold advanceOne channelAfter
  cases ha : v.actions[c] with
  | none => exact ⟨rfl, ha⟩
  | some a =>
    dsimp only
    split
    · unfold handChannel
      simp only [ha]
      rcases Option.eq_none_or_eq_some (handedValue here a.older) with hh | ⟨w, hh⟩ <;> simp only [hh]
      · exact ⟨trivial, ha⟩
      · exact ⟨getElem_tabSet_self .., getElem_tabSet_self ..⟩
    · unfold advanceChannel
      simp only [ha]
      split
      · exact ⟨rfl, ha⟩
      · exact ⟨getElem_tabSet_self .., getElem_tabSet_self ..⟩

/-- A step of a fold over the channels that leaves the others alone. -/
def OneChannel (f : Stimulus → Fin 14 → Stimulus) : Prop := ∀ v c d, d ≠ c →
  (f v d).values[c] = v.values[c] ∧ (f v d).actions[c] = v.actions[c] ∧ (f v d).stopped = v.stopped

theorem advanceOne_other : OneChannel (advanceOne atStart here) := by
  intro v c d hd
  unfold advanceOne
  split
  · exact ⟨rfl, rfl, rfl⟩
  · split
    · rcases handChannel_cases here v d with h | ⟨a, w, -, -, h⟩ <;> rw [h]
      · exact ⟨rfl, rfl, rfl⟩
      · exact ⟨(getElem_tabSet ..).trans (if_neg hd), (getElem_tabSet ..).trans (if_neg hd), rfl⟩
    · unfold advanceChannel
      split
      · exact ⟨rfl, rfl, rfl⟩
      · split
        · exact ⟨rfl, rfl, rfl⟩
        · exact ⟨(getElem_tabSet ..).trans (if_neg hd), (getElem_tabSet ..).trans (if_neg hd), rfl⟩

theorem foldl_others (hf : OneChannel f) (l : List (Fin 14)) (hc : c ∉ l) : (l.foldl f u).values[c] = u.values[c] ∧
    (l.foldl f u).actions[c] = u.actions[c] ∧ (l.foldl f u).stopped = u.stopped := by
  induction l generalizing u with
  | nil => exact ⟨rfl, rfl, rfl⟩
  | cons d l ih =>
    obtain ⟨hv, ha, hs⟩ := hf u c d fun h => hc (h ▸ List.mem_cons_self ..)
    obtain ⟨hv', ha', hs'⟩ := ih (u := f u d) fun h => hc (List.mem_cons_of_mem _ h)
    exact ⟨hv'.trans hv, ha'.trans ha, hs'.trans hs⟩

theorem indices_nodup (n : Nat) : (indices n).Nodup := by
  refine (List.nodup_range (n := n)).filterMap fun i j k hi hj => ?_
  simp only [Option.mem_def, Option.dite_none_right_eq_some, Option.some.injEq] at hi hj
  obtain ⟨_, rfl⟩ := hi
  obtain ⟨_, h⟩ := hj
  exact (congrArg Fin.val h).symm

/-- A fold over the channels does to each what its own step does. -/
theorem foldl_channel (hf : OneChannel f) (u : Stimulus) (c : Fin 14) : ∃ v w, v.values[c] = u.values[c] ∧
    v.actions[c] = u.actions[c] ∧ v.stopped = u.stopped ∧ (indices 14).foldl f u = w ∧
    w.values[c] = (f v c).values[c] ∧ w.actions[c] = (f v c).actions[c] := by
  obtain ⟨xs, ys, hSplit⟩ := List.append_of_mem (mem_indices c)
  have hNodup := indices_nodup 14
  rw [hSplit] at hNodup
  obtain ⟨-, hTail, hDisjoint⟩ := List.nodup_append.1 hNodup
  have hXs : c ∉ xs := fun h => hDisjoint c h c (List.mem_cons_self ..) rfl
  obtain ⟨hv, ha, hs⟩ := foldl_others hf (u := u) xs hXs
  obtain ⟨hv', ha', -⟩ := foldl_others hf (u := f (xs.foldl f u) c) ys (List.nodup_cons.1 hTail).1
  refine ⟨xs.foldl f u, _, hv, ha, hs, rfl, ?_, ?_⟩
  · rw [hSplit, List.foldl_append, List.foldl_cons]
    exact hv'
  · rw [hSplit, List.foldl_append, List.foldl_cons]
    exact ha'

theorem advanceAll_channel (atStart : Nat → Bool) (here : Handed → Bool) (u : Stimulus) (c : Fin 14) :
    (advanceAll atStart here u).values[c] = (channelAfter atStart here u.actions[c] u.values[c]).1 ∧
      (advanceAll atStart here u).actions[c] = (channelAfter atStart here u.actions[c] u.values[c]).2 := by
  obtain ⟨v, w, hv, ha, -, hw, hValue, hAction⟩ := foldl_channel (advanceOne_other (atStart := atStart) (here := here)) u c
  obtain ⟨hOwnValue, hOwnAction⟩ := advanceOne_own (atStart := atStart) (here := here) (v := v) (c := c)
  rw [hv, ha] at hOwnValue hOwnAction
  rw [advanceAll_eq, hw]
  exact ⟨hValue.trans hOwnValue, hAction.trans hOwnAction⟩

/-- A channel whose action has not been started at the boundary advances as R75 says. -/
theorem advanceAll_values_of_not_start (h : ∀ a, u.actions[c] = some a → atStart a.step = false) :
    (advanceAll atStart here u).values[c] = (advanceChannel u c).values[c] := by
  have hOne : advanceOne (fun _ => false) here u c = advanceChannel u c := by
    unfold advanceOne
    split
    · next ha => simp only [advanceChannel, ha]
    · rfl
  have hSame : channelAfter atStart here u.actions[c] u.values[c] =
      channelAfter (fun _ => false) here u.actions[c] u.values[c] := by
    unfold channelAfter
    cases ha : u.actions[c] with
    | none => rfl
    | some a => simp only [h a ha]
  rw [(advanceAll_channel atStart here u c).1, hSame, ← hOne]
  exact advanceOne_own.1.symm

/-- The value handed over by the actions cut at an event (R76). -/
theorem handing_handedValue (inp : BayInputs) (now : RackTime) (l : List Handed) (v : Int) :
    Handing inp now l v ((handedValue (handedAt inp now) l).getD v) := by
  have hAt (h : Handed) : handedAt inp now h = true ↔ StartsHere inp now h.step h.start h.early := startedHere_iff
  refine ⟨fun hAll => ?_, fun before h after hl hNot hBefore => ?_⟩
  · rw [handedValue_eq_none.2 fun h hh => (hAt h).2 (hAll h hh)]
    rfl
  · have hSome : handedValue (handedAt inp now) l = some h.value := handedValue_eq_some.2
      ⟨before, h, after, hl, Bool.eq_false_iff.2 fun hh => hNot ((hAt h).1 hh), fun g hg => (hAt g).2 (hBefore g hg), rfl⟩
    rw [hSome]
    rfl

theorem endsAtStart_iff {x : Action} : endsAtStart x = true ↔ x.kind = .value ∧ x.shape ≠ .step ∧ x.v0 = x.v1 := by
  constructor
  · intro h
    refine ⟨by_contra fun hk => ?_, fun hs => ?_, by_contra fun hv => ?_⟩
    · exact absurd ((endsAtStart_false (.inl hk)).symm.trans h) nofun
    · exact absurd ((endsAtStart_false (.inr (.inl hs))).symm.trans h) nofun
    · exact absurd ((endsAtStart_false (.inr (.inr (Ne.symm hv)))).symm.trans h) nofun
  · exact fun ⟨hk, hs, hv⟩ => endsAtStart_true hk hs hv.symm

end

section
variable {b : Bay} {s t : State}

theorem computeFrequency_converts (i : Fin 2) : Converts b s (computeFrequency b i s) := by
  have hNew (r : Option Nat) : Converts b s (s.modStim b fun u => { u with frequency := tabSet u.frequency i r }) :=
    modStim_converts ⟨rfl, rfl, rfl, rfl, rfl, rfl, rfl, fun _ => .inl rfl⟩
  simp only [computeFrequency]
  split
  · exact (hNew _).trans (flagClamped_converts _)
  · exact hNew _

theorem startGenerator_converts (u : Stimulus) (i : Fin 2) : StimConverts u (startGenerator u i) := by
  unfold startGenerator
  split
  · exact ⟨rfl, rfl, rfl, rfl, rfl, rfl, rfl, fun _ => .inl rfl⟩
  · exact .refl u

theorem startGenerators_converts (l : List (Fin 2)) (u : Stimulus) : StimConverts u (l.foldl startGenerator u) := by
  induction l generalizing u with
  | nil => exact .refl u
  | cons i l ih => exact (startGenerator_converts u i).trans (ih _)

theorem convertAll_converts : Converts b s (convertAll b s) := by
  have hFrequency : Converts b s (forAll (indices 2) (computeFrequency b) s) :=
    forAll_keeps (P := fun t => Converts b s t) _ _ _ (.refl b s) fun i _ _ h => h.trans (computeFrequency_converts i)
  exact hFrequency.trans ((modStim_converts (startGenerators_converts _ _)).trans setLevels_converts)

/-- A bay counted at a boundary, before its conversions. -/
def countedBay (inp : BayInputs) (now : RackTime) (y : BayState) : BayState :=
  if y.phase = .running then countRunning inp now y else y

/-- A bay after its counts, conversions and release moments. -/
theorem countBay_bay (inp : BayInputs) : ∃ u F, FlagsOnly F ∧
    StimConverts (countedBay inp s.rackTime (s.bay b)).stim u ∧
    (countBay b inp s).bay b = { countedBay inp s.rackTime (s.bay b) with
      stim := u
      net := countReleases (s.bay b).net
      run := { (s.bay b).run with inFlight := (countedBay inp s.rackTime (s.bay b)).run.inFlight.map F } } := by
  generalize hv : (if (s.bay b).phase = .running then s.modBay b (countRunning inp s.rackTime) else s) = v
  have hBay : v.bay b = countedBay inp s.rackTime (s.bay b) := by
    rw [← hv]
    unfold countedBay
    split
    · rw [bay_modBay]
    · rfl
  have hRest : (v.bay b).net = (s.bay b).net ∧
      { (v.bay b).run with inFlight := (s.bay b).run.inFlight } = (s.bay b).run := by
    rw [hBay]
    unfold countedBay
    split <;> exact ⟨rfl, rfl⟩
  obtain ⟨-, u, F, hF, hu, hb⟩ := convertAll_converts (b := b) (s := v)
  have hCount : countBay b inp s = (convertAll b v).modNet b countReleases := by
    rw [← hv]
    rfl
  refine ⟨u, F, hF, hBay ▸ hu, ?_⟩
  rw [hCount, bay_modNet, hb, ← hRest.1, ← hRest.2, ← hBay]

/-- The inputs' word on the start of a step in flight. -/
theorem startsAt_eq (inp : BayInputs) (now : RackTime) (e : InFlight) :
    startsAt inp now e = decide (StartsHere inp now e.index e.start e.early) :=
  Bool.eq_iff_iff.2 (startedHere_iff.trans decide_eq_true_iff.symm)

theorem stepStartsAt_eq (inp : BayInputs) (now : RackTime) (r : RunEngine) (i : Nat) : stepStartsAt inp now r i =
    (findInFlight r i).any fun e => decide (StartsHere inp now e.index e.start e.early) := by
  simp only [stepStartsAt, ← startsAt_eq]

theorem takeSample_decided {p : Probe} (h : p.state ≠ .pending) (x : Int) (fresh : Bool) : takeSample x fresh p = p := if_pos h

theorem countStep_here {inp : BayInputs} {now : RackTime} {e : InFlight} (h : startsAt inp now e = true) (y : BayState) :
    countStep y inp now e = e := if_pos h

/-- A step that a boundary counts (R33, R51, R134). -/
theorem countStep_counted {inp : BayInputs} {now : RackTime} {e : InFlight} (h : startsAt inp now e = false) (y : BayState) :
    (countStep y inp now e).timeout = e.timeout.map (fun n => n - 1) ∧
      (∀ n, e.work = .dwell n → (countStep y inp now e).work = .dwell (n - 1)) ∧
      ∀ c, e.work = .check c → ∃ x, (countStep y inp now e).work = .check x ∧ x.k = c.k + 1 ∧ x.period = c.period ∧
        ∀ p ∈ c.probes, p.state ≠ .pending → p ∈ x.probes := by
  rw [countStep, h, if_neg Bool.false_ne_true]
  refine ⟨rfl, fun n hw => by simp only [hw], fun c hw => ?_⟩
  simp only [hw]
  refine ⟨countCheck y inp c, rfl, rfl, rfl, fun p hp hDecided => ?_⟩
  exact List.mem_map.2 ⟨p, hp, takeSample_decided hDecided ..⟩

theorem countStep_index (y : BayState) (inp : BayInputs) (now : RackTime) (e : InFlight) :
    (countStep y inp now e).index = e.index := by
  unfold countStep
  split <;> rfl

theorem countSettle_settle (atStart : Nat → Bool) (p : Supply) : countSettle atStart p = { p with
    settle := p.settle.map fun j => { j with count := if atStart j.step then j.count else j.count + 1 } } := by
  unfold countSettle
  split
  · next hj => rw [hj, Option.map_none, ← hj]
  · next j hj =>
    rw [hj, Option.map_some]
    split
    · rw [← hj]
    · rfl

theorem countPrompt_eq (inp : BayInputs) (now : RackTime) (q : Prompt) : countPrompt inp now q =
    if q.state = .armed ∧ ¬(inp.armedHere = true ∧ q.armedAt = some (now - 1)) then
      { q with remaining := q.remaining.map fun n => n - 1 }
    else q := by
  have hArmed : armedAtBoundary inp now q = true ↔ inp.armedHere = true ∧ q.armedAt = some (now - 1) := by
    unfold armedAtBoundary
    cases q.armedAt with
    | none => simp
    | some t => simp [eq_sub_iff_add_eq]
  unfold countPrompt
  refine if_congr ?_ rfl rfl
  rw [← hArmed]
  simp

end

end Sys2Proof.Machine

namespace Sys2Proof.Machine

open Sys2Proof

section
variable {b : Bay} {s : State} {inp : BayInputs} {y : BayState} {now : RackTime}

theorem countedBay_running (h : y.phase = .running) : countedBay inp now y = countRunning inp now y := if_pos h

theorem countedBay_standing (h : y.phase ≠ .running) : countedBay inp now y = y := if_neg h

theorem countRunning_flight : (countRunning inp now y).run.inFlight = y.run.inFlight.map (countStep y inp now) := rfl

theorem FlagsOnly.fields {F : InFlight → InFlight} (hF : FlagsOnly F) (e : InFlight) : (F e).index = e.index ∧
    (F e).timeout = e.timeout ∧ (F e).work = e.work := by
  rw [hF e]
  exact ⟨rfl, rfl, rfl⟩

/-- The steps of a bay that its state lets stand keep their clocks (R158). -/
theorem FlagsOnly.clocks {F : InFlight → InFlight} (hF : FlagsOnly F) (l : List InFlight) :
    (l.map F).map (fun e => (e.index, e.timeout, e.work)) = l.map fun e => (e.index, e.timeout, e.work) := by
  rw [List.map_map]
  refine List.map_congr_left fun e _ => ?_
  obtain ⟨hi, ht, hw⟩ := hF.fields e
  rw [Function.comp_apply, hi, ht, hw]

theorem FlagsOnly.timeouts {F : InFlight → InFlight} (hF : FlagsOnly F) (inp : BayInputs) (now : RackTime) (y : BayState)
    (l : List InFlight) : ((l.map (countStep y inp now)).map F).map (fun e => (e.index, e.timeout)) =
      l.map fun e => (e.index, if decide (StartsHere inp now e.index e.start e.early) then e.timeout
        else e.timeout.map fun n => n - 1) := by
  rw [List.map_map, List.map_map]
  refine List.map_congr_left fun e _ => ?_
  obtain ⟨hi, ht, -⟩ := hF.fields (countStep y inp now e)
  rw [Function.comp_apply, Function.comp_apply, hi, ht, countStep_index, ← startsAt_eq]
  cases h : startsAt inp now e with
  | true => rw [countStep_here h, if_pos rfl]
  | false => rw [(countStep_counted h y).1, if_neg Bool.false_ne_true]

/-- A step of a RUNNING bay at a boundary (R33, R133, R134). -/
theorem FlagsOnly.counted {F : InFlight → InFlight} (hF : FlagsOnly F) (inp : BayInputs) (now : RackTime) (y : BayState)
    {l : List InFlight} {e : InFlight} (he : e ∈ l) : ∃ g ∈ (l.map (countStep y inp now)).map F, g.index = e.index ∧
      (decide (StartsHere inp now e.index e.start e.early) = true → g.work = e.work) ∧
      (decide (StartsHere inp now e.index e.start e.early) = false →
        (∀ n, e.work = .dwell n → g.work = .dwell (n - 1)) ∧
        ∀ c, e.work = .check c → ∃ x, g.work = .check x ∧ x.k = c.k + 1 ∧ x.period = c.period ∧
          ∀ p ∈ c.probes, p.state ≠ .pending → p ∈ x.probes) := by
  obtain ⟨hi, -, hw⟩ := hF.fields (countStep y inp now e)
  refine ⟨_, List.mem_map_of_mem (List.mem_map_of_mem he), hi.trans (countStep_index ..), fun h => ?_, fun h => ?_⟩
  · rw [hw, countStep_here (by rw [startsAt_eq, h])]
  · rw [hw]
    exact (countStep_counted (by rw [startsAt_eq, h]) y).2

/-- The channel of an action whose step starts at the boundary (R74, R76). -/
theorem channelAfter_start {atStart : Nat → Bool} {a : Action} (h : atStart a.step = true) (v : Int) :
    Handing inp now a.older v (channelAfter atStart (handedAt inp now) (some a) v).1 ∧
    ∃ x, (channelAfter atStart (handedAt inp now) (some a) v).2 = some x ∧ x.step = a.step ∧ x.position = a.position ∧
      x.kind = a.kind ∧ x.shape = a.shape ∧ x.count = a.count ∧ Handing inp now a.older a.v0 x.v0 ∧
      (a.kind = .value → x.v1 = a.v1) ∧
      ((∀ h ∈ a.older, StartsHere inp now h.step h.start h.early) → x.v1 = a.v1 ∧ x.reached = a.reached) ∧
      ∀ h ∈ a.older, ¬StartsHere inp now h.step h.start h.early →
        (a.kind ≠ .value → x.v1 = x.v0) ∧
        (x.reached = true ↔ a.kind = .value ∧ a.shape ≠ .step ∧ x.v0 = x.v1) := by
  have hAt (g : Handed) : handedAt inp now g = true ↔ StartsHere inp now g.step g.start g.early := startedHere_iff
  have hValue := handing_handedValue inp now a.older v
  have hStart := handing_handedValue inp now a.older a.v0
  unfold channelAfter
  simp only [h, if_true]
  rcases Option.eq_none_or_eq_some (handedValue (handedAt inp now) a.older) with hh | ⟨w, hh⟩ <;>
    rw [hh] at hValue hStart <;> simp only [hh]
  · refine ⟨hValue, a, rfl, rfl, rfl, rfl, rfl, rfl, hStart, fun _ => rfl, fun _ => ⟨rfl, rfl⟩, fun g hg hNot => ?_⟩
    exact absurd ((hAt g).1 (handedValue_eq_none.1 hh g hg)) hNot
  · refine ⟨hValue, takeValue w a, rfl, rfl, rfl, rfl, rfl, rfl, hStart, fun hk => if_pos hk, fun hAll => ?_, fun g _ _ => ?_⟩
    · have hNone := handedValue_eq_none.2 fun g hg => (hAt g).2 (hAll g hg)
      exact absurd (hNone.symm.trans hh) nofun
    · exact ⟨fun hk => if_neg hk, endsAtStart_iff⟩

/-- Settles O11, by the bay state and the clock. -/
theorem onlyRunningBaysCountStepClocks : Obligations.OnlyRunningBaysCountStepClocks := by
  intro s b inp
  obtain ⟨u, F, hF, hu, hBay⟩ := countBay_bay (b := b) (s := s) inp
  rw [hBay]
  refine ⟨fun hPhase => ?_, fun hPhase => ?_⟩
  · rw [countedBay_standing hPhase] at hu ⊢
    exact ⟨hF.clocks _, hu.values, rfl, rfl⟩
  · rw [countedBay_running hPhase] at hu ⊢
    have hStep : stepStartsAt inp s.rackTime (s.bay b).run = fun i =>
        (findInFlight (s.bay b).run i).any fun e => decide (StartsHere inp s.rackTime e.index e.start e.early) :=
      funext fun i => stepStartsAt_eq ..
    rw [countRunning_stim, hStep] at hu
    refine ⟨hF.timeouts .., fun e he => hF.counted inp s.rackTime (s.bay b) he, fun c a ha hHere => ?_, ?_, ?_⟩
    · obtain ⟨hValue, hAction⟩ := advanceAll_channel (fun i => (findInFlight (s.bay b).run i).any
        fun e => decide (StartsHere inp s.rackTime e.index e.start e.early)) (handedAt inp s.rackTime) (s.bay b).stim c
      rw [ha] at hValue hAction
      obtain ⟨hHanding, x, hx, hRest⟩ := channelAfter_start (inp := inp) (now := s.rackTime)
        (atStart := fun i => (findInFlight (s.bay b).run i).any
          fun e => decide (StartsHere inp s.rackTime e.index e.start e.early)) hHere (s.bay b).stim.values[c]
      rw [hx] at hAction
      refine ⟨?_, ?_⟩
      · rw [hu.values, hValue]
        exact hHanding
      · rcases hu.actions c with h | ⟨a', ha', h⟩
        · exact ⟨x, h.trans hAction, hRest⟩
        · obtain rfl := Option.some.inj (hAction.symm.trans ha')
          exact ⟨_, h, hRest⟩
    · have hSettle := congrArg Supply.settle (countSettle_settle (stepStartsAt inp s.rackTime (s.bay b).run) (s.bay b).supply)
      exact hSettle.trans (by rw [hStep])
    · exact List.map_congr_left fun q _ => countPrompt_eq ..

end

end Sys2Proof.Machine

namespace Sys2Proof.Machine

open Sys2Proof

/-! ## The validation of a run at the last read of LOADING (R36, R37, R40, R66, R96, R113, R143, R183) -/

theorem readAfter_text (first n : Nat) : readAfter .text (recordReads first n) = none := by
  induction n generalizing first with
  | zero => rfl
  | succ n ih => rw [recordReads_succ, readAfter_ne (by simp), ih]

/-- The text area is the last read. -/
theorem nextRead_text (h : Header) : nextRead h .text = none := by
  rw [nextRead, readAfter_ne (by decide), loadReads_eq, readAfter_part (by decide), scheduleOn, readAfter_part (by decide),
    tapsOn, readAfter_part (by decide), supervisionOn, readAfter_part (by decide), readAfter_text]

section
variable {b : Bay} {s t : State} {h : Header} {d : List Byte} {l : Loading}
  {x : StimSetup × SchedSetup × Vector TapSetup 8 × Supervision}

/-- The bay with its text area read. -/
theorem readKept_text : readKept b .text d s = s.modBay b fun y =>
    { y with run := { y.run with copy := { y.run.copy with text := d } } } := readKept_other (by decide)

theorem readKept_text_bay : (readKept b .text d s).bay b = { s.bay b with
    run := { (s.bay b).run with copy := { (s.bay b).run.copy with text := d } } } := by
  rw [readKept_text, bay_modBay]

/-- The last read goes on to the validation (R35, R36). -/
theorem readDone_text (hx : l.read = .text) (ha : l.abort = none) (hh : (s.bay b).run.copy.header = some h)
    (hv : stepCountValid h = true) : readDone b l d s = validate b h (readKept b .text d s) := by
  have hKept : ((readKept b .text d s).bay b).run.copy.header = some h := by
    rw [readKept_text_bay]
    exact hh
  rw [readDone_goes ha, hx]
  simp only [afterRead, hKept, hv, nextRead_text, Bool.not_true, Bool.false_eq_true, if_false]

theorem validate_texts (ht : textOffsetValid h.passText = false ∨ textOffsetValid h.failText = false) :
    validate b h s = refuseSetup b s := by
  rcases ht with ht | ht <;> simp [validate, ht]

theorem validate_setup (hp : textOffsetValid h.passText = true) (hf : textOffsetValid h.failText = true)
    (hx : setupAfter h (s.bay b) = none) : validate b h s = refuseSetup b s := by
  simp [validate, hp, hf, hx]

theorem validate_steps (hp : textOffsetValid h.passText = true) (hf : textOffsetValid h.failText = true)
    (hx : setupAfter h (s.bay b) = some x) {i : Nat} {e : Detail}
    (hs : parseSteps (s.bay b).run.copy.text 0 (s.bay b).run.copy.records = .error (i, e)) :
    validate b h s = refuseStep b i e s := by
  simp [validate, hp, hf, hx, hs]

theorem validate_valid (hp : textOffsetValid h.passText = true) (hf : textOffsetValid h.failText = true)
    (hx : setupAfter h (s.bay b) = some x) {steps : List Step}
    (hs : parseSteps (s.bay b).run.copy.text 0 (s.bay b).run.copy.records = .ok steps) :
    validate b h s = loadValid b h x steps s := by
  simp [validate, hp, hf, hx, hs]

theorem refuseStep_refused (i : Nat) (e : Detail) : Closed b .refused .invalidRun i (refuseStep b i e s) ∧
    ∃ w, ⟨i, tagOf (s.bay b).run i, .error, e, 0, 0, w, s.rackTime, List.replicate 4 (.none, 0)⟩ ∈
      ((refuseStep b i e s).bay b).run.results := by
  refine ⟨enterClosing_closed, Config.freeWord s.freeIndex, ?_⟩
  rw [refuseStep, enterClosing_results]
  exact List.mem_append_right _ (List.mem_append_left _ (List.mem_singleton_self _))

/-! ### The setup loaded -/

/-- A setup part that the run carries is loaded, and one that it does not is kept (R30). -/
theorem loadSetup_parts (h : Header) (x : StimSetup × SchedSetup × Vector TapSetup 8 × Supervision) (y : BayState) :
    (loadSetup h x y).stim.setup = (if h.hasStimulus then x.1 else y.stim.setup) ∧
    (loadSetup h x y).net.setup = (if h.hasSchedule then x.2.1 else y.net.setup) ∧
    (loadSetup h x y).supply.setup = (if h.hasSupervision then x.2.2.2 else y.supply.setup) ∧
    (loadSetup h x y).supply.on = y.supply.on := by
  refine ⟨?_, ?_, ?_, ?_⟩
  · simp only [loadSetup]
    split <;> rfl
  · simp only [loadSetup, setWorkingParts, loadTaps]
    split <;> split <;> rfl
  · simp only [loadSetup]
    split <;> rfl
  · simp only [loadSetup]
    split <;> rfl

/-- The channels of a run whose setup is loaded (R66). -/
theorem loadSetup_channels (h : Header) (x : StimSetup × SchedSetup × Vector TapSetup 8 × Supervision) (y : BayState) :
    (∀ i : Fin 14, (loadSetup h x y).stim.values[i] = if h.hasStimulus then x.1.ranges[i].dflt else y.stim.values[i]) ∧
    ∀ i : Fin 4, (loadSetup h x y).stim.forms[i] = (if h.hasStimulus then .converted else y.stim.forms[i]) ∧
      (loadSetup h x y).stim.stair[i] = (if h.hasStimulus then none else y.stim.stair[i]) := by
  simp only [loadSetup]
  by_cases hs : h.hasStimulus = true <;> simp only [hs, if_true, if_false, Bool.false_eq_true]
  · exact ⟨fun i => getElem_tabMap .., fun i => ⟨Vector.getElem_replicate .., Vector.getElem_replicate ..⟩⟩
  · exact ⟨fun _ => trivial, fun _ => ⟨trivial, trivial⟩⟩

/-- The working parts of a schedule at the end of LOADING (R96). -/
theorem loadSetup_work (h : Header) (x : StimSetup × SchedSetup × Vector TapSetup 8 × Supervision) (y : BayState)
    (e : Fin 16) : (loadSetup h x y).net.work[e] = workFromSetup (loadSetup h x y).net.setup.entries[e] :=
  getElem_tabMap ..

/-- The taps of a run that carries them, or as they were (R113). -/
theorem loadSetup_taps (h : Header) (x : StimSetup × SchedSetup × Vector TapSetup 8 × Supervision) (y : BayState)
    (i : Fin 8) : (h.hasTaps = true → (loadSetup h x y).net.taps[i] = ⟨x.2.2.1[i], 0, false, 0⟩) ∧
      (h.hasTaps = false → (loadSetup h x y).net.taps[i] = y.net.taps[i]) := by
  refine ⟨fun ht => ?_, fun ht => ?_⟩
  · simp only [loadSetup, ht, if_true, setWorkingParts, loadTaps]
    exact getElem_tabMap ..
  · simp only [loadSetup, ht, Bool.false_eq_true, if_false, setWorkingParts]
    split <;> rfl

/-- A valid run before the ident read is asked for. -/
def validLoaded (b : Bay) (h : Header) (x : StimSetup × SchedSetup × Vector TapSetup 8 × Supervision) (steps : List Step)
    (s : State) : State :=
  (setPhase b .checking ((s.modBay b (loadSetup h x)).modRun b fun r =>
    { r with load := none, copy := { r.copy with steps := steps } })).modRun b fun r => { r with identMark := true }

theorem validLoaded_bay (steps : List Step) : ∃ w, (validLoaded b h x steps s).bay b = { loadSetup h x (s.bay b) with
    phase := .checking
    run := { (s.bay b).run with load := none, copy := { (s.bay b).run.copy with steps := steps }, identMark := true }
    xu := { (s.bay b).xu with write := w } } :=
  ⟨_, by rw [validLoaded, bay_modRun, setPhase_self, bay_modRun, bay_modBay]; rfl⟩

theorem validLoaded_bus (steps : List Step) : (validLoaded b h x steps s).bus = s.bus :=
  triggerBay_bus b (((s.modBay b (loadSetup h x)).modRun b fun r =>
    { r with load := none, copy := { r.copy with steps := steps } }).modBay b fun y => { y with phase := .checking })

theorem loadValid_granted (steps : List Step) (hb : s.bus.state ≠ .failed) :
    (∀ o, (loadValid b h x steps s).bay o = (validLoaded b h x steps s).bay o) ∧
      ⟨b, .fixtureCheck, 0, .read 14, 0, 0, false⟩ ∈ (loadValid b h x steps s).bus.queue ++ (loadValid b h x steps s).bus.held := by
  have hBus := validLoaded_bus (b := b) (h := h) (x := x) (s := s) steps
  obtain ⟨u, hu⟩ := busRequest_granted (s := validLoaded b h x steps s) (by rw [hBus]; exact hb)
    (newEntry b .fixtureCheck 0 (.read 14) 0)
  have hLoad : loadValid b h x steps s = u := by
    have hAsk : loadValid b h x steps s = (match busRequest (newEntry b .fixtureCheck 0 (.read 14) 0)
      (validLoaded b h x steps s) with | some t => t | none => takeIdent b .busFailed [] (validLoaded b h x steps s)) := rfl
    rw [hAsk, hu]
  rw [hLoad]
  exact ⟨busRequest_bay hu, busRequest_mem hu⟩

/-- With the bus FAILED a valid run is refused (R186). -/
theorem loadValid_failed (steps : List Step) (hb : s.bus.state = .failed) :
    Closed b .refused .fixtureBus 0 (loadValid b h x steps s) := by
  have hBus := validLoaded_bus (b := b) (h := h) (x := x) (s := s) steps
  obtain ⟨w, hBay⟩ := validLoaded_bay (b := b) (h := h) (x := x) (s := s) steps
  have hNone : busRequest (newEntry b .fixtureCheck 0 (.read 14) 0) (validLoaded b h x steps s) = none :=
    busRequest_failed (by rw [hBus]; exact hb) _
  have hLoad : loadValid b h x steps s = takeIdent b .busFailed [] (validLoaded b h x steps s) := by
    have hAsk : loadValid b h x steps s = (match busRequest (newEntry b .fixtureCheck 0 (.read 14) 0)
      (validLoaded b h x steps s) with | some t => t | none => takeIdent b .busFailed [] (validLoaded b h x steps s)) := rfl
    rw [hAsk, hNone]
  have hPhase : (((validLoaded b h x steps s).modRun b fun r => { r with identMark := false }).bay b).phase = .checking := by
    rw [bay_modRun, hBay]
  rw [hLoad, takeIdent]
  simp only [hPhase, ne_eq, not_true_eq_false, if_false, reduceCtorEq, not_false_eq_true, if_true]
  exact enterClosing_closed

/-- Settles O24, by the check that the run fails. -/
theorem validationDecidesTheRun : Obligations.ValidationDecidesTheRun := by
  intro s b d hs hPhase l hl hx ha h hh h1 h2
  have hCount : stepCountValid h = true := by simp [stepCountValid, h1, h2]
  have hExec : exec (.loadingReadComplete b d) s = .next (validate b h (readKept b .text d s)) := by
    refine (exec_up hs rfl).trans (congrArg _ ?_)
    simp only [loadingOf, hPhase, if_true, hl]
    exact readDone_text hx ha hh hCount
  have hBay := readKept_text_bay (b := b) (s := s) (d := d)
  have hTime : (readKept b .text d s).rackTime = s.rackTime := by rw [readKept_text]; rfl
  have hBus : (readKept b .text d s).bus = s.bus := by rw [readKept_text]; rfl
  have hText : ((readKept b .text d s).bay b).run.copy.text = d := by rw [hBay]
  have hRecords : ((readKept b .text d s).bay b).run.copy.records = (s.bay b).run.copy.records := by rw [hBay]
  have hSetup : setupAfter h ((readKept b .text d s).bay b) = setupAfter h (s.bay b) := by rw [hBay]; rfl
  have hTag (i : Nat) : tagOf ((readKept b .text d s).bay b).run i = tagOf (s.bay b).run i := by rw [hBay]; rfl
  generalize readKept b .text d s = v at hExec hBay hTime hBus hText hRecords hSetup hTag
  rw [hExec]
  refine ⟨fun ht => ⟨_, rfl, ?_⟩, fun hp hf => ⟨fun hx => ⟨_, rfl, ?_⟩, fun x hx => ⟨fun i detail hSteps => ?_,
    fun steps hSteps => ⟨fun hb => ⟨_, rfl, ?_⟩, fun hb => ⟨_, rfl, ?_⟩⟩⟩⟩⟩
  · rw [validate_texts ht]
    exact enterClosing_closed
  · rw [validate_setup hp hf (hSetup.trans hx)]
    exact enterClosing_closed
  · rw [← hText, ← hRecords] at hSteps
    obtain ⟨hClosed, w, hResult⟩ := refuseStep_refused (b := b) (s := v) i detail
    rw [hTag, hTime] at hResult
    exact ⟨_, w, congrArg _ (validate_steps hp hf (hSetup.trans hx) hSteps), hClosed, hResult⟩
  · rw [← hText, ← hRecords] at hSteps
    rw [validate_valid hp hf (hSetup.trans hx) hSteps]
    exact loadValid_failed steps (hBus ▸ hb)
  · rw [← hText, ← hRecords] at hSteps
    rw [validate_valid hp hf (hSetup.trans hx) hSteps]
    obtain ⟨hSame, hMem⟩ := loadValid_granted (b := b) (h := h) (x := x) steps (hBus ▸ hb)
    obtain ⟨w, hLoaded⟩ := validLoaded_bay (b := b) (h := h) (x := x) (s := v) steps
    obtain ⟨hStim, hNet, hSupply, hOn⟩ := loadSetup_parts h x (v.bay b)
    obtain ⟨hValues, hForms⟩ := loadSetup_channels h x (v.bay b)
    have hWork := loadSetup_work h x (v.bay b)
    have hTaps := loadSetup_taps h x (v.bay b)
    rw [hSame, hLoaded]
    rw [hBay] at *
    refine ⟨rfl, rfl, rfl, rfl, hStim, hValues, hForms, hNet, fun e => ?_, fun i => ⟨fun ht => ?_, (hTaps i).2⟩, hSupply, hOn, hMem⟩
    · dsimp only
      rw [hWork e]
      exact ⟨rfl, rfl, rfl, rfl, rfl, fun c hc => by simp only [workFromSetup, hc]⟩
    · dsimp only
      rw [(hTaps i).1 ht]
      exact ⟨rfl, rfl, rfl⟩

end

end Sys2Proof.Machine

namespace Sys2Proof.Machine

open Sys2Proof

section
variable {b : Bay} {s t u : State}

/-! ## What the ends, the faults and the panel of a run leave as it is (R21, R76, R79, R119, R201) -/

theorem addLatched_calm (f : FaultSet) : Calm b s (addLatched b f s) :=
  .ite (fun _ => .refl b s) fun _ => (modSupply_calm _).trans triggerBay_calm

theorem addReported_calm (f : FaultSet) : Calm b s (addReported b f s) :=
  .ite (fun _ => .refl b s) fun _ => (modSupply_calm _).trans triggerBay_calm

theorem goHalted_calm : Calm b s (goHalted b s) :=
  (setPhase_calm (p := .halted) nofun).trans (setEvent_calm _)

theorem endStep_calm (i : Nat) (o : StepOutcome) (d : Detail) : Calm b s (endStep b i o d s) := by
  cases hf : findInFlight (s.bay b).run i with
  | none =>
    rw [endStep_not_in_flight hf]
    exact .refl b s
  | some e =>
    rw [endStep_of_find hf]
    exact .ite (fun _ => (stepLeft_calm _).trans (enterClosing_calm ..)) fun _ => stepLeft_calm _

theorem takeEnd_calm (i : Nat) (o : StepOutcome) (d : Detail) : Calm b s (takeEnd b i o d s) :=
  (endStep_calm ..).trans afterEnds_works.calm

/-! ### The ends of CHECK steps and the ends taken with them -/

theorem endCheck_calm (i : Nat) : Calm b s (endCheck b i s) := by
  unfold endCheck
  split
  · exact .refl b s
  · split
    · exact (modInFlight_calm _ _).trans (endStep_calm ..)
    · exact .refl b s

theorem decideDue_calm (x : Option Nat) : Calm b s (decideDue b x s) := forAll_calm _ fun _ _ => modInFlight_calm _ _

theorem nextCheck_calm (i : Nat) : Calm b s (nextCheck b i s) := by
  unfold nextCheck
  split
  · exact .refl b s
  · exact (endCheck_calm _).trans afterEnds_works.calm

theorem takeChecks_calm (steps : List Nat) : Calm b s (takeChecks b steps s) := forAll_calm _ fun i _ => nextCheck_calm i

theorem withChecks_calm (x : Option Nat) (stops : Bool) {f : State → State} (h : ∀ t, Calm b t (f t)) :
    Calm b s (withChecks b x stops f s) :=
  .ite (fun _ => (decideDue_calm _).trans ((takeChecks_calm _).trans ((h _).trans afterEnds_works.calm))) fun _ =>
    (decideDue_calm _).trans ((h _).trans (afterEnds_works.calm.trans (takeChecks_calm _)))

theorem settleChecks_calm : Calm b s (settleChecks b s) := (decideDue_calm _).trans (takeChecks_calm _)

theorem endInFlight_calm (i : Nat) (o : StepOutcome) (d : Detail) {block : State → State}
    (h : ∀ t, Calm b t (block t)) : Calm b s (endInFlight b i o d block s) := by
  unfold endInFlight
  split
  · exact .refl b s
  · exact (h s).trans (endStep_calm ..)

theorem endWithChecks_calm (i : Nat) (o : StepOutcome) (d : Detail) {block : State → State}
    (h : ∀ t, Calm b t (block t)) : Calm b s (endWithChecks b i o d block s) :=
  .ite (fun _ => ((decideDue_calm _).trans (takeChecks_calm _)).trans ((endInFlight_calm _ _ _ h).trans
    afterEnds_works.calm)) fun _ => withChecks_calm _ _ fun _ => endInFlight_calm _ _ _ h

theorem dropPrompt_calm (i : Nat) : Calm b s (dropPrompt b i s) := by
  refine Calm.trans (t := s.modPanel b fun p => { p with prompts := p.prompts.filter fun q => q.step ≠ i })
    (modPanel_calm rfl) ?_
  exact .ite (fun _ => (modPanel_calm rfl).trans (removeEntries_calm _)) fun _ => .refl b _

theorem stopBlock_calm (e : InFlight) : Calm b s (stopBlock b e s) := by
  unfold stopBlock
  split
  · exact Calm.trans (modStim_calm rfl rfl) (modRun_calm _)
  · exact dropPrompt_calm _
  · exact removeEntries_calm _
  · exact modSupply_calm _
  all_goals exact .refl b s

/-! ### Aborts, faults and the retry -/

theorem echoBay_calm (seq : Word16) (r : EchoResult) : Calm b s (echoBay b seq r s) :=
  (modStatus_calm rfl).trans triggerBay_calm

theorem abortNow_calm (cause : AbortCause) : Calm b s (abortNow b cause s) := by
  simp only [abortNow]
  split
  · exact (enterClosing_calm ..).trans (echoBay_calm _ _)
  · exact enterClosing_calm ..

theorem abortRun_calm (cause : AbortCause) : Calm b s (abortRun b cause s) := by
  refine settleChecks_calm.trans ?_
  simp only [abortRun]
  refine .ite (fun _ => .refl b _) fun _ => ?_
  split
  · exact modRun_calm _
  · exact abortNow_calm _

theorem latchFault_calm (c : Condition) : Calm b s (latchFault b c s) := (addLatched_calm _).trans (abortRun_calm _)

theorem reportFault_calm (c : Condition) : Calm b s (reportFault b c s) := (addReported_calm _).trans (modRun_calm _)

theorem beginRetry_calm (c : Condition) : Calm b s (beginRetry b c s) :=
  Calm.trans (modSupply_calm _) ((switchOff_calm _).trans (setPhase_calm (p := .paused) nofun))

theorem furtherRetry_calm (c : Condition) : Calm b s (furtherRetry b c s) :=
  Calm.trans (modSupply_calm _) (switchOff_calm _)

theorem settlePending_calm (c : Condition) : Calm b s (settlePending b c s) := by
  have hSeen : Calm b s (s.modSupply b fun p =>
      { p with watches := condSet p.watches c { condGet p.watches c with pending := false } }) := modSupply_calm _
  simp only [settlePending]
  refine .ite (fun _ => ?_) fun _ => .refl b s
  split
  · exact hSeen.trans (addLatched_calm _)
  · exact hSeen.trans (addLatched_calm _)
  · exact hSeen.trans (addReported_calm _)
  · exact hSeen

theorem actOn_calm (c : Condition) : Calm b s (actOn b c s) := by
  have hSeen : Calm b s (s.modSupply b fun p =>
    { p with watches := condSet p.watches c { condGet p.watches c with pending := false } }) := modSupply_calm _
  simp only [actOn]
  split
  · exact hSeen.trans (reportFault_calm _)
  · exact hSeen.trans (reportFault_calm _)
  · exact hSeen.trans (reportFault_calm _)
  · exact hSeen
  · exact hSeen
  · exact hSeen
  · exact .ite (fun _ => hSeen.trans (latchFault_calm _)) fun _ => hSeen.trans (beginRetry_calm _)
  · exact .ite (fun _ => hSeen.trans (latchFault_calm _)) fun _ => hSeen.trans (furtherRetry_calm _)
  · exact hSeen.trans (latchFault_calm _)
  · exact settlePending_calm _

theorem recognize_calm (c : Condition) : Calm b s (recognize b c s) :=
  settleChecks_calm.trans (.ite (fun _ => actOn_calm _) fun _ => .refl b _)

theorem retrySettled_calm : Calm b s (retrySettled b s) :=
  Calm.trans (modSupply_calm _) ((modRun_calm _).trans ((setPhase_calm (p := .running) nofun).trans (endSafe_works.calm.trans
    ((setEvent_calm _).trans walk_works.calm))))

/-! ### The ends that fall due at a boundary (R33, R50, R52, R74, R145, R153, R207) -/

theorem dwellEnd_calm (i : Nat) : Calm b s (dwellEnd b i s) := by
  unfold dwellEnd
  split
  · exact .refl b s
  · exact .ite (fun _ => endWithChecks_calm _ _ _ fun t => .refl b t) fun _ => .refl b s

theorem timeoutEnd_calm (i : Nat) : Calm b s (timeoutEnd b i s) := by
  unfold timeoutEnd
  split
  · exact .refl b s
  · exact .ite (fun _ => endWithChecks_calm _ _ _ fun _ => stopBlock_calm _) fun _ => .refl b s

theorem finishDrive_calm (i : Nat) : Calm b s (finishDrive b i s) := by
  unfold finishDrive
  split
  · exact .refl b s
  · exact withChecks_calm _ _ fun _ => (endDrive_works _).calm

theorem actionReached_calm (c : Fin 14) : Calm b s (actionReached b c s) := by
  unfold actionReached
  split
  · exact .refl b s
  · exact (endAction_works _ _).calm.trans (finishDrive_calm _)

theorem settleMissed_calm : Calm b s (settleMissed b s) := by
  unfold settleMissed
  split
  · exact .refl b s
  · exact endWithChecks_calm _ _ _ fun _ => modSupply_calm _

theorem noAnswerDue_calm : Calm b s (noAnswerDue b s) := by
  unfold noAnswerDue
  split
  · exact .refl b s
  · exact endWithChecks_calm _ _ _ fun _ => modPanel_calm rfl

theorem settleFailed_calm : Calm b s (settleFailed b s) := by
  unfold settleFailed
  split
  · exact .refl b s
  · exact latchFault_calm _

theorem offTimeEnd_calm : Calm b s (offTimeEnd b s) := .ite (fun _ => modSupply_calm _) fun _ => .refl b s

theorem whenever_calm {c : Bool} {f : State → State} (h : Calm b s (f s)) : Calm b s (whenever c f s) :=
  .ite (fun _ => h) fun _ => .refl b s

end

end Sys2Proof.Machine

namespace Sys2Proof.Machine

open Sys2Proof

section
variable {b : Bay} {s t u : State} {k : Option OwnItem}

/-! ## What a bay's part of a boundary leaves as it is (R21, R79, R119) -/

/-- The frequency inputs stay, and no memory error is recorded but where a write of the hand-back is marked as one that
fails. -/
structure EdgesStay (b : Bay) (s t : State) : Prop where
  fi : (t.bay b).fi = (s.bay b).fi
  refused : (s.bay b).xu.refused = none → (t.bay b).xu.refused = none
  merr : (s.bay b).xu.refused = none → t.xu.merr = s.xu.merr

theorem EdgesStay.refl (b : Bay) (s : State) : EdgesStay b s s := ⟨rfl, id, fun _ => rfl⟩

theorem EdgesStay.trans (h : EdgesStay b s t) (g : EdgesStay b t u) : EdgesStay b s u :=
  ⟨g.fi.trans h.fi, fun hs => g.refused (h.refused hs), fun hs => (g.merr (h.refused hs)).trans (h.merr hs)⟩

theorem Calm.edges (h : Calm b s t) : EdgesStay b s t := ⟨h.fi, h.refused, h.merr⟩

theorem modBay_edges {f : BayState → BayState} (hf : (f (s.bay b)).fi = (s.bay b).fi)
    (hr : (f (s.bay b)).xu.refused = (s.bay b).xu.refused) : EdgesStay b s (s.modBay b f) :=
  ⟨by rw [bay_modBay, hf], fun h => by rw [bay_modBay, hr, h], fun _ => rfl⟩

/-! ### What is due before the boundary -/

theorem flagPacked_calm (e : Fin 16) : Calm b s (flagPacked b e s) :=
  forAll_calm _ fun _ _ => .ite (fun _ => (flagClamped_works _).calm) fun _ => .refl b _

theorem buildFrame_calm (e : Fin 16) (probe : Bool) : Calm b s (buildFrame b e probe s).2 := by
  simp only [buildFrame]
  exact (flagPacked_calm e).trans (modNet_calm _)

theorem releaseEntry_calm (e : Fin 16) : Calm b s (releaseEntry b e s) := by
  have hTaken : Calm b s (s.modNet b fun n => { n with work := tabSet n.work e { n.work[e] with due := false } }) :=
    modNet_calm _
  refine .ite (fun _ => hTaken.trans ?_) fun _ => hTaken
  exact .ite (fun _ => (buildFrame_calm _ _).trans (modNet_calm _)) fun _ => buildFrame_calm _ _

theorem makeProbe_calm : Calm b s (makeProbe b s) := by
  simp only [makeProbe]
  split
  · exact (buildFrame_calm _ _).trans (modNet_calm _)
  · exact .refl b s

theorem probeExpiry_calm : Calm b s (probeExpiry b s) := by
  unfold probeExpiry
  split
  · exact .refl b s
  · exact (modNet_calm _).trans makeProbe_calm

theorem settleBay_calm : Calm b s (settleBay b s) := by
  simp only [settleBay]
  refine .trans (.trans ?_ (forAll_calm _ fun i _ => timeoutEnd_calm i)) (modNet_calm (staleOverdue _))
  refine .trans (.trans (.trans ?_ (forAll_calm _ fun c _ => recognize_calm c)) offTimeEnd_calm) settleFailed_calm
  refine .trans (.trans (.trans ?_ (forAll_calm _ fun i _ => dwellEnd_calm i)) settleMissed_calm) noAnswerDue_calm
  refine .trans (.trans ?_ (forAll_calm _ fun c _ => actionReached_calm c)) settleChecks_calm
  exact .trans (forAll_calm _ fun e _ => whenever_calm (releaseEntry_calm e)) probeExpiry_calm

/-! ### The recognitions of the boundary, and its conversions -/

theorem lateFault_calm (c : Condition) : Calm b s (lateFault b c s) := by
  simp only [lateFault]
  split
  · exact modSupply_calm _
  · exact addReported_calm _
  · exact addReported_calm _
  · exact addReported_calm _
  · exact (addLatched_calm _).trans goHalted_calm
  · exact (addLatched_calm _).trans goHalted_calm
  · exact addLatched_calm _
  · exact addLatched_calm _
  · exact .refl b s

theorem lateFaults_calm (inp : BayInputs) : Calm b s (lateFaults b inp s) :=
  Calm.trans (modSupply_calm _) (forAll_calm _ fun c _ => lateFault_calm c)

theorem recognizeFirst_edges (inp : BayInputs) (c : Condition) : EdgesStay b s (recognizeFirst b inp c s) := by
  simp only [recognizeFirst]
  split
  · exact (modBay_edges rfl rfl).trans (recognize_calm c).edges
  · exact (recognize_calm c).edges

theorem recognitions_edges (inp : BayInputs) :
    EdgesStay b s (if inp.monitorFirst then forAll allConditions (recognizeFirst b inp) s else s) := by
  split
  · exact forAll_keeps (P := fun t => EdgesStay b s t) _ _ _ (.refl b s) fun c _ t ht => ht.trans (recognizeFirst_edges inp c)
  · exact .refl b s

/-- The frequencies of a stimulus unit follow its present values. -/
def FrequenciesFollow (u : Stimulus) : Prop := ∀ i : Fin 2, FrequencyOf u i

theorem FrequenciesFollow.of_same {u v : Stimulus} (h : FrequenciesFollow u) (hs : v.setup = u.setup) (hv : v.values = u.values)
    (hf : v.frequency = u.frequency) : FrequenciesFollow v := fun i => by
  have := h i
  rwa [FrequencyOf, hs, hv, hf]

theorem pulseFrequency_fst (v : Int) (c : PulseConv) : (pulseFrequency v c).1 =
    if v < 0 ∨ roundDiv (v * c.n) c.d < 100 then none else some (min 20000000 (roundDiv (v * c.n) c.d).toNat) := by
  unfold pulseFrequency
  generalize roundDiv (v * c.n) c.d = f
  by_cases h : v < 0 ∨ f < 100
  · rw [if_pos h, if_pos (by simpa using h)]
  · rw [if_neg h, if_neg (by simpa using h)]
    split
    · rw [Nat.min_eq_left (by omega)]
    · rw [Nat.min_eq_right (by omega)]

theorem computeFrequency_edges (i : Fin 2) : EdgesStay b s (computeFrequency b i s) := by
  simp only [computeFrequency]
  split
  · exact (modBay_edges rfl rfl).trans (flagClamped_works _).calm.edges
  · exact modBay_edges rfl rfl

theorem computeFrequency_frequency (i : Fin 2) : ((computeFrequency b i s).bay b).stim.frequency =
    tabSet (s.bay b).stim.frequency i
      (pulseFrequency (s.bay b).stim.values[pulseChannel i] (s.bay b).stim.setup.pulse[i]).1 := by
  simp only [computeFrequency]
  split
  · rw [(flagClamped_works _).calm.frequency, bay_modStim]
  · rw [bay_modStim]

/-- The frequencies are computed from the values of the boundary (R79). -/
theorem frequencies_computed : FrequenciesFollow ((forAll (indices 2) (computeFrequency b) s).bay b).stim := by
  intro i
  obtain ⟨-, u, F, -, hu, hb⟩ := computeFrequency_converts (b := b) (s := s) 0
  obtain ⟨-, v, G, -, hv, hc⟩ := computeFrequency_converts (b := b) (s := computeFrequency b 0 s) 1
  have hAll : forAll (indices 2) (computeFrequency b) s = computeFrequency b 1 (computeFrequency b 0 s) := rfl
  have hFirst : u.frequency = _ := (congrArg (fun y : BayState => y.stim.frequency) hb).symm.trans (computeFrequency_frequency 0)
  have hBoth : v.frequency = _ := (congrArg (fun y : BayState => y.stim.frequency) hc).symm.trans (computeFrequency_frequency 1)
  have hStim : ((computeFrequency b 0 s).bay b).stim = u := by rw [hb]
  rw [hStim] at hBoth hv
  rw [hAll, hc, FrequencyOf, ← pulseFrequency_fst, hv.setup, hv.values, hBoth, getElem_tabSet]
  match i with
  | 0 =>
    rw [if_neg (by decide), hFirst, hu.setup, hu.values]
    exact getElem_tabSet_self ..
  | 1 => rw [if_pos rfl]

theorem startGenerator_frequency (u : Stimulus) (i : Fin 2) : (startGenerator u i).frequency = u.frequency := by
  unfold startGenerator
  split <;> rfl

/-- The conversions: frequencies of the present values, and no value of a channel new (R78, R79). -/
theorem convertAll_follows : EdgesStay b s (convertAll b s) ∧ FrequenciesFollow ((convertAll b s).bay b).stim := by
  have hEdges : EdgesStay b s (forAll (indices 2) (computeFrequency b) s) :=
    forAll_keeps (P := fun t => EdgesStay b s t) _ _ _ (.refl b s) fun i _ _ h => h.trans (computeFrequency_edges i)
  generalize hv : forAll (indices 2) (computeFrequency b) s = v at hEdges
  have hFollow : FrequenciesFollow (v.bay b).stim := hv ▸ frequencies_computed
  have hGenerators (l : List (Fin 2)) (u : Stimulus) : (l.foldl startGenerator u).frequency = u.frequency := by
    induction l generalizing u with
    | nil => rfl
    | cons i l ih => exact (ih _).trans (startGenerator_frequency ..)
  have hStart : Calm b v (v.modStim b fun u => (indices 2).foldl startGenerator u) :=
    modStim_calm (startGenerators_converts ..).values (hGenerators ..)
  have hCalm := hStart.trans (forAll_calm (indices 4) fun i _ => (setLevel_works (b := b) i).calm)
  obtain ⟨-, u, F, -, hu, hb⟩ := Converts.trans (b := b) (s := v)
    (modStim_converts (f := fun u => (indices 2).foldl startGenerator u) (startGenerators_converts ..)) setLevels_converts
  have hAll : convertAll b s = forAll (indices 4) (setLevel b) (v.modStim b fun u => (indices 2).foldl startGenerator u) :=
    hv ▸ rfl
  rw [hAll]
  exact ⟨hEdges.trans hCalm.edges, hFollow.of_same (by rw [hb, hu.setup]) hCalm.values hCalm.frequency⟩

end

end Sys2Proof.Machine

namespace Sys2Proof.Machine

open Sys2Proof

section
variable {b : Bay} {s t u : State} {k : Option OwnItem}

/-! ## The bays one after the other -/

theorem Moves.bay_of_ne {o : Bay} (h : Moves k b s t) (ho : o ≠ b) : t.bay o = s.bay o := by
  rw [← outside_bay ho t, h.outside_eq, outside_bay ho]

/-- What no operation of a bay touches, a fold of them over the bays leaves as it is. -/
theorem forAll_bays_const {α : Type} (g : State → α) (hg : ∀ c v, g (outside c v) = g v) {f : Bay → State → State}
    (hf : ∀ c v, Moves k c v (f c v)) : g (forAll allBays f s) = g s :=
  forAll_keeps (P := fun t => g t = g s) _ _ _ rfl fun c _ t ht => by
    rw [← ht, ← hg c (f c t), (hf c t).outside_eq, hg c]

/-- A state that shows of one bay what another does, at the same time. -/
structure SameBay (b : Bay) (s t : State) : Prop where
  bay : t.bay b = s.bay b
  rackTime : t.rackTime = s.rackTime
  tick : t.tick = s.tick

theorem SameBay.refl (b : Bay) (s : State) : SameBay b s s := ⟨rfl, rfl, rfl⟩

theorem SameBay.other {o : Bay} (h : SameBay b s t) (m : Moves k o t u) (hb : b ≠ o) : SameBay b s u := by
  have keep {α : Type} (g : State → α) (hg : ∀ v, g (outside o v) = g v) : g u = g t := by
    rw [← hg u, m.outside_eq, hg t]
  exact ⟨(m.bay_of_ne hb).trans h.bay, (keep (·.rackTime) fun _ => rfl).trans h.rackTime,
    (keep (·.tick) fun _ => rfl).trans h.tick⟩

/-- In a fold over the bays each bay ends as its own operation leaves it, and the events set there stay. -/
theorem forAll_bays_own {f : Bay → State → State} (hf : ∀ c v, Moves k c v (f c v)) (hk : k ≠ some .events)
    (hi : k ≠ some .irqen) (b : Bay) (s : State) : ∃ v, SameBay b s v ∧
      (forAll allBays f s).bay b = (f b v).bay b ∧
      ∀ n, (f b v).xu.events.getLsbD n = true → (forAll allBays f s).xu.events.getLsbD n = true := by
  have hGrows (c : Bay) (v : State) : Grows v (f c v) := (hf c v).device.grows hk hi
  have stays (o c : Bay) (ho : o ≠ c) (v : State) : (f c v).bay o = v.bay o := (hf c v).bay_of_ne ho
  have hAll : forAll allBays f s = f .bay3 (f .bay2 (f .bay1 (f .bay0 s))) := rfl
  have h1 {o : Bay} (ho : o ≠ .bay0) : SameBay o s (f .bay0 s) := (SameBay.refl o s).other (hf ..) ho
  have h2 {o : Bay} (h : SameBay o s (f .bay0 s)) (ho : o ≠ .bay1) : SameBay o s (f .bay1 (f .bay0 s)) := h.other (hf ..) ho
  rw [hAll]
  cases b with
  | bay0 =>
    refine ⟨s, .refl _ s, ?_, fun n h => (hGrows ..).events n ((hGrows ..).events n ((hGrows ..).events n h))⟩
    rw [stays .bay0 .bay3 nofun, stays .bay0 .bay2 nofun, stays .bay0 .bay1 nofun]
  | bay1 =>
    refine ⟨_, h1 nofun, ?_, fun n h => (hGrows ..).events n ((hGrows ..).events n h)⟩
    rw [stays .bay1 .bay3 nofun, stays .bay1 .bay2 nofun]
  | bay2 =>
    have h0 : SameBay .bay2 s (f .bay0 s) := h1 nofun
    refine ⟨_, h2 h0 nofun, ?_, fun n h => (hGrows ..).events n h⟩
    rw [stays .bay2 .bay3 nofun]
  | bay3 =>
    have h0 : SameBay .bay3 s (f .bay0 s) := h1 nofun
    exact ⟨_, (h2 h0 nofun).other (hf .bay2 _) nofun, rfl, fun _ h => h⟩

/-- Without a write of a hand-back marked as one that fails, the bays' operations record no memory error. -/
theorem forAll_bays_merr {f : Bay → State → State} (hf : ∀ c v, Moves k c v (f c v)) (he : ∀ c v, (v.bay c).xu.refused = none →
      ((f c v).bay c).xu.refused = none ∧ (f c v).xu.merr = v.xu.merr)
    (hs : ∀ c, (s.bay c).xu.refused = none) :
    (∀ c, ((forAll allBays f s).bay c).xu.refused = none) ∧ (forAll allBays f s).xu.merr = s.xu.merr :=
  forAll_keeps (P := fun t => (∀ c, (t.bay c).xu.refused = none) ∧ t.xu.merr = s.xu.merr) _ _ _ ⟨hs, rfl⟩
    fun c _ t ⟨hRefused, hMerr⟩ => by
      refine ⟨fun o => ?_, (he c t (hRefused c)).2.trans hMerr⟩
      by_cases ho : o = c
      · subst ho
        exact (he o t (hRefused o)).1
      · rw [(hf c t).bay_of_ne ho]
        exact hRefused o

/-! ## One bay's part of a boundary in its stages -/

/-- The bay with its frequency inputs, its stopped actions and its supply monitor after the boundary's samples. -/
def bayWatched (b : Bay) (inp : BayInputs) (s : State) : State :=
  s.modBay b fun y => monitor inp { stopsAtBoundary inp s.rackTime y with fi := expireEdges s.tick y.fi }

/-- The bay after the recognitions, the counts and the conversions of the boundary, and its lid-closed look. -/
def bayCounted (b : Bay) (inp : BayInputs) (s : State) : State :=
  countBay b inp (if inp.monitorFirst then forAll allConditions (recognizeFirst b inp) (lateFaults b inp (bayWatched b inp s))
    else lateFaults b inp (bayWatched b inp s))

/-- The bay after its keys have been looked at. -/
def bayShown (b : Bay) (inp : BayInputs) (s : State) : State :=
  keysAtBoundary b inp (lidClosedAgain b (bayCounted b inp s))

theorem bayBoundary_eq (inputs : PerBay BayInputs) (b : Bay) (s : State) : bayBoundary inputs b s =
    settledBay b (clampTo 0 30000 (bayGet inputs b).supv) (bayShown b (bayGet inputs b) s) := rfl

/-- The look at the lid and the keys asks of the panel alone. -/
theorem bayShown_asks (inp : BayInputs) : PanelAsks b (bayCounted b inp s) (bayShown b inp s) := by
  have hLid : PanelAsks b (bayCounted b inp s) (lidClosedAgain b (bayCounted b inp s)) := by
    simp only [lidClosedAgain]
    split
    · exact (modPanel_asks rfl).trans (wantText_asks _)
    · exact .refl b _
  exact hLid.trans ((modPanel_asks rfl).trans pollKeys_asks_only)

theorem wantText_calm (x : FixedText) : Calm b s (wantText b x s) := (wantText_asks x).calm (wantText_lidMark x) (wantText_moves x)

theorem pollKeys_calm : Calm b s (pollKeys b s) := pollKeys_asks_only.calm pollKeys_lidMark pollKeys_moves

theorem powerSettled_calm (supv : Int) : Calm b s (powerSettled b supv s) := by
  unfold powerSettled
  split
  · exact .refl b s
  · exact withChecks_calm _ _ fun _ => (modSupply_calm _).trans (endStep_calm ..)

theorem settledBay_calm (supv : Int) : Calm b s (settledBay b supv s) := by
  unfold settledBay
  split
  · exact powerSettled_calm _
  · exact .ite (fun _ => retrySettled_calm) fun _ => .refl b s
  · exact .refl b s

theorem bayWatched_bay (inp : BayInputs) : (bayWatched b inp s).bay b =
    { stopsAtBoundary inp s.rackTime (s.bay b) with
      fi := expireEdges s.tick (s.bay b).fi
      supply := monitorBoundary (s.bay b).phase (clampTo 0 30000 inp.supv) (clampTo 0 10000 inp.supi) inp.lidOpen
        (s.bay b).supply } := by
  rw [bayWatched, bay_modBay]
  rfl

theorem countBay_follows (inp : BayInputs) :
    EdgesStay b s (countBay b inp s) ∧ FrequenciesFollow ((countBay b inp s).bay b).stim := by
  have hRun : EdgesStay b s (if (s.bay b).phase = .running then s.modBay b (countRunning inp s.rackTime) else s) := by
    split
    · exact modBay_edges rfl rfl
    · exact .refl b s
  generalize hv : (if (s.bay b).phase = .running then s.modBay b (countRunning inp s.rackTime) else s) = v at hRun
  have hCount : countBay b inp s = (convertAll b v).modNet b countReleases := by
    rw [← hv]
    rfl
  obtain ⟨hEdges, hFollow⟩ := convertAll_follows (b := b) (s := v)
  rw [hCount]
  refine ⟨hRun.trans (hEdges.trans (modNet_calm _).edges), ?_⟩
  rw [bay_modNet]
  exact hFollow

/-- What a bay shows after a boundary of its inputs, and of the memory errors. -/
structure Sampled (inp : BayInputs) (b : Bay) (s t : State) : Prop where
  lidOpen : (t.bay b).supply.lidOpen = inp.lidOpen
  attention : (t.bay b).panel.attention = inp.attention
  fi : (t.bay b).fi = expireEdges s.tick (s.bay b).fi
  follow : FrequenciesFollow (t.bay b).stim

theorem bayCounted_follows (inp : BayInputs) : EdgesStay b (bayWatched b inp s) (bayCounted b inp s) ∧
    FrequenciesFollow ((bayCounted b inp s).bay b).stim := by
  obtain ⟨hEdges, hFollow⟩ := countBay_follows (b := b) (s := if inp.monitorFirst then
    forAll allConditions (recognizeFirst b inp) (lateFaults b inp (bayWatched b inp s))
    else lateFaults b inp (bayWatched b inp s)) inp
  exact ⟨(lateFaults_calm inp).edges.trans ((recognitions_edges inp).trans hEdges), hFollow⟩

theorem bayShown_edges (inp : BayInputs) : EdgesStay b (bayCounted b inp s) (bayShown b inp s) := by
  obtain ⟨p, f, -, hb⟩ := (bayShown_asks (b := b) (s := s) inp).bay
  exact ⟨by rw [hb], fun h => by rw [hb]; exact h, fun _ => by rw [(bayShown_asks inp).xu]⟩

theorem bayShown_attention (inp : BayInputs) : ((bayShown b inp s).bay b).panel.attention = inp.attention := by
  simp only [bayShown, keysAtBoundary]
  rw [pollKeys_calm.attention, bay_modPanel]

theorem bayBoundary_edges (inputs : PerBay BayInputs) :
    EdgesStay b (bayWatched b (bayGet inputs b) s) (bayBoundary inputs b s) := by
  rw [bayBoundary_eq]
  exact (bayCounted_follows _).1.trans ((bayShown_edges _).trans (settledBay_calm _).edges)

theorem bayBoundary_sampled (inputs : PerBay BayInputs) : Sampled (bayGet inputs b) b s (bayBoundary inputs b s) := by
  have hEdges := bayBoundary_edges (b := b) (s := s) inputs
  have hWatched := bayWatched_bay (b := b) (s := s) (bayGet inputs b)
  rw [bayBoundary_eq] at hEdges ⊢
  have hCalm : Calm b _ _ := settledBay_calm (b := b) (s := bayShown b (bayGet inputs b) s)
    (clampTo 0 30000 (bayGet inputs b).supv)
  obtain ⟨p, f, -, hb⟩ := (bayShown_asks (b := b) (s := s) (bayGet inputs b)).bay
  have hMoves : Moves none b (bayWatched b (bayGet inputs b) s) (bayShown b (bayGet inputs b) s) :=
    .trans (.trans (.trans (.trans (lateFaults_moves _) (monitorFirst_moves _)) (countBay_moves _)) lidClosedAgain_moves)
      (keysAtBoundary_moves _)
  have hSettled : Moves none b _ _ := settledBay_moves (k := none) (b := b) (s := bayShown b (bayGet inputs b) s)
    (clampTo 0 30000 (bayGet inputs b).supv)
  refine ⟨?_, hCalm.attention.trans (bayShown_attention _), ?_, ?_⟩
  · rw [(hSettled.device.keeps.bays b).lidOpen nofun, (hMoves.device.keeps.bays b).lidOpen nofun, hWatched]
    rfl
  · rw [hEdges.fi, hWatched]
  · have hFollow : FrequenciesFollow ((bayShown b (bayGet inputs b) s).bay b).stim := by
      rw [hb]
      exact (bayCounted_follows _).2
    exact hFollow.of_same ((hSettled.device.keeps.bays b).stim nofun) hCalm.values hCalm.frequency

end

end Sys2Proof.Machine

namespace Sys2Proof.Machine

open Sys2Proof

section
variable {b : Bay} {s t u : State} {c d : Condition}

/-! ## Recognitions of a boundary of the same event as an entry to CLOSING taken first (R157) -/

theorem condGet_condSet {α : Type} (t : PerCondition α) (c d : Condition) (x : α) :
    condGet (condSet t c x) d = if d = c then x else condGet t d := by
  cases c <;> cases d <;> rfl

theorem or_and_own (l f : FaultSet) : (l ||| f) &&& f = f := by
  ext i hi
  simp only [BitVec.getElem_or, BitVec.getElem_and]
  cases f[i] <;> simp

theorem addReported_bay (f : FaultSet) : ∃ w, (addReported b f s).bay b = { s.bay b with
    xu := { (s.bay b).xu with write := w }
    supply := { (s.bay b).supply with reported := (s.bay b).supply.reported ||| f } } := by
  unfold addReported
  split
  · next h => exact ⟨(s.bay b).xu.write, by rw [h]⟩
  · exact ⟨_, by rw [triggerBay_self, bay_modSupply]⟩

/-- What the recognitions leave of a bay that is in CLOSING or has ended it: its run, the marks and faults it has, and its
state, but that a bay in IDLE may be HALTED with ALERT. -/
structure LateKeeps (b : Bay) (s t : State) : Prop where
  run : (t.bay b).run = (s.bay b).run
  setup : (t.bay b).supply.setup = (s.bay b).supply.setup
  pending : ∀ c, (condGet (s.bay b).supply.watches c).pending = true →
    (condGet (t.bay b).supply.watches c).pending = true
  latched : ∀ f, (s.bay b).supply.latched &&& f = f → (t.bay b).supply.latched &&& f = f
  reported : ∀ f, (s.bay b).supply.reported &&& f = f → (t.bay b).supply.reported &&& f = f
  closing : (s.bay b).phase = .closing → (t.bay b).phase = .closing
  halted : (s.bay b).phase = .halted → (t.bay b).phase = .halted
  offline : (s.bay b).phase = .offline → (t.bay b).phase = .offline ∧ (t.bay b).supply.latched = (s.bay b).supply.latched
  idle : (s.bay b).phase = .idle →
    (t.bay b).phase = .idle ∨ (t.bay b).phase = .halted ∧ t.xu.events.getLsbD (alertBit b) = true
  events : ∀ n, s.xu.events.getLsbD n = true → t.xu.events.getLsbD n = true

theorem LateKeeps.refl (b : Bay) (s : State) : LateKeeps b s s :=
  ⟨rfl, rfl, fun _ => id, fun _ => id, fun _ => id, id, id, fun h => ⟨h, rfl⟩, .inl, fun _ => id⟩

theorem LateKeeps.trans (h : LateKeeps b s t) (g : LateKeeps b t u) : LateKeeps b s u where
  run := g.run.trans h.run
  setup := g.setup.trans h.setup
  pending c hc := g.pending c (h.pending c hc)
  latched f hf := g.latched f (h.latched f hf)
  reported f hf := g.reported f (h.reported f hf)
  closing hs := g.closing (h.closing hs)
  halted hs := g.halted (h.halted hs)
  offline hs := by
    obtain ⟨ht, hl⟩ := h.offline hs
    obtain ⟨hu, gl⟩ := g.offline ht
    exact ⟨hu, gl.trans hl⟩
  idle hs := by
    rcases h.idle hs with ht | ⟨ht, he⟩
    · exact g.idle ht
    · exact .inr ⟨g.halted ht, g.events _ he⟩
  events n hn := g.events n (h.events n hn)

theorem Moves.events {k : Option OwnItem} (h : Moves k b s t) (hk : k ≠ some .events) (hi : k ≠ some .irqen) (n : Nat)
    (hn : s.xu.events.getLsbD n = true) : t.xu.events.getLsbD n = true := (h.device.grows hk hi).events n hn

/-- A recognition in CLOSING waits to be acted on. -/
def lateMarked (b : Bay) (c : Condition) (s : State) : State := s.modSupply b fun p =>
  { p with watches := condSet p.watches c { condGet p.watches c with pending := true } }

theorem lateMarked_keeps : LateKeeps b s (lateMarked b c s) := by
  have hBay : (lateMarked b c s).bay b = _ := bay_modSupply ..
  refine ⟨by rw [hBay], by rw [hBay], fun d hd => ?_, fun f => by rw [hBay]; exact id, fun f => by rw [hBay]; exact id,
    fun h => by rw [hBay]; exact h, fun h => by rw [hBay]; exact h, fun h => by rw [hBay]; exact ⟨h, rfl⟩,
    fun h => .inl (by rw [hBay]; exact h), fun _ => id⟩
  rw [hBay]
  simp only [condGet_condSet]
  split
  · rfl
  · exact hd

theorem addReported_late (f : FaultSet) : LateKeeps b s (addReported b f s) := by
  obtain ⟨w, hBay⟩ := addReported_bay (b := b) (s := s) f
  exact ⟨by rw [hBay], by rw [hBay], fun d => by rw [hBay]; exact id, fun g => by rw [hBay]; exact id,
    fun g => by rw [hBay]; exact or_and_of_and f,
    fun h => by rw [hBay]; exact h, fun h => by rw [hBay]; exact h, fun h => by rw [hBay]; exact ⟨h, rfl⟩,
    fun h => .inl (by rw [hBay]; exact h), Moves.events (addReported_moves (k := none) f) nofun nofun⟩

theorem addLatched_late (f : FaultSet) (hp : (s.bay b).phase ≠ .offline) : LateKeeps b s (addLatched b f s) := by
  obtain ⟨w, hBay⟩ := addLatched_bay (b := b) (s := s) f
  exact ⟨by rw [hBay], by rw [hBay], fun d => by rw [hBay]; exact id, fun g => by rw [hBay]; exact or_and_of_and f,
    fun g => by rw [hBay]; exact id, fun h => by rw [hBay]; exact h, fun h => by rw [hBay]; exact h,
    fun h => absurd h hp, fun h => .inl (by rw [hBay]; exact h),
    Moves.events (addLatched_moves (k := none) f) nofun nofun⟩

theorem goHalted_alert : (goHalted b s).xu.events.getLsbD (alertBit b) = true := by
  rw [goHalted, setEvent_events, getLsbD_setBit _ (by cases b <;> decide)]
  simp

theorem goHalted_late (hp : (s.bay b).phase = .idle) : LateKeeps b s (goHalted b s) := by
  obtain ⟨w, hBay⟩ := goHalted_bay (b := b) (s := s)
  exact ⟨by rw [hBay], by rw [hBay], fun d => by rw [hBay]; exact id, fun g => by rw [hBay]; exact id,
    fun g => by rw [hBay]; exact id, fun h => absurd (hp.symm.trans h) nofun, fun _ => by rw [hBay],
    fun h => absurd (hp.symm.trans h) nofun, fun _ => .inr ⟨by rw [hBay], goHalted_alert⟩,
    Moves.events (goHalted_moves (k := none)) nofun nofun⟩

/-! ### One recognition, by the bay state and the condition's mode -/

theorem lateFault_closing (hp : (s.bay b).phase = .closing) : lateFault b c s = lateMarked b c s := by
  simp only [lateFault, hp]
  rfl

theorem lateFault_report (hp : (s.bay b).phase = .idle ∨ (s.bay b).phase = .halted ∨ (s.bay b).phase = .offline)
    (hm : condGet (s.bay b).supply.setup.modes c = .report) : lateFault b c s = addReported b (condBit c) s := by
  rcases hp with hp | hp | hp <;> simp only [lateFault, hp, hm]

theorem lateFault_idle (hp : (s.bay b).phase = .idle)
    (hm : condGet (s.bay b).supply.setup.modes c = .latch ∨ condGet (s.bay b).supply.setup.modes c = .retry) :
    lateFault b c s = goHalted b (addLatched b (condBit c) s) := by
  rcases hm with hm | hm <;> simp only [lateFault, hp, hm]

theorem lateFault_halted (hp : (s.bay b).phase = .halted)
    (hm : condGet (s.bay b).supply.setup.modes c = .latch ∨ condGet (s.bay b).supply.setup.modes c = .retry) :
    lateFault b c s = addLatched b (condBit c) s := by
  rcases hm with hm | hm <;> simp only [lateFault, hp, hm]

theorem lateFault_keeps : LateKeeps b s (lateFault b c s) := by
  have hHalts (hp : (s.bay b).phase = .idle) : LateKeeps b s (goHalted b (addLatched b (condBit c) s)) := by
    obtain ⟨w, hBay⟩ := addLatched_bay (b := b) (s := s) (condBit c)
    exact (addLatched_late _ (by rw [hp]; nofun)).trans (goHalted_late (by rw [hBay]; exact hp))
  simp only [lateFault]
  split
  · exact lateMarked_keeps
  · exact addReported_late _
  · exact addReported_late _
  · exact addReported_late _
  · exact hHalts ‹_›
  · exact hHalts ‹_›
  · exact addLatched_late _ (by simp only [*]; nofun)
  · exact addLatched_late _ (by simp only [*]; nofun)
  · exact .refl b s

/-- What one recognition does. -/
structure LateTaken (b : Bay) (c : Condition) (s t : State) : Prop where
  marks : (s.bay b).phase = .closing → (condGet (t.bay b).supply.watches c).pending = true
  latches : condGet (s.bay b).supply.setup.modes c = .latch ∨ condGet (s.bay b).supply.setup.modes c = .retry →
    ((s.bay b).phase = .idle → t.xu.events.getLsbD (alertBit b) = true) ∧
    ((s.bay b).phase = .idle ∨ (s.bay b).phase = .halted →
      (t.bay b).phase = .halted ∧ (t.bay b).supply.latched &&& condBit c = condBit c)
  reports : condGet (s.bay b).supply.setup.modes c = .report →
    (s.bay b).phase = .idle ∨ (s.bay b).phase = .halted ∨ (s.bay b).phase = .offline →
    (t.bay b).supply.reported &&& condBit c = condBit c

theorem lateFault_taken : LateTaken b c s (lateFault b c s) := by
  refine ⟨fun hp => ?_, fun hm => ⟨fun hp => ?_, fun hp => ?_⟩, fun hm hp => ?_⟩
  · rw [lateFault_closing hp, lateMarked, bay_modSupply]
    simp only [condGet_condSet, if_true]
  · rw [lateFault_idle hp hm]
    exact goHalted_alert
  · obtain ⟨w, hBay⟩ := addLatched_bay (b := b) (s := s) (condBit c)
    rcases hp with hp | hp
    · obtain ⟨x, hHalted⟩ := goHalted_bay (b := b) (s := addLatched b (condBit c) s)
      rw [lateFault_idle hp hm, hHalted, hBay]
      exact ⟨rfl, or_and_own ..⟩
    · rw [lateFault_halted hp hm, hBay]
      exact ⟨hp, or_and_own ..⟩
  · obtain ⟨w, hBay⟩ := addReported_bay (b := b) (s := s) (condBit c)
    rw [lateFault_report hp hm, hBay]
    exact or_and_own ..

/-- A recognition stands after those before and after it. -/
theorem LateTaken.between {v : State} (h : LateKeeps b s t) (g : LateTaken b c t u) (hu : LateKeeps b t u) (k : LateKeeps b u v) :
    LateTaken b c s v where
  marks hp := k.pending c (g.marks (h.closing hp))
  latches hm := by
    rw [← h.setup] at hm
    obtain ⟨gIdle, gHalts⟩ := g.latches hm
    refine ⟨fun hp => ?_, fun hp => ?_⟩
    · rcases h.idle hp with ht | ⟨-, he⟩
      · exact k.events _ (gIdle ht)
      · exact k.events _ (hu.events _ he)
    · have ht : (t.bay b).phase = .idle ∨ (t.bay b).phase = .halted :=
        hp.elim (fun hp => (h.idle hp).imp_right And.left) fun hp => .inr (h.halted hp)
      obtain ⟨hHalted, hLatched⟩ := gHalts ht
      exact ⟨k.halted hHalted, k.latched _ hLatched⟩
  reports hm hp := by
    rw [← h.setup] at hm
    refine k.reported _ (g.reports hm ?_)
    rcases hp with hp | hp | hp
    · exact (h.idle hp).imp_right fun ht => .inl ht.1
    · exact .inr (.inl (h.halted hp))
    · exact .inr (.inr (h.offline hp).1)

theorem forAll_lateKeeps (l : List Condition) : LateKeeps b s (forAll l (lateFault b) s) :=
  forAll_keeps (P := fun t => LateKeeps b s t) _ _ _ (.refl b s) fun _ _ _ h => h.trans lateFault_keeps

theorem forAll_lateTaken {l : List Condition} (hc : c ∈ l) : LateTaken b c s (forAll l (lateFault b) s) := by
  obtain ⟨xs, ys, rfl⟩ := List.append_of_mem hc
  have hSplit : forAll (xs ++ c :: ys) (lateFault b) s =
      forAll ys (lateFault b) (lateFault b c (forAll xs (lateFault b) s)) := by
    simp only [forAll, List.foldl_append, List.foldl_cons]
  rw [hSplit]
  exact .between (forAll_lateKeeps xs) lateFault_taken lateFault_keeps (forAll_lateKeeps ys)

/-! ### All of them -/

/-- The supply monitor without the watches left at an entry to CLOSING. -/
def watchesDropped (b : Bay) (s : State) : State :=
  s.modSupply b fun p => { p with atClosing := ⟨none, none, none, none⟩ }

theorem lateFaults_eq (inp : BayInputs) : lateFaults b inp s =
    forAll (lateConditions inp (s.bay b)) (lateFault b) (watchesDropped b s) := rfl

/-- In a bay that has not entered CLOSING nothing is recognized late. -/
theorem lateFaults_standing {inp : BayInputs} (h : lateConditions inp (s.bay b) = [] ∨ (s.bay b).phase ≠ .closing ∧
    (s.bay b).phase ≠ .idle ∧ (s.bay b).phase ≠ .halted ∧ (s.bay b).phase ≠ .offline) :
    lateFaults b inp s = watchesDropped b s := by
  rw [lateFaults_eq]
  rcases h with h | ⟨hClosing, hIdle, hHalted, hOffline⟩
  · rw [h]
    rfl
  · refine forAll_keeps (P := fun t => t = watchesDropped b s) _ _ _ rfl fun c _ t ht => ?_
    have hPhase : (t.bay b).phase = (s.bay b).phase := by rw [ht, watchesDropped, bay_modSupply]
    rw [← hPhase] at hClosing hIdle hHalted hOffline
    refine Eq.trans ?_ ht
    simp only [lateFault]
    split <;> simp_all

theorem mem_allConditions (c : Condition) : c ∈ allConditions := by cases c <;> decide

end

end Sys2Proof.Machine

namespace Sys2Proof.Machine

open Sys2Proof

section
variable {b : Bay} {s t u : State} {inp : BayInputs} {now : RackTime} {y z : BayState}

/-! ## The values left by actions stopped at the boundary's event (R76, R77) -/

/-- What one channel takes of a stop or abort. -/
def handOne (here : Handed → Bool) (v : Stimulus) (c : Fin 14) : Stimulus :=
  match v.actions[c], handedValue here v.stopped[c] with
  | none, some x => { v with values := tabSet v.values c x }
  | _, _ => v

theorem handStopped_eq (here : Handed → Bool) (u : Stimulus) : handStopped here u = (indices 14).foldl (handOne here) u := rfl

theorem handOne_other (here : Handed → Bool) : OneChannel (handOne here) := by
  intro v c d hd
  unfold handOne
  split
  · exact ⟨(getElem_tabSet ..).trans (if_neg hd), rfl, rfl⟩
  · exact ⟨rfl, rfl, rfl⟩

theorem handStopped_values (here : Handed → Bool) (u : Stimulus) (c : Fin 14) :
    (u.actions[c] ≠ none → (handStopped here u).values[c] = u.values[c]) ∧
      (u.actions[c] = none → (handStopped here u).values[c] = (handedValue here u.stopped[c]).getD u.values[c]) := by
  obtain ⟨v, w, hv, ha, hs, hw, hValue, -⟩ := foldl_channel (handOne_other here) u c
  rw [handStopped_eq, hw, hValue, handOne, ha, hs]
  refine ⟨fun hNot => ?_, fun hNone => ?_⟩
  · obtain ⟨a, ha⟩ := Option.ne_none_iff_exists'.1 hNot
    simp only [ha]
    exact hv
  · rcases Option.eq_none_or_eq_some (handedValue here u.stopped[c]) with hh | ⟨x, hh⟩ <;> simp only [hNone, hh]
    · exact hv
    · exact getElem_tabSet_self ..

/-! ## A bay before its counts -/

/-- The supply monitor after a boundary's samples and late recognitions that leave it be. -/
def supplySampled (inp : BayInputs) (y : BayState) : Supply :=
  { monitorBoundary y.phase (clampTo 0 30000 inp.supv) (clampTo 0 10000 inp.supi) inp.lidOpen y.supply with
    atClosing := ⟨none, none, none, none⟩ }

/-- The bay after the boundary's samples. -/
def baySampled (inp : BayInputs) (now : RackTime) (tick : Nat) (y : BayState) : BayState :=
  { stopsAtBoundary inp now y with fi := expireEdges tick y.fi, supply := supplySampled inp y }

theorem watchesDropped_bay (inp : BayInputs) : (watchesDropped b (bayWatched b inp s)).bay b =
    baySampled inp s.rackTime s.tick (s.bay b) := by
  rw [watchesDropped, bay_modSupply, bayWatched_bay]
  rfl

/-- Whether a condition is recognized late at a boundary of a bay's inputs. -/
def RecognizedLate (inp : BayInputs) (y : BayState) (c : Condition) : Prop :=
  inp.stopsHere = true ∧ ∃ w, condGet y.supply.atClosing c = some w ∧ w.recognized = false ∧
    condGet y.supply.setup.deglitch c ≤ w.count + 1 ∧
    conditionShown (supplySampled inp y) (clampTo 0 30000 inp.supv) (clampTo 0 10000 inp.supi) c = true

theorem mem_lateConditions {c : Condition} :
    c ∈ lateConditions inp ((bayWatched b inp s).bay b) ↔ RecognizedLate inp (s.bay b) c := by
  have hShown (p : Supply) : conditionShown { p with atClosing := ⟨none, none, none, none⟩ } = conditionShown p := by
    funext x y c
    cases c <;> rfl
  have hSamples : sampleOf ((bayWatched b inp s).bay b) inp 19 = (clampTo 0 30000 inp.supv, true) ∧
      sampleOf ((bayWatched b inp s).bay b) inp 20 = (clampTo 0 10000 inp.supi, true) := ⟨rfl, rfl⟩
  rw [RecognizedLate, supplySampled, hShown, lateConditions, hSamples.1, hSamples.2, bayWatched_bay]
  split
  · next h =>
    rw [List.mem_filter, recognizedLate_iff, and_iff_right (by cases c <;> decide), and_iff_right h]
    exact Iff.rfl
  · next h => exact ⟨nofun, fun hc => absurd hc.1 h⟩

theorem bayCounted_second (hf : inp.monitorFirst = false) :
    bayCounted b inp s = countBay b inp (lateFaults b inp (bayWatched b inp s)) := by
  rw [bayCounted, hf, if_neg Bool.false_ne_true]

theorem bayWatched_rackTime : (lateFaults b inp (bayWatched b inp s)).rackTime = s.rackTime :=
  (Moves.rackTime (k := none) (lateFaults_moves (b := b) (s := bayWatched b inp s) inp)).trans rfl

/-- A bay in which nothing is recognized late, after its counts and conversions. -/
theorem bayCounted_standing (hf : inp.monitorFirst = false)
    (h : (∀ c, ¬RecognizedLate inp (s.bay b) c) ∨ (s.bay b).phase ≠ .closing ∧ (s.bay b).phase ≠ .idle ∧
      (s.bay b).phase ≠ .halted ∧ (s.bay b).phase ≠ .offline) :
    ∃ x F n, FlagsOnly F ∧
      StimConverts (countedBay inp s.rackTime (baySampled inp s.rackTime s.tick (s.bay b))).stim x ∧
      (bayCounted b inp s).bay b = { countedBay inp s.rackTime (baySampled inp s.rackTime s.tick (s.bay b)) with
        stim := x
        net := n
        run := { (s.bay b).run with
          inFlight := (countedBay inp s.rackTime (baySampled inp s.rackTime s.tick (s.bay b))).run.inFlight.map F } } := by
  have hStanding : lateFaults b inp (bayWatched b inp s) = watchesDropped b (bayWatched b inp s) := by
    refine lateFaults_standing (h.imp (fun hNone => ?_) fun hPhase => ?_)
    · exact List.eq_nil_iff_forall_not_mem.2 fun c hc => hNone c (mem_lateConditions.1 hc)
    · rw [bayWatched_bay]
      exact hPhase
  obtain ⟨x, F, hF, hx, hBay⟩ := countBay_bay (b := b) (s := lateFaults b inp (bayWatched b inp s)) inp
  rw [bayWatched_rackTime, hStanding, watchesDropped_bay] at hx hBay
  rw [bayCounted_second hf, hStanding]
  exact ⟨x, F, _, hF, hx, hBay⟩

/-! ## A RUNNING bay without an end that comes with the boundary -/

/-- Whether the start of a step in flight coincides with the boundary. -/
def startsNow (inp : BayInputs) (now : RackTime) (e : InFlight) : Bool := decide (StartsHere inp now e.index e.start e.early)

/-- Whether the step of an index is in flight with such a start. -/
def stepStartsNow (inp : BayInputs) (now : RackTime) (y : BayState) (i : Nat) : Bool :=
  (findInFlight y.run i).any (startsNow inp now)

theorem stepStartsAt_now : stepStartsAt inp now y.run = stepStartsNow inp now y := funext fun _ => stepStartsAt_eq ..

/-- The settle judgement after its count (R145). -/
def settleCounted (inp : BayInputs) (now : RackTime) (y : BayState) : Option Settle :=
  y.supply.settle.map fun j => { j with count := if stepStartsNow inp now y j.step then j.count else j.count + 1 }

/-- A RUNNING bay counted at a boundary. -/
structure RunCounted (inp : BayInputs) (now : RackTime) (y z : BayState) : Prop where
  phase : z.phase = .running
  starting : ∀ (c : Fin 14) (a : Action), y.stim.actions[c] = some a → stepStartsNow inp now y a.step = true →
    Handing inp now a.older y.stim.values[c] z.stim.values[c]
  advanced : ∀ c : Fin 14, (∀ a, y.stim.actions[c] = some a → stepStartsNow inp now y a.step = false) →
    z.stim.values[c] = (advanceChannel y.stim c).values[c]
  supply : z.supply = { supplySampled inp y with settle := settleCounted inp now y }
  timeouts : z.run.inFlight.map (fun e => (e.index, e.timeout)) = y.run.inFlight.map fun e =>
    (e.index, if startsNow inp now e then e.timeout else e.timeout.map fun n => n - 1)
  entries : ∀ e ∈ y.run.inFlight, ∃ g ∈ z.run.inFlight, g.index = e.index ∧
    (startsNow inp now e = true → g.work = e.work) ∧
    (startsNow inp now e = false →
      (∀ n, e.work = .dwell n → g.work = .dwell (n - 1)) ∧
      ∀ c, e.work = .check c → ∃ x, g.work = .check x ∧ x.k = c.k + 1 ∧ x.period = c.period)

/-- What the panel asks for does not show in a bay's run. -/
theorem RunCounted.asks (h : RunCounted inp now y (s.bay b)) (g : PanelAsks b s t) : RunCounted inp now y (t.bay b) := by
  obtain ⟨p, f, -, hb⟩ := g.bay
  rw [hb]
  exact ⟨h.phase, h.starting, h.advanced, h.supply, h.timeouts, h.entries⟩

theorem stopsAtBoundary_running (hp : y.phase = .running) : stopsAtBoundary inp now y =
    { y with stim := { y.stim with stopped := Vector.replicate 14 [] } } := by
  simp only [stopsAtBoundary, hp, ne_eq, not_true_eq_false, decide_false, Bool.and_false, Bool.false_eq_true, if_false]

theorem advanceChannel_values_stopped (u : Stimulus) (x : Vector (List Handed) 14) (c : Fin 14) :
    (advanceChannel { u with stopped := x } c).values = (advanceChannel u c).values := by
  unfold advanceChannel
  dsimp only
  split
  · rfl
  · split <;> rfl

theorem baySampled_running {tick : Nat} (hp : y.phase = .running) : (baySampled inp now tick y).phase = .running ∧
    (baySampled inp now tick y).run = y.run ∧
    (baySampled inp now tick y).stim = { y.stim with stopped := Vector.replicate 14 [] } ∧
    (baySampled inp now tick y).supply = supplySampled inp y := by
  rw [baySampled, stopsAtBoundary_running hp]
  exact ⟨hp, rfl, rfl, rfl⟩

theorem bayCounted_running (hf : inp.monitorFirst = false) (hp : (s.bay b).phase = .running) :
    RunCounted inp s.rackTime (s.bay b) ((bayCounted b inp s).bay b) := by
  obtain ⟨x, F, n, hF, hx, hBay⟩ := bayCounted_standing (b := b) (s := s) hf (.inr (by rw [hp]; exact ⟨nofun, nofun, nofun, nofun⟩))
  obtain ⟨hPhase, hRun, hStim, hSupply⟩ := baySampled_running (inp := inp) (now := s.rackTime) (tick := s.tick) hp
  generalize baySampled inp s.rackTime s.tick (s.bay b) = w at hx hBay hPhase hRun hStim hSupply
  rw [countedBay_running hPhase] at hx hBay
  rw [countRunning_stim, hRun, stepStartsAt_now, hStim] at hx
  rw [hBay]
  refine ⟨hPhase, fun c a ha hStart => ?_, fun c hNot => ?_, ?_, ?_, fun e he => ?_⟩
  · have hAdvanced := (advanceAll_channel (stepStartsNow inp s.rackTime (s.bay b)) (handedAt inp s.rackTime)
      { (s.bay b).stim with stopped := Vector.replicate 14 [] } c).1
    dsimp only at hAdvanced
    rw [ha] at hAdvanced
    have hHanding := (channelAfter_start (inp := inp) (now := s.rackTime)
      (atStart := stepStartsNow inp s.rackTime (s.bay b)) hStart (s.bay b).stim.values[c]).1
    rw [hx.values, hAdvanced]
    exact hHanding
  · rw [hx.values, ← advanceChannel_values_stopped (s.bay b).stim (Vector.replicate 14 [])]
    exact advanceAll_values_of_not_start hNot
  · refine (countSettle_settle ..).trans ?_
    rw [hRun, stepStartsAt_now, hSupply, settleCounted]
    rfl
  · exact (hF.timeouts ..).trans (by rw [hRun]; rfl)
  · obtain ⟨g, hg, hi, hStart, hCounts⟩ := hF.counted inp s.rackTime w (hRun ▸ he)
    refine ⟨g, hg, hi, hStart, fun hNot => ?_⟩
    obtain ⟨hDwell, hCheck⟩ := hCounts hNot
    refine ⟨hDwell, fun c hc => ?_⟩
    obtain ⟨w, hw, hk, hPeriod, -⟩ := hCheck c hc
    exact ⟨w, hw, hk, hPeriod⟩

/-- Without a judgement that finds the supply inside its window, no end comes with the boundary. -/
theorem settledBay_unsettled {supv : Int} (hp : (s.bay b).phase = .running)
    (h : ∀ j, (s.bay b).supply.settle = some j → j.count = 0 ∨ inSettleWindow (s.bay b).supply.setting supv = false) :
    settledBay b supv s = s := by
  have hNone : settledStep (s.bay b) supv = none := by
    unfold settledStep
    split
    · next j _ hj =>
      refine if_neg fun hw => ?_
      obtain ⟨hCount, hWindow⟩ := Bool.and_eq_true_iff.1 hw
      rcases h j hj with hc | hw
      · exact absurd (decide_eq_true_iff.1 hCount) (by omega)
      · exact absurd (hw.symm.trans hWindow) nofun
    · rfl
  rw [settledBay, hp]
  simp only [powerSettled, hNone]

theorem bayBoundary_running (inputs : PerBay BayInputs) (hf : (bayGet inputs b).monitorFirst = false)
    (hp : (s.bay b).phase = .running)
    (hs : (s.bay b).supply.settle = none ∨
      inSettleWindow (s.bay b).supply.setting (clampTo 0 30000 (bayGet inputs b).supv) = false ∨
      ∃ j, (s.bay b).supply.settle = some j ∧ j.count = 0 ∧
        stepStartsNow (bayGet inputs b) s.rackTime (s.bay b) j.step = true) :
    RunCounted (bayGet inputs b) s.rackTime (s.bay b) ((bayBoundary inputs b s).bay b) := by
  have hCounted := (bayCounted_running (b := b) hf hp).asks (bayShown_asks (bayGet inputs b))
  rw [bayBoundary_eq, settledBay_unsettled hCounted.phase fun j hj => ?_]
  · exact hCounted
  · rw [hCounted.supply] at hj ⊢
    simp only [settleCounted, Option.map_eq_some_iff] at hj
    obtain ⟨i, hi, rfl⟩ := hj
    rcases hs with hs | hs | ⟨k, hk, hZero, hStart⟩
    · exact absurd (hs.symm.trans hi) nofun
    · exact .inr hs
    · obtain rfl := Option.some.inj (hk.symm.trans hi)
      refine .inl ?_
      dsimp only
      rw [hStart, if_pos rfl, hZero]

end

end Sys2Proof.Machine

namespace Sys2Proof.Machine

open Sys2Proof

section
variable {b : Bay} {s t u : State} {inp : BayInputs} {now : RackTime} {tick : Nat} {y z : BayState}

/-! ## A bay that is not RUNNING at a boundary (R43, R47, R76, R77, R157) -/

/-- The channels, the clocks and the run of a bay that is not RUNNING. -/
structure Stands (inp : BayInputs) (now : RackTime) (y z : BayState) : Prop where
  kept : ∀ c : Fin 14, inp.stopsHere = false ∨ y.stim.actions[c] ≠ none → z.stim.values[c] = y.stim.values[c]
  handed : ∀ c : Fin 14, inp.stopsHere = true → y.stim.actions[c] = none →
    Handing inp now y.stim.stopped[c] y.stim.values[c] z.stim.values[c]
  clocks : z.run.inFlight.map (fun e => (e.index, e.timeout, e.work)) =
    y.run.inFlight.map fun e => (e.index, e.timeout, e.work)

theorem baySampled_fields : (baySampled inp now tick y).phase = y.phase ∧ (baySampled inp now tick y).run = y.run ∧
    (baySampled inp now tick y).supply = supplySampled inp y := ⟨rfl, rfl, rfl⟩

theorem baySampled_stands (hp : y.phase ≠ .running) : Stands inp now y (baySampled inp now tick y) := by
  refine ⟨fun c hc => ?_, fun c hStops hNone => ?_, rfl⟩
  · simp only [baySampled, stopsAtBoundary]
    split
    · next h =>
      rcases hc with hc | hc
      · simp [hc] at h
      · exact (handStopped_values _ _ c).1 hc
    · rfl
  · have hIf : (inp.stopsHere && decide (y.phase ≠ .running)) = true := by simp [hStops, hp]
    simp only [baySampled, stopsAtBoundary, hIf, if_true]
    rw [(handStopped_values _ _ c).2 hNone]
    exact handing_handedValue ..

/-- The bay after the late recognitions. -/
def bayLate (b : Bay) (inp : BayInputs) (s : State) : State := lateFaults b inp (bayWatched b inp s)

theorem bayLate_keeps : LateKeeps b (watchesDropped b (bayWatched b inp s)) (bayLate b inp s) := by
  rw [bayLate, lateFaults_eq]
  exact forAll_lateKeeps _

theorem bayLate_calm : Calm b (watchesDropped b (bayWatched b inp s)) (bayLate b inp s) := by
  rw [bayLate, lateFaults_eq]
  exact forAll_calm _ fun c _ => lateFault_calm c

theorem bayLate_taken {c : Condition} (hc : RecognizedLate inp (s.bay b) c) :
    LateTaken b c (watchesDropped b (bayWatched b inp s)) (bayLate b inp s) := by
  rw [bayLate, lateFaults_eq]
  exact forAll_lateTaken (mem_lateConditions.2 hc)

theorem bayLate_standing (h : (∀ c, ¬RecognizedLate inp (s.bay b) c) ∨ (s.bay b).phase ≠ .closing ∧
    (s.bay b).phase ≠ .idle ∧ (s.bay b).phase ≠ .halted ∧ (s.bay b).phase ≠ .offline) :
    bayLate b inp s = watchesDropped b (bayWatched b inp s) := by
  refine lateFaults_standing (h.imp (fun hNone => ?_) fun hPhase => ?_)
  · exact List.eq_nil_iff_forall_not_mem.2 fun c hc => hNone c (mem_lateConditions.1 hc)
  · rw [bayWatched_bay]
    exact hPhase

/-- The late recognitions of a bay leave it where no run goes on, or as the samples do. -/
theorem bayLate_phase : (bayLate b inp s).bay b = baySampled inp s.rackTime s.tick (s.bay b) ∨
    ((bayLate b inp s).bay b).phase ≠ .running ∧ ((bayLate b inp s).bay b).phase ≠ .paused := by
  by_cases h : (s.bay b).phase ≠ .closing ∧ (s.bay b).phase ≠ .idle ∧ (s.bay b).phase ≠ .halted ∧ (s.bay b).phase ≠ .offline
  · exact .inl (by rw [bayLate_standing (.inr h), watchesDropped_bay])
  · have hKeeps := bayLate_keeps (b := b) (inp := inp) (s := s)
    have hPhase : ((watchesDropped b (bayWatched b inp s)).bay b).phase = (s.bay b).phase := by rw [watchesDropped_bay]; rfl
    refine .inr ?_
    by_cases hClosing : (s.bay b).phase = .closing
    · rw [hKeeps.closing (hPhase.trans hClosing)]
      exact ⟨nofun, nofun⟩
    by_cases hHalted : (s.bay b).phase = .halted
    · rw [hKeeps.halted (hPhase.trans hHalted)]
      exact ⟨nofun, nofun⟩
    by_cases hOffline : (s.bay b).phase = .offline
    · rw [(hKeeps.offline (hPhase.trans hOffline)).1]
      exact ⟨nofun, nofun⟩
    by_cases hIdle : (s.bay b).phase = .idle
    · rcases hKeeps.idle (hPhase.trans hIdle) with h | ⟨h, -⟩ <;> rw [h] <;> exact ⟨nofun, nofun⟩
    exact absurd ⟨hClosing, hIdle, hHalted, hOffline⟩ h

theorem bayLate_stands (hp : (s.bay b).phase ≠ .running) : Stands inp s.rackTime (s.bay b) ((bayLate b inp s).bay b) := by
  have hSampled := baySampled_stands (inp := inp) (now := s.rackTime) (tick := s.tick) hp
  have hValues := bayLate_calm (b := b) (inp := inp) (s := s).values
  have hRun := bayLate_keeps (b := b) (inp := inp) (s := s).run
  rw [watchesDropped_bay] at hValues hRun
  exact ⟨by rw [hValues]; exact hSampled.kept, by rw [hValues]; exact hSampled.handed, by rw [hRun]; exact hSampled.clocks⟩

/-- The counts, conversions, lid and keys of a bay that is not RUNNING leave its state and its supply monitor. -/
theorem bayShown_standing (hf : inp.monitorFirst = false) (hp : ((bayLate b inp s).bay b).phase ≠ .running) :
    ((bayShown b inp s).bay b).phase = ((bayLate b inp s).bay b).phase ∧
      ((bayShown b inp s).bay b).supply = ((bayLate b inp s).bay b).supply ∧
      (Stands inp now y ((bayLate b inp s).bay b) → Stands inp now y ((bayShown b inp s).bay b)) := by
  obtain ⟨x, F, hF, hx, hBay⟩ := countBay_bay (b := b) (s := bayLate b inp s) inp
  obtain ⟨p, f, -, hShown⟩ := (bayShown_asks (b := b) (s := s) inp).bay
  rw [countedBay_standing hp] at hx hBay
  rw [hShown, bayCounted_second hf]
  change ({ (countBay b inp (bayLate b inp s)).bay b with panel := p, status := _ } : BayState).phase = _ ∧ _
  rw [← bayLate, hBay]
  refine ⟨rfl, rfl, fun h => ⟨?_, ?_, (hF.clocks _).trans h.clocks⟩⟩
  · dsimp only
    rw [hx.values]
    exact h.kept
  · dsimp only
    rw [hx.values]
    exact h.handed

theorem settledBay_standing {supv : Int} (hp : (s.bay b).phase ≠ .running)
    (h : (s.bay b).phase ≠ .paused ∨ ∀ n, (s.bay b).supply.retry ≠ .settling n) : settledBay b supv s = s := by
  unfold settledBay
  split
  · next hr => exact absurd hr hp
  · next hPaused =>
    refine if_neg fun hw => ?_
    obtain ⟨-, hSettles⟩ := Bool.and_eq_true_iff.1 hw
    rcases h with h | h
    · exact absurd hPaused h
    · unfold retrySettles at hSettles
      split at hSettles
      · next n hn => exact absurd hn (h n)
      · cases hSettles
  · rfl

/-- What a boundary does to a bay that is not RUNNING, its late recognitions included. -/
theorem bayBoundary_standing (inputs : PerBay BayInputs) (hf : (bayGet inputs b).monitorFirst = false)
    (hp : (s.bay b).phase ≠ .running)
    (hr : (s.bay b).phase ≠ .paused ∨ ∀ n, (supplySampled (bayGet inputs b) (s.bay b)).retry ≠ .settling n) :
    ((bayBoundary inputs b s).bay b).phase = ((bayLate b (bayGet inputs b) s).bay b).phase ∧
      ((bayBoundary inputs b s).bay b).supply = ((bayLate b (bayGet inputs b) s).bay b).supply ∧
      Stands (bayGet inputs b) s.rackTime (s.bay b) ((bayBoundary inputs b s).bay b) := by
  have hLate : ((bayLate b (bayGet inputs b) s).bay b).phase ≠ .running ∧
      (((bayLate b (bayGet inputs b) s).bay b).phase ≠ .paused ∨
        ∀ n, ((bayLate b (bayGet inputs b) s).bay b).supply.retry ≠ .settling n) := by
    rcases bayLate_phase (b := b) (inp := bayGet inputs b) (s := s) with h | ⟨h, g⟩
    · rw [h]
      exact ⟨hp, hr⟩
    · exact ⟨h, .inl g⟩
  obtain ⟨hPhase, hSupply, hStands⟩ := bayShown_standing (b := b) (s := s) (now := s.rackTime) (y := s.bay b) hf hLate.1
  rw [bayBoundary_eq, settledBay_standing (by rw [hPhase]; exact hLate.1) (by rw [hPhase, hSupply]; exact hLate.2)]
  exact ⟨hPhase, hSupply, hStands (bayLate_stands hp)⟩

/-- The events of the late recognitions stand at the end of the boundary. -/
theorem bayBoundary_events (inputs : PerBay BayInputs) (hf : (bayGet inputs b).monitorFirst = false) (n : Nat)
    (h : (bayLate b (bayGet inputs b) s).xu.events.getLsbD n = true) :
    (bayBoundary inputs b s).xu.events.getLsbD n = true := by
  have hMoves : Moves none b (bayLate b (bayGet inputs b) s) (bayShown b (bayGet inputs b) s) := by
    rw [bayShown, bayCounted_second hf]
    exact .trans (.trans (countBay_moves _) lidClosedAgain_moves) (keysAtBoundary_moves _)
  rw [bayBoundary_eq]
  exact Moves.events (settledBay_moves (k := none) _) nofun nofun n (Moves.events hMoves nofun nofun n h)

end

end Sys2Proof.Machine

namespace Sys2Proof.Machine

open Sys2Proof

section
variable {s : State} {b : Bay}

/-! ## MILLISECOND_BOUNDARY (R117) -/

/-- The bays with what was due taken, at the time of the boundary. -/
def atBoundary (s : State) : State := nextBoundary (forAll allBays settleBay s)

theorem boundary_atBoundary (inputs : PerBay BayInputs) (s : State) :
    boundary inputs s = forAll allBays (bayBoundary inputs) (atBoundary s) := rfl

theorem nextBoundary_time (s : State) : (nextBoundary s).rackTime = s.rackTime + 1 ∧ (nextBoundary s).tick = s.tick + 50000 := by
  simp only [nextBoundary, ticksPerMs, and_self]

theorem nextBoundary_bay (s : State) (b : Bay) : (nextBoundary s).bay b = s.bay b := rfl

theorem nextBoundary_xu (s : State) : (nextBoundary s).xu = s.xu := rfl

theorem settleBays_const {α : Type} (g : State → α) (hg : ∀ c v, g (outside c v) = g v) :
    g (forAll allBays settleBay s) = g s :=
  forAll_bays_const g hg fun c v => settleBay_moves (k := none) (b := c) (s := v)

/-- What neither a bay's operations nor the time touch, the boundary leaves as it is. -/
theorem boundary_const {α : Type} (g : State → α) (hg : ∀ c v, g (outside c v) = g v)
    (ht : ∀ v, g (nextBoundary v) = g v) (inputs : PerBay BayInputs) : g (boundary inputs s) = g s := by
  rw [boundary_atBoundary, forAll_bays_const g hg fun c v => bayBoundary_moves (b := c) (s := v) inputs, atBoundary, ht]
  exact settleBays_const g hg

theorem atBoundary_rackTime : (atBoundary s).rackTime = s.rackTime + 1 := by
  rw [atBoundary, (nextBoundary_time _).1, settleBays_const (·.rackTime) fun _ _ => rfl]

theorem atBoundary_tick : (atBoundary s).tick = s.tick + 50000 := by
  rw [atBoundary, (nextBoundary_time _).2, settleBays_const (·.tick) fun _ _ => rfl]

theorem boundary_time (inputs : PerBay BayInputs) : (boundary inputs s).rackTime = s.rackTime + 1 ∧
    (boundary inputs s).tick = s.tick + 50000 := by
  have hMoves (c : Bay) (v : State) : Moves (some .lid) c v (bayBoundary inputs c v) := bayBoundary_moves inputs
  rw [boundary_atBoundary]
  exact ⟨(forAll_bays_const (·.rackTime) (fun _ _ => rfl) hMoves).trans atBoundary_rackTime,
    (forAll_bays_const (·.tick) (fun _ _ => rfl) hMoves).trans atBoundary_tick⟩

theorem atBoundary_fi (b : Bay) : ((atBoundary s).bay b).fi = (s.bay b).fi := by
  obtain ⟨v, hSame, hBay, -⟩ := forAll_bays_own (fun c v => settleBay_moves (k := none) (b := c) (s := v)) nofun nofun b s
  rw [atBoundary, nextBoundary_bay, hBay, settleBay_calm.fi, hSame.bay]

theorem boundary_merr (inputs : PerBay BayInputs) (h : ∀ c, (s.bay c).xu.refused = none) :
    (boundary inputs s).xu.merr = s.xu.merr := by
  obtain ⟨hRefused, hMerr⟩ := forAll_bays_merr (fun c v => settleBay_moves (k := none) (b := c) (s := v))
    (fun c v hr => ⟨settleBay_calm.refused hr, settleBay_calm.merr hr⟩) h
  have hBays (c : Bay) (v : State) (hr : (v.bay c).xu.refused = none) :
      ((bayBoundary inputs c v).bay c).xu.refused = none ∧ (bayBoundary inputs c v).xu.merr = v.xu.merr := by
    have hWatched : ((bayWatched c (bayGet inputs c) v).bay c).xu.refused = none := by
      rw [bayWatched_bay]
      exact hr
    exact ⟨(bayBoundary_edges inputs).refused hWatched, (bayBoundary_edges inputs).merr hWatched⟩
  rw [boundary_atBoundary, (forAll_bays_merr (s := atBoundary s)
    (fun c v => bayBoundary_moves (b := c) (s := v) inputs) hBays fun c => ?_).2, atBoundary, nextBoundary_xu, hMerr]
  rw [atBoundary, nextBoundary_bay]
  exact hRefused c

end

end Sys2Proof.Machine

namespace Sys2Proof.Machine

open Sys2Proof

section
variable {s : State} {b : Bay}

/-- A bay's lid, attention line, frequency inputs and frequencies after a boundary (R79, R119, R158, R201). -/
theorem boundary_sampled (inputs : PerBay BayInputs) (b : Bay) :
    ((boundary inputs s).bay b).supply.lidOpen = (bayGet inputs b).lidOpen ∧
      ((boundary inputs s).bay b).panel.attention = (bayGet inputs b).attention ∧
      ((boundary inputs s).bay b).fi = expireEdges (s.tick + 50000) (s.bay b).fi ∧
      FrequenciesFollow ((boundary inputs s).bay b).stim := by
  obtain ⟨v, hSame, hBay, -⟩ := forAll_bays_own (fun c v => bayBoundary_moves (b := c) (s := v) inputs) nofun nofun b
    (atBoundary s)
  have h := bayBoundary_sampled (b := b) (s := v) inputs
  rw [boundary_atBoundary, hBay]
  refine ⟨h.lidOpen, h.attention, ?_, h.follow⟩
  rw [h.fi, hSame.bay, hSame.tick, atBoundary_tick, atBoundary_fi]

theorem expireEdges_place (tick : Nat) (fi : Vector FreqInput 2) (i : Fin 2) : (expireEdges tick fi)[i] =
    match fi[i].lastEdge with
    | none => fi[i]
    | some e => if 100000000 ≤ tick - e then ⟨none, 0⟩ else fi[i] := by
  have hPlace : (expireEdges tick fi)[i] = if edgeExpired tick fi[i] then edgeTimeout fi[i] else fi[i] :=
    getElem_tabMap ..
  rw [hPlace]
  rcases Option.eq_none_or_eq_some fi[i].lastEdge with h | ⟨e, h⟩ <;> simp only [edgeExpired, edgeTimeout, h]
  · rfl
  · simp

/-- The part of O9 that speaks of a bay in RUNNING. -/
theorem boundary_running (inputs : PerBay BayInputs) (b : Bay) (hf : (bayGet inputs b).monitorFirst = false)
    (hp : ((atBoundary s).bay b).phase = .running)
    (hs : ((atBoundary s).bay b).supply.settle = none ∨
      inSettleWindow ((atBoundary s).bay b).supply.setting (clampTo 0 30000 (bayGet inputs b).supv) = false ∨
      ∃ j, ((atBoundary s).bay b).supply.settle = some j ∧ j.count = 0 ∧
        stepStartsNow (bayGet inputs b) (s.rackTime + 1) ((atBoundary s).bay b) j.step = true) :
    RunCounted (bayGet inputs b) (s.rackTime + 1) ((atBoundary s).bay b) ((boundary inputs s).bay b) := by
  obtain ⟨v, hSame, hBay, -⟩ := forAll_bays_own (fun c v => bayBoundary_moves (b := c) (s := v) inputs) nofun nofun b
    (atBoundary s)
  rw [boundary_atBoundary, hBay, ← hSame.bay, ← atBoundary_rackTime, ← hSame.rackTime]
  rw [← hSame.bay, ← atBoundary_rackTime, ← hSame.rackTime] at hs
  exact bayBoundary_running inputs hf (by rw [hSame.bay]; exact hp) hs

/-- What the late recognitions of a boundary leave of a bay (R157). -/
structure LateActed (inp : BayInputs) (b : Bay) (y : BayState) (t : State) : Prop where
  none : (∀ c, ¬RecognizedLate inp y c) ∨
      (y.phase ≠ .closing ∧ y.phase ≠ .idle ∧ y.phase ≠ .halted ∧ y.phase ≠ .offline) →
    (t.bay b).phase = y.phase ∧ (t.bay b).supply = supplySampled inp y
  some : ∀ c, RecognizedLate inp y c →
    (y.phase = .closing → (t.bay b).phase = .closing ∧ (condGet (t.bay b).supply.watches c).pending = true) ∧
    (condGet y.supply.setup.modes c = .latch ∨ condGet y.supply.setup.modes c = .retry →
      (y.phase = .idle → t.xu.events.getLsbD (4 + bayNum b) = true) ∧
      (y.phase = .idle ∨ y.phase = .halted →
        (t.bay b).phase = .halted ∧ (t.bay b).supply.latched &&& condBit c = condBit c) ∧
      (y.phase = .offline → (t.bay b).phase = .offline ∧ (t.bay b).supply.latched = y.supply.latched)) ∧
    (condGet y.supply.setup.modes c = .report → y.phase = .idle ∨ y.phase = .halted ∨ y.phase = .offline →
      (t.bay b).supply.reported &&& condBit c = condBit c)

theorem bayLate_acted (inp : BayInputs) (b : Bay) (v : State) : LateActed inp b (v.bay b) (bayLate b inp v) := by
  have hKeeps := bayLate_keeps (b := b) (inp := inp) (s := v)
  have hBase := watchesDropped_bay (b := b) (s := v) inp
  have hPhase : ((watchesDropped b (bayWatched b inp v)).bay b).phase = (v.bay b).phase := by rw [hBase]; rfl
  have hSupply : ((watchesDropped b (bayWatched b inp v)).bay b).supply = supplySampled inp (v.bay b) := by rw [hBase]; rfl
  refine ⟨fun h => by rw [bayLate_standing h]; exact ⟨hPhase, hSupply⟩, fun c hc => ?_⟩
  obtain ⟨hMarks, hLatches, hReports⟩ := bayLate_taken hc
  rw [hPhase] at hMarks hLatches hReports
  rw [hSupply] at hLatches hReports
  refine ⟨fun hp => ⟨hKeeps.closing (hPhase.trans hp), hMarks hp⟩, fun hm => ?_, hReports⟩
  obtain ⟨hAlert, hHalted⟩ := hLatches hm
  refine ⟨hAlert, hHalted, fun hp => ?_⟩
  obtain ⟨hOffline, hLatched⟩ := hKeeps.offline (hPhase.trans hp)
  exact ⟨hOffline, by rw [hLatched, hSupply]; rfl⟩

/-- What shows of them at the end of the boundary. -/
theorem LateActed.of_same {inp : BayInputs} {y : BayState} {u t : State} (h : LateActed inp b y u)
    (hp : (t.bay b).phase = (u.bay b).phase) (hs : (t.bay b).supply = (u.bay b).supply)
    (he : ∀ n, u.xu.events.getLsbD n = true → t.xu.events.getLsbD n = true) : LateActed inp b y t := by
  refine ⟨by rw [hp, hs]; exact h.none, fun c hc => ?_⟩
  obtain ⟨hClosing, hLatches, hReports⟩ := h.some c hc
  rw [hp, hs]
  exact ⟨hClosing, fun hm => ⟨fun hi => he _ ((hLatches hm).1 hi), (hLatches hm).2⟩, hReports⟩

/-- The part of O9 that speaks of a bay in another state. -/
theorem boundary_standing (inputs : PerBay BayInputs) (b : Bay) (hf : (bayGet inputs b).monitorFirst = false)
    (hp : ((atBoundary s).bay b).phase ≠ .running)
    (hr : ((atBoundary s).bay b).phase ≠ .paused ∨
      ∀ n, (supplySampled (bayGet inputs b) ((atBoundary s).bay b)).retry ≠ .settling n) :
    LateActed (bayGet inputs b) b ((atBoundary s).bay b) (boundary inputs s) ∧
      Stands (bayGet inputs b) (s.rackTime + 1) ((atBoundary s).bay b) ((boundary inputs s).bay b) := by
  obtain ⟨v, hSame, hBay, hEvents⟩ := forAll_bays_own (fun c v => bayBoundary_moves (b := c) (s := v) inputs) nofun nofun b
    (atBoundary s)
  rw [← hSame.bay] at hp hr ⊢
  obtain ⟨hPhase, hSupply, hStands⟩ := bayBoundary_standing inputs hf hp hr
  rw [hSame.rackTime, atBoundary_rackTime] at hStands
  rw [boundary_atBoundary, hBay]
  refine ⟨(bayLate_acted (bayGet inputs b) b v).of_same ?_ ?_ fun n hn => hEvents n (bayBoundary_events inputs hf n hn), hStands⟩
  · rw [hBay, hPhase]
  · rw [hBay, hSupply]

/-- Settles O9, part by part: what no bay touches, the order of the boundary, and each bay by its state. -/
theorem boundaryCountsTimeAndSamplesLines : Obligations.BoundaryCountsTimeAndSamplesLines := by
  intro s inputs hs
  have keep {α : Type} (g : State → α) (hg : ∀ c v, g (outside c v) = g v) (ht : ∀ v, g (nextBoundary v) = g v) :
      g (boundary inputs s) = g s := boundary_const g hg ht inputs
  refine ⟨boundary inputs s, exec_up hs rfl, (boundary_time inputs).1, (boundary_time inputs).2,
    keep (·.pending) (fun _ _ => rfl) fun _ => rfl, keep (·.xu.run) (fun _ _ => rfl) fun _ => rfl,
    keep (·.xu.irqen) (fun _ _ => rfl) fun _ => rfl, keep (·.xu.scanp) (fun _ _ => rfl) fun _ => rfl,
    keep (fun v => xbase v.xu) (fun _ _ => rfl) fun _ => rfl, keep (·.xu.pass) (fun _ _ => rfl) fun _ => rfl,
    boundary_merr inputs, keep (·.bus.scl) (fun _ _ => rfl) fun _ => rfl, keep (·.bus.sda) (fun _ _ => rfl) fun _ => rfl,
    keep (·.bus.state) (fun _ _ => rfl) fun _ => rfl, fun b => ?_, rfl, fun b hf => ⟨fun hp hSettle => ?_, fun hp hr => ?_⟩⟩
  · obtain ⟨hLid, hAttention, hFi, hFollow⟩ := boundary_sampled (s := s) inputs b
    exact ⟨hLid, hAttention, fun i => ⟨by rw [hFi]; exact expireEdges_place .., hFollow i⟩⟩
  · have h := boundary_running inputs b hf hp hSettle
    exact ⟨h.phase, fun c => ⟨h.starting c, h.advanced c⟩, h.supply, h.timeouts, h.entries⟩
  · obtain ⟨hLate, hStands⟩ := boundary_standing inputs b hf hp hr
    exact ⟨hLate.none, hLate.some, fun c => ⟨hStands.kept c, hStands.handed c⟩, rfl, hStands.clocks⟩

end

end Sys2Proof.Machine

namespace Sys2Proof.Machine

open Sys2Proof

/-! ## No operation of a bay reads the bytes of the transaction begun last (R160)

An operation gives of a state with other such bytes the state that it gives of the first, with those bytes. -/

/-- A state with other bytes sent. -/
def putWire (w : List Byte) (s : State) : State := s.modBus fun u => { u with wire := w }

section
variable {b : Bay} {s : State} {w : List Byte}

@[simp] theorem bay_putWire (o : Bay) : (putWire w s).bay o = s.bay o := rfl
@[simp] theorem putWire_xu : (putWire w s).xu = s.xu := rfl
@[simp] theorem putWire_rackTime : (putWire w s).rackTime = s.rackTime := rfl
@[simp] theorem putWire_freeIndex : (putWire w s).freeIndex = s.freeIndex := rfl
@[simp] theorem putWire_state : (putWire w s).bus.state = s.bus.state := rfl
@[simp] theorem putWire_queue : (putWire w s).bus.queue = s.bus.queue := rfl
@[simp] theorem putWire_held : (putWire w s).bus.held = s.bus.held := rfl
@[simp] theorem putWire_onBus : (putWire w s).bus.onBus = s.bus.onBus := rfl
@[simp] theorem ownerOnBus_putWire (o : Bay) : ownerOnBus (putWire w s).bus o = ownerOnBus s.bus o := rfl
@[simp] theorem busHolds_putWire (o : Bay) : busHolds (putWire w s).bus o = busHolds s.bus o := rfl

@[simp] theorem modBay_putWire (f : BayState → BayState) : (putWire w s).modBay b f = putWire w (s.modBay b f) := rfl
@[simp] theorem modRun_putWire (f : RunEngine → RunEngine) : (putWire w s).modRun b f = putWire w (s.modRun b f) := rfl
@[simp] theorem modStim_putWire (f : Stimulus → Stimulus) : (putWire w s).modStim b f = putWire w (s.modStim b f) := rfl
@[simp] theorem modNet_putWire (f : Network → Network) : (putWire w s).modNet b f = putWire w (s.modNet b f) := rfl
@[simp] theorem modSupply_putWire (f : Supply → Supply) : (putWire w s).modSupply b f = putWire w (s.modSupply b f) := rfl
@[simp] theorem modPanel_putWire (f : Panel → Panel) : (putWire w s).modPanel b f = putWire w (s.modPanel b f) := rfl
@[simp] theorem modStatus_putWire (f : BayStatus → BayStatus) : (putWire w s).modStatus b f = putWire w (s.modStatus b f) := rfl
@[simp] theorem modBayXu_putWire (f : BayExchange → BayExchange) : (putWire w s).modBayXu b f = putWire w (s.modBayXu b f) :=
  rfl
@[simp] theorem modInFlight_putWire (i : Nat) (f : InFlight → InFlight) :
    (putWire w s).modInFlight b i f = putWire w (s.modInFlight b i f) := rfl
@[simp] theorem modXu_putWire (f : Exchange → Exchange) : (putWire w s).modXu f = putWire w (s.modXu f) := rfl
@[simp] theorem freed_putWire (n : Nat) : { putWire w s with freeIndex := n } = putWire w { s with freeIndex := n } := rfl
@[simp] theorem writeArea_putWire (k : WriteKind) (o : Nat) (d : List Byte) :
    writeArea k o d (putWire w s) = putWire w (writeArea k o d s) := rfl
@[simp] theorem serveHeld_putWire : serveHeld (putWire w s) = putWire w (serveHeld s) := rfl

theorem putWire_ite {c : Prop} [Decidable c] (s t : State) :
    putWire w (if c then s else t) = if c then putWire w s else putWire w t := apply_ite ..

theorem forAll_putWire {α : Type} {f : α → State → State} (hf : ∀ x s, f x (putWire w s) = putWire w (f x s)) (l : List α)
    (s : State) : forAll l f (putWire w s) = putWire w (forAll l f s) := by
  induction l generalizing s with
  | nil => rfl
  | cons x l ih =>
    have hCons (v : State) : forAll (x :: l) f v = forAll l f (f x v) := rfl
    rw [hCons, hf, ih, hCons]

/-! ### The shared operations -/

@[simp] theorem triggerBay_putWire : triggerBay b (putWire w s) = putWire w (triggerBay b s) := by
  unfold triggerBay
  simp only [bay_putWire]
  split <;> rfl

@[simp] theorem setEvent_putWire (n : Nat) : setEvent n (putWire w s) = putWire w (setEvent n s) := by
  simp only [setEvent, putWire_ite]
  rfl

@[simp] theorem recordError_putWire (k : ErrorKind) (o : Option Bay) :
    recordError k o (putWire w s) = putWire w (recordError k o s) := by simp [recordError]

@[simp] theorem setPhase_putWire (p : Phase) : setPhase b p (putWire w s) = putWire w (setPhase b p s) := by simp [setPhase]

@[simp] theorem addLatched_putWire (f : FaultSet) : addLatched b f (putWire w s) = putWire w (addLatched b f s) := by
  simp [addLatched, putWire_ite]

@[simp] theorem clearLatched_putWire : clearLatched b (putWire w s) = putWire w (clearLatched b s) := by
  simp [clearLatched, putWire_ite]

@[simp] theorem addReported_putWire (f : FaultSet) : addReported b f (putWire w s) = putWire w (addReported b f s) := by
  simp [addReported, putWire_ite]

@[simp] theorem echoBay_putWire (seq : Word16) (r : EchoResult) :
    echoBay b seq r (putWire w s) = putWire w (echoBay b seq r s) := by simp [echoBay]

@[simp] theorem changeNet_putWire (f : Network → Network) : changeNet b f (putWire w s) = putWire w (changeNet b f s) := by
  simp [changeNet, putWire_ite]

@[simp] theorem busRequest_putWire (e : BusEntry) : busRequest e (putWire w s) = (busRequest e s).map (putWire w) := by
  simp only [busRequest, apply_ite (Option.map (putWire w)), Option.map_none, Option.map_some]
  rfl

@[simp] theorem removeEntries_putWire (test : BusEntry → Bool) :
    removeEntries b test (putWire w s) = putWire w (removeEntries b test s) := by
  have hLeft (f : List BusEntry → List BusEntry) (q : List BusEntry) :
      (putWire w s).modBus (fun u => { u with queue := q, held := f u.held }) =
        putWire w (s.modBus fun u => { u with queue := q, held := f u.held }) := rfl
  simp only [removeEntries, putWire_state, putWire_queue, putWire_held, putWire_onBus, putWire_ite]
  rw [hLeft fun l => l.filter fun e => !(decide (e.bay = b) && test e)]
  simp only [serveHeld_putWire, triggerBay_putWire] <;> rfl

/-! ### The outputs -/

@[simp] theorem flagClamped_putWire (c : Fin 14) : flagClamped b c (putWire w s) = putWire w (flagClamped b c s) := by
  rcases Option.eq_none_or_eq_some (s.bay b).stim.actions[c] with h | ⟨a, h⟩ <;> simp only [flagClamped, bay_putWire, h] <;> rfl

@[simp] theorem setLevel_putWire (i : Fin 4) : setLevel b i (putWire w s) = putWire w (setLevel b i s) := by
  cases hSafe : (s.bay b).stim.safe <;> cases hForm : (s.bay b).stim.forms[i] <;>
    simp [setLevel, hSafe, hForm, putWire_ite]

@[simp] theorem stimUnsafe_putWire : stimUnsafe b (putWire w s) = putWire w (stimUnsafe b s) := by
  unfold stimUnsafe
  simp only [modStim_putWire]
  exact forAll_putWire (fun i s => setLevel_putWire i) ..

@[simp] theorem endSafe_putWire : endSafe b (putWire w s) = putWire w (endSafe b s) := by simp [endSafe]

@[simp] theorem enterSafe_putWire : enterSafe b (putWire w s) = putWire w (enterSafe b s) := by simp [enterSafe]

@[simp] theorem switchOff_putWire (keep : Bool) : switchOff b keep (putWire w s) = putWire w (switchOff b keep s) := by
  simp [switchOff, putWire_ite]

/-! ### The panel's requests -/

@[simp] theorem flagLampFailed_putWire : flagLampFailed b (putWire w s) = putWire w (flagLampFailed b s) := rfl

@[simp] theorem requestFixed_putWire (x : FixedText) : requestFixed b x (putWire w s) = putWire w (requestFixed b x s) := by
  unfold requestFixed
  rw [busRequest_putWire]
  cases busRequest (displayEntry b (.fixed x) (fixedTextBytes x)) s <;> rfl

@[simp] theorem wantText_putWire (x : FixedText) : wantText b x (putWire w s) = putWire w (wantText b x s) := by
  simp [wantText, putWire_ite]

@[simp] theorem wantLamp_putWire (lamps : Byte) : wantLamp b lamps (putWire w s) = putWire w (wantLamp b lamps s) := by
  unfold wantLamp
  rw [busRequest_putWire, bay_putWire]
  split
  · rfl
  · cases busRequest (lampEntry b lamps) s <;> rfl

@[simp] theorem pollKeys_putWire : pollKeys b (putWire w s) = putWire w (pollKeys b s) := by
  unfold pollKeys
  simp only [busRequest_putWire, bay_putWire, putWire_ite]
  cases busRequest (keyEntry b) s <;> rfl

@[simp] theorem pumpText_putWire : pumpText b (putWire w s) = putWire w (pumpText b s) := by
  unfold pumpText
  simp only [bay_putWire, modPanel_putWire, requestFixed_putWire]
  split <;> rfl

end

end Sys2Proof.Machine

namespace Sys2Proof.Machine

open Sys2Proof

section
variable {b : Bay} {s : State} {w : List Byte}

/-! ### The way through CLOSING -/

/-- A run's loss before it is reported (R23). -/
def runLost (b : Bay) (s : State) : State :=
  { s.modBay b fun y => { y with
      run := { y.run with lost := true }
      status := { y.status with runLost := true, lostLabel := lostLabelOf y.run (Config.freeWord s.freeIndex) } } with
    freeIndex := s.freeIndex + 1 }

theorem loseRun_eq : loseRun b s = if (s.bay b).run.lost then s else triggerBay b (runLost b s) := rfl

@[simp] theorem runLost_putWire : runLost b (putWire w s) = putWire w (runLost b s) := rfl

@[simp] theorem loseRun_putWire : loseRun b (putWire w s) = putWire w (loseRun b s) := by
  simp [loseRun_eq, putWire_ite]

@[simp] theorem handBackFails_putWire : handBackFails b (putWire w s) = putWire w (handBackFails b s) := by
  simp [handBackFails]

@[simp] theorem writeFinished_putWire : writeFinished b (putWire w s) = putWire w (writeFinished b s) := by
  simp [writeFinished, putWire_ite]

@[simp] theorem countRun_putWire : countRun b (putWire w s) = putWire w (countRun b s) := rfl

@[simp] theorem handBack_putWire : handBack b (putWire w s) = putWire w (handBack b s) := by
  unfold handBack
  simp only [bay_putWire, writeArea_putWire, handBackFails_putWire, writeFinished_putWire, countRun_putWire]
  split <;> rfl

@[simp] theorem settlePending_putWire (c : Condition) : settlePending b c (putWire w s) = putWire w (settlePending b c s) := by
  cases hm : condGet (s.bay b).supply.setup.modes c <;> simp [settlePending, putWire_ite, hm]

@[simp] theorem goOffline_putWire : goOffline b (putWire w s) = putWire w (goOffline b s) := by simp [goOffline]

@[simp] theorem goHalted_putWire : goHalted b (putWire w s) = putWire w (goHalted b s) := by simp [goHalted]

@[simp] theorem readAt_putWire (o : Nat) : readAt o (putWire w s) = readAt o s := rfl

@[simp] theorem readBackToBack_putWire : readBackToBack b (putWire w s) = putWire w (readBackToBack b s) := by
  simp only [readBackToBack, putWire_ite]
  rfl

@[simp] theorem leaveClosing_putWire : leaveClosing b (putWire w s) = putWire w (leaveClosing b s) := by
  simp [leaveClosing, putWire_ite]

@[simp] theorem handBackUnlessLost_putWire : handBackUnlessLost b (putWire w s) = putWire w (handBackUnlessLost b s) := by
  simp [handBackUnlessLost, putWire_ite]

@[simp] theorem closingEnd_putWire : closingEnd b (putWire w s) = putWire w (closingEnd b s) := by
  have hPending := forAll_putWire (w := w) (fun c s => settlePending_putWire (b := b) (s := s) (w := w) c) allConditions s
  simp only [closingEnd_eq, hPending, bay_putWire, handBackUnlessLost_putWire, slotFreed, modBay_putWire,
    leaveClosing_putWire, pollKeys_putWire]

@[simp] theorem closingPanelDone_putWire : closingPanelDone b (putWire w s) = putWire w (closingPanelDone b s) := by
  rw [closingPanelDone, closingPanelDone, putWire_ite]
  exact ite_congr rfl (fun _ => closingEnd_putWire) fun _ => rfl

@[simp] theorem verdictLampWanted_putWire (v : Option Verdict) :
    verdictLampWanted b v (putWire w s) = putWire w (verdictLampWanted b v s) := by
  cases v <;> simp [verdictLampWanted]

@[simp] theorem verdictTextWanted_putWire (text : Option (List Byte)) :
    verdictTextWanted b text (putWire w s) = putWire w (verdictTextWanted b text s) := by
  cases text with
  | none => rfl
  | some bytes =>
    cases hr : busRequest (displayEntry b .verdictText bytes) s <;> simp [verdictTextWanted, hr]

@[simp] theorem closingPanel_putWire : closingPanel b (putWire w s) = putWire w (closingPanel b s) := by
  simp [closingPanel_eq]

@[simp] theorem cycleEnded_putWire (o : BusOutcome) : cycleEnded b o (putWire w s) = putWire w (cycleEnded b o s) := by
  by_cases h : o = .done <;> simp [cycleEnded, h]

@[simp] theorem closingCycle_putWire : closingCycle b (putWire w s) = putWire w (closingCycle b s) := by
  simp only [closingCycle, bay_putWire, busRequest_putWire, cycleEnded_putWire, closingPanel_putWire, putWire_ite]
  cases busRequest (cycleEntry b (s.bay b).run) s <;> rfl

@[simp] theorem closingBus_putWire : closingBus b (putWire w s) = putWire w (closingBus b s) := by
  simp [closingBus, putWire_ite]

@[simp] theorem writeResult_putWire (x : StepResult) : writeResult b x (putWire w s) = putWire w (writeResult b x s) := by
  rw [writeResult, writeResult, putWire_ite]
  exact ite_congr rfl (fun _ => rfl) fun _ => rfl

@[simp] theorem handOver_putWire (results : List StepResult) :
    handOver b results (putWire w s) = putWire w (handOver b results s) :=
  forAll_putWire (fun x s => by simp) ..

@[simp] theorem recordsRefused_putWire (results : List StepResult) :
    recordsRefused b results (putWire w s) = putWire w (recordsRefused b results s) := by
  rw [recordsRefused, recordsRefused, putWire_ite]
  exact ite_congr rfl (fun _ => handBackFails_putWire) fun _ => rfl

@[simp] theorem enterClosing_putWire (verdict : Verdict) (cause : EndCause) (offending : Nat) (ended : List StepResult) :
    enterClosing b verdict cause offending ended (putWire w s) =
      putWire w (enterClosing b verdict cause offending ended s) := by
  simp [enterClosing_eq, closingEntered, bayAtClosing]

/-! ### The ends of steps -/

@[simp] theorem stepLeft_putWire (x : StepResult) : stepLeft b x (putWire w s) = putWire w (stepLeft b x s) := by
  simp [stepLeft, leaveTable, addResult]

@[simp] theorem endStep_putWire (i : Nat) (o : StepOutcome) (d : Detail) :
    endStep b i o d (putWire w s) = putWire w (endStep b i o d s) := by
  cases hf : findInFlight (s.bay b).run i with
  | none => rw [endStep_not_in_flight hf, endStep_not_in_flight (s := putWire w s) hf]
  | some e =>
    rw [endStep_of_find hf, endStep_of_find (s := putWire w s) hf]
    simp [stopRun, putWire_ite]

@[simp] theorem joinTest_putWire : joinTest b (putWire w s) = putWire w (joinTest b s) := by
  cases h : readyJoin (s.bay b).run <;> simp [joinTest, h]

@[simp] theorem pumpPrompts_putWire (n : Nat) : pumpPrompts b n (putWire w s) = putWire w (pumpPrompts b n s) := by
  induction n generalizing s with
  | zero => rfl
  | succ n ih =>
    rcases Option.eq_none_or_eq_some (writable (s.bay b)) with hq | ⟨q, hq⟩
    · simp only [pumpPrompts, bay_putWire, hq]
    · cases hr : busRequest (displayEntry b (.prompt q.step) q.text) s <;>
        simp [pumpPrompts, hq, hr, putWire_ite, ih]

@[simp] theorem pumpDisplay_putWire : pumpDisplay b (putWire w s) = putWire w (pumpDisplay b s) := by simp [pumpDisplay]

/-! ### The walker -/

@[simp] theorem endAction_putWire (c : Fin 14) (r : Bool) : endAction b c r (putWire w s) = putWire w (endAction b c r s) := by
  rcases Option.eq_none_or_eq_some (s.bay b).stim.actions[c] with h | ⟨a, h⟩ <;> simp only [endAction, bay_putWire, h] <;> rfl

@[simp] theorem olderEnded_putWire (c : Fin 14) : olderEnded b c (putWire w s) = putWire w (olderEnded b c s) := by
  rcases Option.eq_none_or_eq_some (s.bay b).stim.actions[c] with h | ⟨a, h⟩ <;>
    simp only [olderEnded, bay_putWire, h, endAction_putWire]

@[simp] theorem actionStarted_putWire (i : Nat) (a : DriveAction) (x : Action) :
    actionStarted b i a x (putWire w s) = putWire w (actionStarted b i a x s) := by
  cases hc : x.clamped <;> cases he : endsAtStart x <;> simp [actionStarted, hc, he]

@[simp] theorem startAction_putWire (i : Nat) (a : DriveAction) :
    startAction b i a (putWire w s) = putWire w (startAction b i a s) := by
  simp only [startAction_eq, olderEnded_putWire, bay_putWire, actionStarted_putWire]

@[simp] theorem endDrive_putWire (i : Nat) : endDrive b i (putWire w s) = putWire w (endDrive b i s) := by
  unfold endDrive
  simp only [bay_putWire, endStep_putWire]
  split <;> rfl

@[simp] theorem startDrive_putWire (i : Nat) (actions : List DriveAction) (on off : BitVec 16) :
    startDrive b i actions on off (putWire w s) = putWire w (startDrive b i actions on off s) := by
  have hActions := forAll_putWire (w := w) (fun a s => startAction_putWire (b := b) (s := s) (w := w) i a) actions s
  simp only [startDrive, hActions, modStim_putWire, bay_putWire]
  exact forAll_putWire (fun i s => endDrive_putWire i) ..

@[simp] theorem startPrompt_putWire (i : Nat) (text : List Byte) (form : PromptForm) (timeout : Nat) :
    startPrompt b i text form timeout (putWire w s) = putWire w (startPrompt b i text form timeout s) := by
  simp [startPrompt]

@[simp] theorem startFrame_putWire (i : Nat) (e : Fin 16) (act : FrameAction) :
    startFrame b i e act (putWire w s) = putWire w (startFrame b i e act s) := by
  have hActed : (if (s.bay b).net.setup.entries[e].enabled
        then (putWire w s).modNet b (frameAction s.rackTime e act) else putWire w s) =
      putWire w (if (s.bay b).net.setup.entries[e].enabled then s.modNet b (frameAction s.rackTime e act) else s) := by
    split <;> rfl
  exact (congrArg (endStep b i .done (frameDetail (s.bay b).net e)) hActed).trans (endStep_putWire ..)

@[simp] theorem startFixture_putWire (i : Nat) (m : Fin 16) (write : Bool) (index : Byte) (data : List Byte) :
    startFixture b i m write index data (putWire w s) = putWire w (startFixture b i m write index data s) := by
  cases hr : busRequest (newEntry b (.step i) m (if write then BusOp.write data else BusOp.read data.length) index) s <;>
    simp [startFixture, hr, putWire_ite]

@[simp] theorem startPower_putWire (i : Nat) (on : Bool) (setting : Nat) :
    startPower b i on setting (putWire w s) = putWire w (startPower b i on setting s) := by
  simp [startPower, putWire_ite]

@[simp] theorem startBody_putWire (i : Nat) (body : StepBody) :
    startBody b i body (putWire w s) = putWire w (startBody b i body s) := by
  cases body <;> simp [startBody]

@[simp] theorem startStep_putWire : startStep b (putWire w s) = putWire w (startStep b s) := by
  cases hx : (s.bay b).run.copy.steps[(s.bay b).run.next]? <;> simp [startStep, hx]

@[simp] theorem runEnd_putWire : runEnd b (putWire w s) = putWire w (runEnd b s) := by
  rw [runEnd, runEnd, putWire_ite]
  exact ite_congr rfl (fun _ => enterClosing_putWire ..) fun _ => rfl

@[simp] theorem walkSteps_putWire (n : Nat) : walkSteps b n (putWire w s) = putWire w (walkSteps b n s) := by
  induction n generalizing s with
  | zero => exact runEnd_putWire
  | succ n ih => simp [walkSteps, putWire_ite, ih]

@[simp] theorem walk_putWire : walk b (putWire w s) = putWire w (walk b s) := walkSteps_putWire 96

@[simp] theorem failingPrompt_putWire : failingPrompt b (putWire w s) = failingPrompt b s := rfl

@[simp] theorem heldFixture_putWire : heldFixture b (putWire w s) = heldFixture b s := rfl

@[simp] theorem afterPrompts_putWire (n : Nat) : afterPrompts b n (putWire w s) = putWire w (afterPrompts b n s) := by
  induction n generalizing s with
  | zero => simp [afterPrompts]
  | succ n ih =>
    cases hq : failingPrompt b (walk b s) <;> simp [afterPrompts, hq, putWire_ite, ih]

@[simp] theorem failHeld_putWire : failHeld b (putWire w s) = putWire w (failHeld b s) := by
  cases h : heldFixture b s <;> simp [failHeld, h, putWire_ite]

@[simp] theorem afterEnds_putWire : afterEnds b (putWire w s) = putWire w (afterEnds b s) := by simp [afterEnds]

@[simp] theorem takeEnd_putWire (i : Nat) (o : StepOutcome) (d : Detail) :
    takeEnd b i o d (putWire w s) = putWire w (takeEnd b i o d s) := by simp [takeEnd]

/-! ### The ends of CHECK steps, and the keys -/

@[simp] theorem endCheck_putWire (i : Nat) : endCheck b i (putWire w s) = putWire w (endCheck b i s) := by
  cases hf : findInFlight (s.bay b).run i with
  | none => simp [endCheck, hf]
  | some e => cases hw : e.work <;> simp [endCheck, hf, hw]

@[simp] theorem nextCheck_putWire (i : Nat) : nextCheck b i (putWire w s) = putWire w (nextCheck b i s) := by
  cases hf : findInFlight (s.bay b).run i <;> simp [nextCheck, hf]

@[simp] theorem settleChecks_putWire : settleChecks b (putWire w s) = putWire w (settleChecks b s) := by
  have hDecided : decideDue b none (putWire w s) = putWire w (decideDue b none s) :=
    forAll_putWire (fun e s => modInFlight_putWire e.index decideEntry) ..
  simp only [settleChecks, settleOthers, bay_putWire, hDecided]
  exact forAll_putWire (fun i s => nextCheck_putWire i) ..

@[simp] theorem abortNow_putWire (cause : AbortCause) : abortNow b cause (putWire w s) = putWire w (abortNow b cause s) := by
  unfold abortNow
  simp only [bay_putWire, putWire_rackTime, enterClosing_putWire, echoBay_putWire]
  split <;> rfl

@[simp] theorem abortRun_putWire (cause : AbortCause) : abortRun b cause (putWire w s) = putWire w (abortRun b cause s) := by
  simp only [abortRun, settleChecks_putWire, bay_putWire, abortNow_putWire, modRun_putWire, putWire_ite]
  split
  · rfl
  · split <;> rfl

@[simp] theorem enterRunning_putWire : enterRunning b (putWire w s) = putWire w (enterRunning b s) := by simp [enterRunning]

@[simp] theorem endPrompt_putWire (i : Nat) (o : StepOutcome) (d : Detail) :
    endPrompt b i o d (putWire w s) = putWire w (endPrompt b i o d s) := by simp [endPrompt]

@[simp] theorem keyYes_putWire : keyYes b (putWire w s) = putWire w (keyYes b s) := by
  cases hq : armedPrompt ((settleChecks b s).bay b) with
  | none => simp [keyYes, hq]
  | some q => cases hf : q.form <;> simp [keyYes, hq, hf]

@[simp] theorem keyNo_putWire : keyNo b (putWire w s) = putWire w (keyNo b s) := by
  cases hq : armedPrompt ((settleChecks b s).bay b) with
  | none => simp [keyNo, hq]
  | some q => cases hf : q.form <;> simp [keyNo, hq, hf]

@[simp] theorem keyStart_putWire : keyStart b (putWire w s) = putWire w (keyStart b s) := by simp [keyStart, putWire_ite]

@[simp] theorem keyAbort_putWire : keyAbort b (putWire w s) = putWire w (keyAbort b s) := by simp [keyAbort]

end

end Sys2Proof.Machine

namespace Sys2Proof.Machine

open Sys2Proof

/-! ## The end of a transaction in its stages (R166, R167, R169) -/

/-- The admissions lose no request (R166). -/
theorem admitLoop_perm (n : Nat) (q h : List BusEntry) :
    ((admitLoop n q h).1 ++ (admitLoop n q h).2).Perm (q ++ h) := by
  induction n generalizing q h with
  | zero => exact .refl _
  | succ n ih =>
    unfold admitLoop
    split
    · exact .refl _
    · split
      · exact .refl _
      · next e he =>
        refine (ih _ _).trans ?_
        rw [List.append_assoc]
        exact (List.perm_cons_erase (List.mem_of_find?_eq_some he)).symm.append_left q

section
variable {b : Bay} {s t u : State} {e x : BusEntry} {rest : List BusEntry} {refused : Option Nat} {attention : Bool}

/-- The requests that a bus holds, in its queue and in its held list. -/
abbrev requests (u : Bus) : List BusEntry := u.queue ++ u.held

/-- The device when the outcome of the transaction on the bus reaches its owner. -/
def headGone (e : BusEntry) (rest : List BusEntry) (refused : Option Nat) (attention : Bool) (s : State) : State :=
  (keyAttention e attention (s.modBus fun u => { setLines true true u with wire := bytesSent refused u.wire })).modBus
    fun u => { u with queue := rest, onBus := false }

/-- The bytes that the outcome hands over (R164). -/
def handedData (e : BusEntry) (refused : Option Nat) (data : List Byte) : List Byte :=
  if transactionOutcome e refused = .done then transactionData e data else []

/-- What follows the act of the owner (R166, R167, R169). -/
def ownerDone (b : Bay) (s : State) : State := enterIdle (closingRelease b (triggerBay b (serveHeld s)))

/-- The owner's act on the outcome of its transaction. -/
def ownerActs (e : BusEntry) (rest : List BusEntry) (refused : Option Nat) (data : List Byte) (attention : Bool)
    (s : State) : State :=
  deliver e (transactionOutcome e refused) (handedData e refused data) (headGone e rest refused attention s)

theorem keyAttention_bus (l : Bool) : (keyAttention e l s).bus = s.bus := by
  unfold keyAttention
  split
  · rw [modPanel_bus]
  · rfl

theorem stopHead_eq (hq : s.bus.queue = e :: rest) (data : List Byte) :
    stopHead refused data attention s = ownerDone e.bay (ownerActs e rest refused data attention s) := by
  have hQueue : (keyAttention e attention (s.modBus fun u => { setLines true true u with
      wire := bytesSent refused u.wire })).bus.queue = e :: rest := by
    rw [keyAttention_bus, modBus_bus]
    exact hq
  simp only [stopHead, hq, endHead, hQueue]
  rfl

theorem exec_transactionEnd (hs : Up s) (ha : s.bus.state = .active) (ho : s.bus.onBus = true)
    (hw : s.bus.waitScl = none) (data : List Byte) :
    exec (.transactionEnd refused data attention) s = .next (stopHead refused data attention s) := by
  rw [exec_up hs (f := whenever (transacting s.bus) (stopHead refused data attention)) rfl, whenever,
    if_pos (by simp [transacting, ha, ho, hw])]

/-! ### The state in which the owner acts -/

theorem headGone_bay (ho : e.owner ≠ .key) (c : Bay) : (headGone e rest refused attention s).bay c = s.bay c := by
  rw [headGone, keyAttention, if_neg ho]
  rfl

theorem headGone_xu : (headGone e rest refused attention s).xu = s.xu := by
  unfold headGone keyAttention
  split <;> rfl

theorem headGone_rackTime : (headGone e rest refused attention s).rackTime = s.rackTime := by
  unfold headGone keyAttention
  split <;> rfl

theorem headGone_state : (headGone e rest refused attention s).bus.state = s.bus.state := by
  rw [headGone, modBus_bus, keyAttention_bus]
  rfl

theorem headGone_free (ha : s.bus.state = .active) : BusFree (headGone e rest refused attention s).bus :=
  ⟨rfl, by rw [headGone_state, ha]; nofun⟩

/-! ### After the act of the owner -/

theorem enterIdle_requests : requests (enterIdle s).bus = requests s.bus := by
  have hState (st : BusState) (v : State) : requests (setBusState st v).bus = requests v.bus := by
    unfold setBusState
    split
    · rfl
    · simp
  unfold enterIdle restartCounts
  dsimp only
  split
  · exact hState ..
  · exact (hState ..).trans (hState ..)

theorem enterIdle_bay (c : Bay) : (enterIdle s).bay c = s.bay c := by
  have hState (st : BusState) (v : State) : (setBusState st v).bay c = v.bay c := by
    rw [State.bay, setBusState_bays]
    rfl
  unfold enterIdle restartCounts
  dsimp only
  split
  · exact hState ..
  · exact (hState ..).trans (hState ..)

theorem serveHeld_requests (h : x ∈ requests s.bus) : x ∈ requests (serveHeld s).bus :=
  (admitLoop_perm ..).mem_iff.2 h

theorem closingRelease_idle (h : NotHeld (s.bay b)) : closingRelease b s = s := by
  refine if_neg ?_
  rw [Bool.and_eq_true, Bool.and_eq_true, decide_eq_true_eq, decide_eq_true_eq]
  rintro ⟨⟨hPhase, hStage⟩, -⟩
  exact h hPhase hStage

theorem ownerDone_eq (h : NotHeld (s.bay b)) : ownerDone b s = enterIdle (triggerBay b (serveHeld s)) := by
  rw [ownerDone, closingRelease_idle]
  rw [triggerBay_self]
  exact h

/-- A bay that waits for no transaction in CLOSING is left by its owner's act as it is. -/
theorem ownerDone_bay (h : NotHeld (s.bay b)) :
    ∃ w, (ownerDone b s).bay b = { s.bay b with xu := { (s.bay b).xu with write := w } } :=
  ⟨_, by rw [ownerDone_eq h, enterIdle_bay, triggerBay_self, serveHeld_bay]⟩

theorem ownerDone_requests (h : NotHeld (s.bay b)) (hx : x ∈ requests s.bus) : x ∈ requests (ownerDone b s).bus := by
  rw [ownerDone_eq h, enterIdle_requests, requests, triggerBay_bus]
  exact serveHeld_requests hx

theorem ownerDone_grows : Grows s (ownerDone b s) := by
  have hBus : DeviceMoves none s (closingRelease b (triggerBay b (serveHeld s))) :=
    Moves.device (serveHeld_moves.trans (triggerBay_moves.trans closingRelease_moves))
  exact DeviceMoves.grows (by decide) (by decide) (hBus.trans enterIdle_device)

theorem Ended.ownerDone {r : StepResult} (h : Ended b r s t) (hn : NotHeld (t.bay b)) (hg : Grows s t) :
    Ended b r s (ownerDone b t) := by
  obtain ⟨w, hw⟩ := ownerDone_bay hn
  obtain ⟨hResult, hFlight, hRecord⟩ := h
  refine ⟨?_, ?_, fun k hk hl => hg.issued ownerDone_grows (hRecord k hk hl)⟩
  · rw [hw]
    exact hResult
  · rw [hw]
    exact hFlight

theorem Closed.ownerDone {verdict : Verdict} {cause : EndCause} {offending : Nat} (h : Closed b verdict cause offending t)
    (hn : NotHeld (t.bay b)) : Closed b verdict cause offending (ownerDone b t) := by
  obtain ⟨w, hw⟩ := ownerDone_bay hn
  rw [Closed, hw]
  exact h

end

end Sys2Proof.Machine

namespace Sys2Proof.Machine

open Sys2Proof

section
variable {b : Bay} {s t u : State} {e x : BusEntry} {rest : List BusEntry} {refused : Option Nat} {data : List Byte}
  {attention : Bool}

/-! ## Requests with the bus not FAILED (R162, R166, R198, R200, R201) -/

/-- A request among those that the bus holds; none is lost. -/
structure Joined (x : BusEntry) (s t : State) : Prop where
  joined : x ∈ requests t.bus
  kept : ∀ y ∈ requests s.bus, y ∈ requests t.bus
  state : t.bus.state = s.bus.state

theorem busRequest_joined (h : busRequest x s = some t) : Joined x s t := by
  refine ⟨busRequest_mem h, fun y hy => ?_, (busRequest_requested h).2.2.1⟩
  rw [requests, List.mem_append] at hy ⊢
  obtain ⟨-, -, -, ⟨-, -, hQueue, hHeld⟩ | ⟨hQueue, hHeld⟩⟩ := busRequest_cases h
  · rw [hQueue, hHeld]
    exact hy.imp_left (List.mem_append_left _)
  · rw [hQueue, hHeld]
    exact hy.imp_right (List.mem_append_left _)

theorem Joined.modPanel (h : Joined x s t) (f : Panel → Panel) : Joined x s (t.modPanel b f) :=
  ⟨by rw [modPanel_bus]; exact h.joined, by rw [modPanel_bus]; exact h.kept, by rw [modPanel_bus]; exact h.state⟩

theorem wantLamp_granted (hf : s.bus.state ≠ .failed) (hl : (s.bay b).panel.lampWrite = none) (lamps : Byte) :
    Joined (lampEntry b lamps) s (wantLamp b lamps s) ∧ (wantLamp b lamps s).bay b =
      { s.bay b with panel := { (s.bay b).panel with lampWrite := some lamps } } := by
  obtain ⟨t, ht⟩ := busRequest_granted hf (lampEntry b lamps)
  have hEq : wantLamp b lamps s = t.modPanel b fun p => { p with lampWrite := some lamps } := by
    simp only [wantLamp, hl, ht]
  rw [hEq, bay_modPanel, busRequest_bay ht]
  exact ⟨(busRequest_joined ht).modPanel _, rfl⟩

theorem requestFixed_joined (hf : s.bus.state ≠ .failed) (x : FixedText) :
    Joined (displayEntry b (.fixed x) (fixedTextBytes x)) s (requestFixed b x s) ∧ (requestFixed b x s).bay b =
      { s.bay b with panel := { (s.bay b).panel with display := some (.fixed x) } } := by
  obtain ⟨t, ht⟩ := busRequest_granted hf (displayEntry b (.fixed x) (fixedTextBytes x))
  have hEq : requestFixed b x s = t.modPanel b fun p => { p with display := some (.fixed x) } := by
    simp only [requestFixed, ht]
  rw [hEq, bay_modPanel, busRequest_bay ht]
  exact ⟨(busRequest_joined ht).modPanel _, rfl⟩

theorem verdictText_granted (hf : s.bus.state ≠ .failed) (bytes : List Byte) :
    Joined (displayEntry b .verdictText bytes) s (verdictTextWanted b (some bytes) s) ∧
      (verdictTextWanted b (some bytes) s).bay b =
        { s.bay b with panel := { (s.bay b).panel with display := some .verdictText } } := by
  obtain ⟨t, ht⟩ := busRequest_granted hf (displayEntry b .verdictText bytes)
  have hEq : verdictTextWanted b (some bytes) s = t.modPanel b fun p => { p with display := some .verdictText } := by
    simp only [verdictTextWanted, ht]
  rw [hEq, bay_modPanel, busRequest_bay ht]
  exact ⟨(busRequest_joined ht).modPanel _, rfl⟩

theorem pollKeys_granted (hf : s.bus.state ≠ .failed) (ha : (s.bay b).panel.attention = true)
    (hk : (s.bay b).panel.keyRead = .none) (hp : (s.bay b).phase ≠ .closing) : Joined (keyEntry b) s (pollKeys b s) ∧
      (pollKeys b s).bay b = { s.bay b with panel := { (s.bay b).panel with keyRead := .outstanding } } := by
  obtain ⟨t, ht⟩ := busRequest_granted hf (keyEntry b)
  have hEq : pollKeys b s = t.modPanel b fun p => { p with keyRead := .outstanding } := by
    simp [pollKeys, ha, hk, hp, ht]
  rw [hEq, bay_modPanel, busRequest_bay ht]
  exact ⟨(busRequest_joined ht).modPanel _, rfl⟩

/-! ## The lamp write (R200, R212) -/

/-- The state after an outcome that sets the flag when it is not DONE (R200, R212). -/
def flagUnlessDone (b : Bay) (o : BusOutcome) (s : State) : State := if o = .done then s else flagLampFailed b s

theorem flagUnlessDone_bay (o : BusOutcome) : (flagUnlessDone b o s).bay b = { s.bay b with
    status := { (s.bay b).status with lampFailed := (s.bay b).status.lampFailed || o ≠ .done } } := by
  unfold flagUnlessDone
  split
  · next ho => simp [ho]
  · next ho => simp [flagLampFailed, ho]

theorem flagUnlessDone_bus (o : BusOutcome) : (flagUnlessDone b o s).bus = s.bus := by
  unfold flagUnlessDone
  split <;> rfl

/-- The panel once its lamp write has ended: a waiting one is outstanding (R200). -/
def lampFreed (p : Panel) : Panel := { p with lampWrite := p.lampWaiting, lampWaiting := none }

theorem lampOver_granted (hf : s.bus.state ≠ .failed) :
    (lampOver b s).bay b = { s.bay b with panel := lampFreed (s.bay b).panel } ∧
      ∀ lamps, (s.bay b).panel.lampWaiting = some lamps → lampEntry b lamps ∈ requests (lampOver b s).bus := by
  cases hw : (s.bay b).panel.lampWaiting with
  | none =>
    have hEq : lampOver b s = s.modPanel b fun p => { p with lampWrite := none, lampWaiting := none } := by
      simp only [lampOver, hw]
    rw [hEq, bay_modPanel, lampFreed, hw]
    exact ⟨rfl, nofun⟩
  | some lamps =>
    generalize hu : s.modPanel b (fun p => { p with lampWrite := none, lampWaiting := none }) = u
    have hBay : u.bay b = { s.bay b with
        panel := { (s.bay b).panel with lampWrite := none, lampWaiting := none } } := by rw [← hu, bay_modPanel]
    have hBus : u.bus = s.bus := by rw [← hu, modPanel_bus]
    obtain ⟨hJoined, hOver⟩ := wantLamp_granted (b := b) (s := u) (by rwa [hBus]) (by rw [hBay]) lamps
    have hEq : lampOver b s = wantLamp b lamps u := by simp only [lampOver, hw, hu]
    rw [hEq, hOver, hBay, lampFreed, hw]
    refine ⟨rfl, ?_⟩
    rintro _ ⟨⟩
    exact hJoined.joined

theorem lampEnded_running (o : BusOutcome) (hp : (s.bay b).phase ≠ .closing) :
    lampEnded b o s = lampOver b (flagUnlessDone b o s) := by
  have hPhase : ((lampOver b (flagUnlessDone b o s)).bay b).phase = (s.bay b).phase := by
    have hLamp : PanelAsks b (flagUnlessDone b o s) (lampOver b (flagUnlessDone b o s)) := by
      simp only [lampOver]
      split
      · exact modPanel_asks rfl
      · exact (modPanel_asks rfl).trans (wantLamp_asks _)
    obtain ⟨p, f, -, hb⟩ := hLamp.bay
    rw [hb, flagUnlessDone_bay]
  have hAgain : closingPanelAgain b (lampOver b (flagUnlessDone b o s)) = lampOver b (flagUnlessDone b o s) :=
    if_neg (by simp [hPhase, hp])
  exact hAgain

/-- A lamp write's end outside CLOSING (R200). -/
theorem lampEnded_granted (o : BusOutcome) (hf : s.bus.state ≠ .failed) (hp : (s.bay b).phase ≠ .closing) :
    (lampEnded b o s).bay b = { s.bay b with
        panel := lampFreed (s.bay b).panel
        status := { (s.bay b).status with lampFailed := (s.bay b).status.lampFailed || o ≠ .done } } ∧
      ∀ lamps, (s.bay b).panel.lampWaiting = some lamps → lampEntry b lamps ∈ requests (lampEnded b o s).bus := by
  obtain ⟨hBay, hMem⟩ := lampOver_granted (b := b) (s := flagUnlessDone b o s) (by rwa [flagUnlessDone_bus])
  rw [lampEnded_running o hp, hBay, flagUnlessDone_bay]
  rw [flagUnlessDone_bay] at hMem
  exact ⟨rfl, hMem⟩

/-! ## The display write (R198, R212) -/

/-- The panel once a display write has ended: a waiting text is outstanding (R198). -/
def displayFreed (p : Panel) : Panel := { p with display := p.waitingText.map .fixed, waitingText := none }

theorem pumpText_granted (hf : s.bus.state ≠ .failed) (hd : (s.bay b).panel.display = none) :
    (pumpText b s).bay b = { s.bay b with panel := displayFreed (s.bay b).panel } ∧
      ∀ x, (s.bay b).panel.waitingText = some x →
        displayEntry b (.fixed x) (fixedTextBytes x) ∈ requests (pumpText b s).bus := by
  cases hw : (s.bay b).panel.waitingText with
  | none =>
    have hSame : s.bay b = { s.bay b with panel := displayFreed (s.bay b).panel } := by
      rw [displayFreed, hw, Option.map_none, ← hd, ← hw]
    rw [pumpText_idle (.inr hw)]
    exact ⟨hSame, nofun⟩
  | some x =>
    generalize hu : s.modPanel b (fun p => { p with waitingText := none }) = u
    have hBay : u.bay b = { s.bay b with panel := { (s.bay b).panel with waitingText := none } } := by
      rw [← hu, bay_modPanel]
    have hBus : u.bus = s.bus := by rw [← hu, modPanel_bus]
    obtain ⟨hJoined, hNext⟩ := requestFixed_joined (b := b) (s := u) (by rwa [hBus]) x
    have hEq : pumpText b s = requestFixed b x u := by simp only [pumpText, hd, hw, hu]
    rw [hEq, hNext, hBay, displayFreed, hw]
    refine ⟨rfl, ?_⟩
    rintro _ ⟨⟩
    exact hJoined.joined

/-- A fixed text's end in a bay whose run is over (R198). -/
theorem fixedTextEnded_granted (text : FixedText) (o : BusOutcome) (hf : s.bus.state ≠ .failed) (h : Over (s.bay b)) :
    (displayEnded b (.fixed text) o s).bay b = { s.bay b with panel := displayFreed (s.bay b).panel } ∧
      ∀ x, (s.bay b).panel.waitingText = some x →
        displayEntry b (.fixed x) (fixedTextBytes x) ∈ requests (displayEnded b (.fixed text) o s).bus := by
  generalize hu : s.modPanel b (fun p => { p with display := none }) = u
  have hBay : u.bay b = { s.bay b with panel := { (s.bay b).panel with display := none } } := by rw [← hu, bay_modPanel]
  have hBus : u.bus = s.bus := by rw [← hu, modPanel_bus]
  have hOver : Over (u.bay b) := by
    rw [hBay]
    exact ⟨h.flight, h.running, h.paused⟩
  have hSettled : settleChecks b u = u := settleChecks_idle fun e he => by
    rw [hOver.flight] at he
    exact absurd he List.not_mem_nil
  obtain ⟨hNext, hMem⟩ := pumpText_granted (b := b) (s := u) (by rwa [hBus]) (by rw [hBay])
  have hEq : displayEnded b (.fixed text) o s = pumpText b u := by
    have hEnds : displayEnded b (.fixed text) o s = afterEnds b (settleChecks b u) := by rw [← hu]; rfl
    rw [hEnds, hSettled, hOver.afterEnds, pumpText_idle (s := pumpText b u) (.inr (by rw [hNext]; rfl))]
  rw [hEq, hNext]
  rw [hBay] at hMem ⊢
  exact ⟨rfl, hMem⟩

/-- The verdict text's end before the lamp write's (R212). -/
theorem verdictTextEnded_waits (o : BusOutcome) (hl : (s.bay b).panel.lampWrite ≠ none) :
    (displayEnded b .verdictText o s).bay b = { s.bay b with
      panel := { (s.bay b).panel with display := none }
      status := { (s.bay b).status with lampFailed := (s.bay b).status.lampFailed || o ≠ .done } } := by
  generalize hu : flagUnlessDone b o (s.modPanel b fun p => { p with display := none }) = u
  have hBay : u.bay b = { s.bay b with
      panel := { (s.bay b).panel with display := none }
      status := { (s.bay b).status with lampFailed := (s.bay b).status.lampFailed || o ≠ .done } } := by
    rw [← hu, flagUnlessDone_bay, bay_modPanel]
  have hDone : closingPanelDone b u = u := if_neg (by simp [hBay, hl])
  have hEq : displayEnded b .verdictText o s = closingPanelAgain b u := by rw [← hu]; rfl
  rw [hEq, closingPanelAgain, hDone, ite_self, hBay]

/-! ## The cycle-count write (R63, R188, R212) -/

/-- The verdict display of a run with no verdict write outstanding: the lamp is written, and the text that the verdict calls
for (R212). -/
theorem closingPanel_granted {v : Verdict} (hf : s.bus.state ≠ .failed) (hv : (s.bay b).run.verdict = some v)
    (hl : (s.bay b).panel.lampWrite = none) (hd : (s.bay b).panel.display = none) :
    (closingPanel b s).bay b = { s.bay b with
        run := { (s.bay b).run with closing := .panel }
        panel := { (s.bay b).panel with
          lampWrite := some (verdictLamp v)
          display := (verdictText (s.bay b).run).map fun _ => .verdictText } } ∧
      lampEntry b (verdictLamp v) ∈ requests (closingPanel b s).bus ∧
      ∀ bytes, verdictText (s.bay b).run = some bytes →
        displayEntry b .verdictText bytes ∈ requests (closingPanel b s).bus := by
  generalize hm : s.modRun b (fun r => { r with closing := .panel }) = m
  have hBay : m.bay b = { s.bay b with run := { (s.bay b).run with closing := .panel } } := by rw [← hm, bay_modRun]
  have hBus : m.bus = s.bus := by rw [← hm, modRun_bus]
  obtain ⟨hLamp, hLampBay⟩ := wantLamp_granted (b := b) (s := m) (by rwa [hBus]) (by rw [hBay]; exact hl) (verdictLamp v)
  have hEq : closingPanel b s =
      closingPanelDone b (verdictTextWanted b (verdictText (s.bay b).run) (wantLamp b (verdictLamp v) m)) := by
    rw [closingPanel_eq, hv, hm]
    rfl
  have hWaits {u : State} (hu : (u.bay b).panel.lampWrite = some (verdictLamp v)) : closingPanelDone b u = u :=
    if_neg (by simp [hu])
  rw [hBay] at hLampBay
  cases hText : verdictText (s.bay b).run with
  | none =>
    have hStay : closingPanel b s = wantLamp b (verdictLamp v) m := by
      rw [hEq, hText]
      exact hWaits (u := wantLamp b (verdictLamp v) m) (by rw [hLampBay])
    rw [hStay, hLampBay]
    exact ⟨by rw [Option.map_none, ← hd], hLamp.joined, nofun⟩
  | some bytes =>
    obtain ⟨hJoined, hTextBay⟩ := verdictText_granted (b := b) (s := wantLamp b (verdictLamp v) m)
      (by rw [hLamp.state, hBus]; exact hf) bytes
    rw [hLampBay] at hTextBay
    have hStay : closingPanel b s = verdictTextWanted b (some bytes) (wantLamp b (verdictLamp v) m) := by
      rw [hEq, hText]
      exact hWaits (by rw [hTextBay])
    rw [hStay, hTextBay]
    refine ⟨rfl, hJoined.kept _ hLamp.joined, ?_⟩
    rintro _ ⟨⟩
    exact hJoined.joined

end

end Sys2Proof.Machine

namespace Sys2Proof.Machine

open Sys2Proof

section
variable {b : Bay} {s t u : State} {e x : BusEntry} {rest : List BusEntry} {refused : Option Nat} {data : List Byte}
  {attention : Bool}

/-! ## The panel's owners: lamp, fixed text and verdict text (R198, R200, R212) -/

/-- The device after a transaction's end: what the owner has done, and what follows it. -/
abbrev transactionOver (e : BusEntry) (rest : List BusEntry) (refused : Option Nat) (data : List Byte) (attention : Bool)
    (s : State) : State :=
  ownerDone e.bay (ownerActs e rest refused data attention s)

theorem lampOwner (ha : s.bus.state = .active) (ho : e.owner = .lamp) (hp : (s.bay e.bay).phase ≠ .closing) :
    let t := transactionOver e rest refused data attention s
    (t.bay e.bay).run = (s.bay e.bay).run ∧
      (transactionOutcome e refused ≠ .done → (t.bay e.bay).status.lampFailed = true) ∧
      (transactionOutcome e refused = .done → (t.bay e.bay).status = (s.bay e.bay).status) ∧
      ∀ lamps, (s.bay e.bay).panel.lampWaiting = some lamps →
        (t.bay e.bay).panel = { (s.bay e.bay).panel with lampWrite := some lamps, lampWaiting := none } ∧
        ⟨e.bay, .lamp, 1, .write [lamps], 0x40, 0, false⟩ ∈ requests t.bus := by
  have hGone : (headGone e rest refused attention s).bay e.bay = s.bay e.bay := headGone_bay (by rw [ho]; nofun) _
  have hActs : ownerActs e rest refused data attention s =
      lampEnded e.bay (transactionOutcome e refused) (headGone e rest refused attention s) := by
    simp only [ownerActs, deliver, ho]
  obtain ⟨hEnded, hMem⟩ := lampEnded_granted (b := e.bay) (s := headGone e rest refused attention s)
    (transactionOutcome e refused) (headGone_free ha).2 (by rwa [hGone])
  rw [hGone] at hEnded hMem
  rw [← hActs] at hEnded hMem
  have hHeld : NotHeld ((ownerActs e rest refused data attention s).bay e.bay) := by
    rw [hEnded]
    exact fun h => absurd h hp
  obtain ⟨w, hw⟩ := ownerDone_bay hHeld
  dsimp only
  rw [hw, hEnded]
  refine ⟨rfl, fun h => by simp [h], fun h => by simp [h], fun lamps hl => ⟨by rw [lampFreed, hl], ?_⟩⟩
  exact ownerDone_requests hHeld (hMem lamps hl)

theorem fixedTextOwner {text : FixedText} (ha : s.bus.state = .active) (ho : e.owner = .display (.fixed text))
    (hr : (s.bay e.bay).phase ≠ .running) (hp : (s.bay e.bay).phase ≠ .paused) (hc : (s.bay e.bay).phase ≠ .closing)
    (hf : (s.bay e.bay).run.inFlight = []) :
    let t := transactionOver e rest refused data attention s
    (t.bay e.bay).run = (s.bay e.bay).run ∧ (t.bay e.bay).status = (s.bay e.bay).status ∧
      ((s.bay e.bay).panel.waitingText = none →
        (t.bay e.bay).panel = { (s.bay e.bay).panel with display := none }) ∧
      ∀ next, (s.bay e.bay).panel.waitingText = some next →
        (t.bay e.bay).panel = { (s.bay e.bay).panel with display := some (.fixed next), waitingText := none } ∧
        ⟨e.bay, .display (.fixed next), 1, .write (fixedTextBytes next), 0, 0, false⟩ ∈ requests t.bus := by
  have hGone : (headGone e rest refused attention s).bay e.bay = s.bay e.bay := headGone_bay (by rw [ho]; nofun) _
  have hActs : ownerActs e rest refused data attention s =
      displayEnded e.bay (.fixed text) (transactionOutcome e refused) (headGone e rest refused attention s) := by
    simp only [ownerActs, deliver, ho]
  obtain ⟨hEnded, hMem⟩ := fixedTextEnded_granted (b := e.bay) (s := headGone e rest refused attention s) text
    (transactionOutcome e refused) (headGone_free ha).2 (by rw [hGone]; exact ⟨hf, hr, hp⟩)
  rw [hGone] at hEnded hMem
  rw [← hActs] at hEnded hMem
  have hHeld : NotHeld ((ownerActs e rest refused data attention s).bay e.bay) := by
    rw [hEnded]
    exact fun h => absurd h hc
  obtain ⟨w, hw⟩ := ownerDone_bay hHeld
  dsimp only
  rw [hw, hEnded]
  refine ⟨rfl, rfl, fun h => ?_, fun next h => ⟨by rw [displayFreed, h]; rfl, ownerDone_requests hHeld (hMem next h)⟩⟩
  dsimp only
  rw [displayFreed, h, Option.map_none, ← h]

theorem verdictTextOwner (ho : e.owner = .display .verdictText) (hc : (s.bay e.bay).phase = .closing)
    (hs : (s.bay e.bay).run.closing = .panel) (hl : (s.bay e.bay).panel.lampWrite ≠ none) :
    let t := transactionOver e rest refused data attention s
    (t.bay e.bay).phase = .closing ∧ (t.bay e.bay).run = (s.bay e.bay).run ∧ (t.bay e.bay).panel.display = none ∧
      (transactionOutcome e refused = .done → (t.bay e.bay).status = (s.bay e.bay).status) ∧
      (transactionOutcome e refused ≠ .done → (t.bay e.bay).status.lampFailed = true) := by
  have hGone : (headGone e rest refused attention s).bay e.bay = s.bay e.bay := headGone_bay (by rw [ho]; nofun) _
  have hActs : ownerActs e rest refused data attention s =
      displayEnded e.bay .verdictText (transactionOutcome e refused) (headGone e rest refused attention s) := by
    simp only [ownerActs, deliver, ho]
  have hEnded := verdictTextEnded_waits (b := e.bay) (s := headGone e rest refused attention s)
    (transactionOutcome e refused) (by rwa [hGone])
  rw [hGone] at hEnded
  rw [← hActs] at hEnded
  have hHeld : NotHeld ((ownerActs e rest refused data attention s).bay e.bay) := by
    rw [hEnded]
    exact fun _ => by rw [hs]; nofun
  obtain ⟨w, hw⟩ := ownerDone_bay hHeld
  dsimp only
  rw [hw, hEnded]
  exact ⟨hc, rfl, rfl, fun h => by simp [h], fun h => by simp [h]⟩

/-! ## The cycle-count write (R63, R188, R212) -/

theorem cycleCountOwner (ha : s.bus.state = .active) (ho : e.owner = .cycleCount) (hc : (s.bay e.bay).phase = .closing)
    (hs : (s.bay e.bay).run.closing = .cycle) (hl : (s.bay e.bay).panel.lampWrite = none)
    (hd : (s.bay e.bay).panel.display = none) {v : Verdict} (hv : (s.bay e.bay).run.verdict = some v) {i : Ident}
    (hi : (s.bay e.bay).run.ident = some i) :
    let t := transactionOver e rest refused data attention s
    (t.bay e.bay).phase = .closing ∧ (t.bay e.bay).run.closing = .panel ∧
      (transactionOutcome e refused = .done → (t.bay e.bay).status.identCycles = i.cycles + 1 ∧
        (t.bay e.bay).run.cycleAfter = i.cycles + 1) ∧
      (transactionOutcome e refused ≠ .done → (t.bay e.bay).status.cycleFailed = true ∧
        (t.bay e.bay).run.cycleAfter = (s.bay e.bay).run.cycleAfter) ∧
      lampEntry e.bay (verdictLamp v) ∈ requests t.bus ∧
      (t.bay e.bay).panel.display = (verdictText (s.bay e.bay).run).map (fun _ => .verdictText) ∧
      ∀ bytes, verdictText (s.bay e.bay).run = some bytes → displayEntry e.bay .verdictText bytes ∈ requests t.bus := by
  have hGone : (headGone e rest refused attention s).bay e.bay = s.bay e.bay := headGone_bay (by rw [ho]; nofun) _
  have hFree := headGone_free (e := e) (rest := rest) (refused := refused) (attention := attention) ha
  generalize hg : headGone e rest refused attention s = g at hGone hFree
  have hValue : cycleValue (g.bay e.bay).run = i.cycles + 1 := by simp only [hGone, cycleValue, hi]
  generalize hk : (if transactionOutcome e refused = .done then
      (g.modRun e.bay fun r => { r with cycleAfter := i.cycles + 1 }).modStatus e.bay fun t =>
        { t with identCycles := i.cycles + 1 }
    else g.modStatus e.bay fun t => { t with cycleFailed := true }) = k
  have hActs : ownerActs e rest refused data attention s = closingPanel e.bay k := by
    have hCycle : ownerActs e rest refused data attention s = cycleEnded e.bay (transactionOutcome e refused) g := by
      simp only [ownerActs, deliver, ho, hg, cycleCountEnded]
      exact if_pos (by simp [hGone, hc, hs])
    rw [hCycle, ← hk, ← hValue]
    rfl
  have hBus : k.bus = g.bus := by
    rw [← hk]
    split <;> simp
  have hBay : ∃ c st, k.bay e.bay = { s.bay e.bay with run := { (s.bay e.bay).run with cycleAfter := c }, status := st } ∧
      (transactionOutcome e refused = .done → st.identCycles = i.cycles + 1 ∧ c = i.cycles + 1) ∧
      (transactionOutcome e refused ≠ .done → st.cycleFailed = true ∧ c = (s.bay e.bay).run.cycleAfter) := by
    rw [← hk]
    by_cases hDone : transactionOutcome e refused = .done
    · rw [if_pos hDone, bay_modStatus, bay_modRun, hGone]
      exact ⟨_, _, rfl, fun _ => ⟨rfl, rfl⟩, fun h => absurd hDone h⟩
    · rw [if_neg hDone, bay_modStatus, hGone]
      exact ⟨_, _, rfl, fun h => absurd h hDone, fun _ => ⟨rfl, rfl⟩⟩
  obtain ⟨c, st, hBay, hDone, hFailed⟩ := hBay
  obtain ⟨hPanel, hLamp, hText⟩ := closingPanel_granted (b := e.bay) (s := k) (v := v) (by rw [hBus]; exact hFree.2)
    (by rw [hBay]; exact hv) (by rw [hBay]; exact hl) (by rw [hBay]; exact hd)
  rw [← hActs] at hPanel hLamp hText
  rw [hBay] at hPanel hText
  have hHeld : NotHeld ((ownerActs e rest refused data attention s).bay e.bay) := by
    rw [hPanel]
    exact fun _ => nofun
  obtain ⟨w, hw⟩ := ownerDone_bay hHeld
  dsimp only
  rw [hw, hPanel]
  exact ⟨hc, rfl, hDone, hFailed, ownerDone_requests hHeld hLamp, rfl,
    fun bytes h => ownerDone_requests hHeld (hText bytes h)⟩

end

end Sys2Proof.Machine

namespace Sys2Proof.Machine

open Sys2Proof

/-! ## The ident values read (R164, R182) -/

theorem getD_bytesAt (d : List Byte) (n i : Nat) (h : i < n) : (bytesAt d 0 n).getD i 0 = d.getD i 0 := by
  rw [bytesAt, List.getD_eq_getElem?_getD, List.getElem?_map, List.getElem?_range h]
  simp

theorem byteAt_bytesAt (d : List Byte) (n i : Nat) (h : i < n) : byteAt (bytesAt d 0 n) i = byteAt d i := by
  rw [byteAt, getD_bytesAt d n i h, byteAt]

theorem u16At_bytesAt (d : List Byte) (n i : Nat) (h : i + 1 < n) : u16At (bytesAt d 0 n) i = u16At d i := by
  rw [u16At, byteAt_bytesAt d n i (by omega), byteAt_bytesAt d n (i + 1) h, u16At]

theorem u32At_bytesAt (d : List Byte) (n i : Nat) (h : i + 3 < n) : u32At (bytesAt d 0 n) i = u32At d i := by
  rw [u32At, u16At_bytesAt d n i (by omega), u16At_bytesAt d n (i + 2) h, u32At]

/-- The 14 bytes of the ident read hold the ident values (R182). -/
theorem parseIdent_bytesAt (d : List Byte) : parseIdent (bytesAt d 0 14) = parseIdent d := by
  simp only [parseIdent, u16At_bytesAt d 14 0 (by decide), u32At_bytesAt d 14 2 (by decide),
    u32At_bytesAt d 14 6 (by decide), u32At_bytesAt d 14 10 (by decide)]

theorem u32At_lt (d : List Byte) (i : Nat) : u32At d i < 2 ^ 32 := by
  have hByte (j : Nat) : byteAt d j < 256 := (d.getD j 0).isLt
  have h0 := hByte i
  have h1 := hByte (i + 1)
  have h2 := hByte (i + 2)
  have h3 := hByte (i + 2 + 1)
  simp only [u32At, u16At]
  omega

theorem toNat_u32At (d : List Byte) (i : Nat) : (BitVec.ofNat 32 (u32At d i)).toNat = u32At d i := by
  rw [BitVec.toNat_ofNat, Nat.mod_eq_of_lt (u32At_lt d i)]

section
variable {b : Bay} {s t u : State} {e x : BusEntry} {rest : List BusEntry} {refused : Option Nat} {data : List Byte}
  {attention : Bool}

/-! ## The judgement of the ident values (R184) -/

theorem checkVerdict_mismatch {r : RunEngine} {h : Header} (hh : r.copy.header = some h) {x : Ident}
    (h0 : h.fixtureType ≠ 0) (hx : h.fixtureType ≠ x.typeCode) : checkVerdict r x = some .fixtureMismatch := by
  simp [checkVerdict, runOption, hh, h0, hx]

theorem checkVerdict_due {r : RunEngine} {h : Header} (hh : r.copy.header = some h) {x : Ident}
    (hx : h.fixtureType = 0 ∨ h.fixtureType = x.typeCode) (h0 : x.limit.toNat ≠ 0) (hd : x.limit.toNat ≤ x.cycles.toNat)
    (hi : h.ignoreService = false) : checkVerdict r x = some .serviceDue := by
  have hLimit : x.limit ≠ 0 := fun hz => h0 (congrArg BitVec.toNat hz)
  have hDue : (x.limit ≠ 0 && x.limit.toNat ≤ x.cycles.toNat) = true := by
    rw [Bool.and_eq_true, decide_eq_true_eq, decide_eq_true_eq]
    exact ⟨hLimit, hd⟩
  rcases hx with hx | hx <;> simp only [checkVerdict, runOption, hh, hx, hDue, hi] <;> simp

theorem checkVerdict_passed {r : RunEngine} {h : Header} (hh : r.copy.header = some h) {x : Ident}
    (hx : h.fixtureType = 0 ∨ h.fixtureType = x.typeCode)
    (hp : x.limit.toNat = 0 ∨ x.cycles.toNat < x.limit.toNat ∨ h.ignoreService = true) : checkVerdict r x = none := by
  have hType : runOption r (fun h => h.fixtureType ≠ 0 && h.fixtureType ≠ x.typeCode) = false := by
    rcases hx with hx | hx <;> simp [runOption, hh, hx]
  have hService : (x.limit ≠ 0 && x.limit.toNat ≤ x.cycles.toNat && !runOption r (fun h => h.ignoreService)) = false := by
    rcases hp with hp | hp | hp
    · have hLimit : x.limit = 0 := BitVec.eq_of_toNat_eq hp
      simp [hLimit]
    · simp only [Nat.not_le.2 hp, decide_false, Bool.and_false, Bool.false_and]
    · simp [runOption, hh, hp]
  simp only [checkVerdict, hType, hService, Bool.false_eq_true, if_false]

/-! ## The fixture check (R41 to R43, R184 to R186) -/

theorem refuse_calm (cause : EndCause) : Calm b s (refuse b cause s) := enterClosing_calm _ _ _ _

theorem enterArming_calm : Calm b s (enterArming b s) := (setPhase_calm (by nofun)).trans (wantText_calm _)

theorem runningEntered_calm : Calm b s (runningEntered b s) :=
  Calm.trans (t := s.modBay b fun y => { y with
      run := { y.run with startTime := s.rackTime, ran := true }
      panel := { y.panel with closeLid := false } })
    (modBay_calm rfl rfl rfl rfl rfl rfl id) (setPhase_calm (by nofun))

theorem enterRunning_calm : Calm b s (enterRunning b s) := runningEntered_calm.trans walk_works.calm

theorem checkPassed_calm : Calm b s (checkPassed b s) :=
  .ite (fun _ => enterArming_calm) fun _ => .ite (fun _ => refuse_calm _) fun _ => enterRunning_calm

theorem enterArming_phase : ((enterArming b s).bay b).phase = .arming := by
  obtain ⟨p, f, -, hb⟩ := (wantText_asks (b := b) (s := setPhase b .arming s) .pressStart).bay
  rw [enterArming, hb, setPhase_self]

theorem checkPassed_arming {h : Header} (hh : (s.bay b).run.copy.header = some h) (hw : h.waitStart = true) :
    checkPassed b s = enterArming b s := if_pos (by simp only [runOption, hh, hw])

theorem checkPassed_open {h : Header} (hh : (s.bay b).run.copy.header = some h) (hw : h.waitStart = false)
    (hl : (s.bay b).supply.lidOpen = true) : checkPassed b s = refuse b (.abort .lidOpen) s := by
  simp [checkPassed, runOption, hh, hw, hl]

theorem checkPassed_running {h : Header} (hh : (s.bay b).run.copy.header = some h) (hw : h.waitStart = false)
    (hl : (s.bay b).supply.lidOpen = false) : checkPassed b s = enterRunning b s := by
  simp [checkPassed, runOption, hh, hw, hl]

/-- The ident read out of CHECKING (R186). -/
theorem fixtureCheckOwner_discarded (ho : e.owner = .fixtureCheck) (hk : (s.bay e.bay).phase ≠ .checking)
    (hc : (s.bay e.bay).phase ≠ .closing) :
    let t := transactionOver e rest refused data attention s
    (t.bay e.bay).phase = (s.bay e.bay).phase ∧ (t.bay e.bay).run = { (s.bay e.bay).run with identMark := false } := by
  have hGone : (headGone e rest refused attention s).bay e.bay = s.bay e.bay := headGone_bay (by rw [ho]; nofun) _
  have hActs : ownerActs e rest refused data attention s =
      (headGone e rest refused attention s).modRun e.bay fun r => { r with identMark := false } := by
    simp only [ownerActs, deliver, ho, takeIdent]
    exact if_pos (by rw [bay_modRun, hGone]; exact hk)
  have hBay : (ownerActs e rest refused data attention s).bay e.bay =
      { s.bay e.bay with run := { (s.bay e.bay).run with identMark := false } } := by rw [hActs, bay_modRun, hGone]
  obtain ⟨w, hw⟩ := ownerDone_bay (b := e.bay) (s := ownerActs e rest refused data attention s)
    (by rw [hBay]; exact fun h => absurd h hc)
  dsimp only
  rw [hw, hBay]
  exact ⟨rfl, rfl⟩

/-- The judgement of the ident values once they are kept (R184). -/
def identJudged (b : Bay) (x : Ident) (s : State) : State :=
  match checkVerdict (s.bay b).run x with
  | some cause => refuse b cause s
  | none => checkPassed b s

theorem identJudged_refused {x : Ident} {cause : EndCause} (h : checkVerdict (s.bay b).run x = some cause) :
    identJudged b x s = refuse b cause s := by
  simp only [identJudged, h]

theorem identJudged_passed {x : Ident} (h : checkVerdict (s.bay b).run x = none) : identJudged b x s = checkPassed b s := by
  simp only [identJudged, h]

theorem identJudged_calm (x : Ident) : Calm b s (identJudged b x s) := by
  unfold identJudged
  split
  · exact refuse_calm _
  · exact checkPassed_calm

/-- The state in which the fixture check judges the values read. -/
def identTaken (e : BusEntry) (rest : List BusEntry) (refused : Option Nat) (data : List Byte) (attention : Bool) (s : State) :
    State :=
  takeIdentValues e.bay (parseIdent data)
    ((headGone e rest refused attention s).modRun e.bay fun r => { r with identMark := false })

theorem identTaken_bay (ho : e.owner = .fixtureCheck) : (identTaken e rest refused data attention s).bay e.bay =
    { s.bay e.bay with
      run := { (s.bay e.bay).run with
        identMark := false, ident := some (parseIdent data), cycleAfter := (parseIdent data).cycles }
      status := { (s.bay e.bay).status with
        identType := (parseIdent data).typeCode
        identSerial := (parseIdent data).serial
        identCycles := (parseIdent data).cycles } } := by
  rw [identTaken, takeIdentValues, bay_modStatus, bay_modRun, bay_modRun, headGone_bay (by rw [ho]; nofun)]

theorem identTaken_free (ha : s.bus.state = .active) : BusFree (identTaken e rest refused data attention s).bus :=
  headGone_free (e := e) (rest := rest) (refused := refused) (attention := attention) ha

theorem ownerActs_fixtureCheck (ho : e.owner = .fixtureCheck) (hk : (s.bay e.bay).phase = .checking)
    (hd : transactionOutcome e refused = .done) (hr : e.op = .read 14) :
    ownerActs e rest refused data attention s =
      identJudged e.bay (parseIdent data) (identTaken e rest refused data attention s) := by
  have hGone : (headGone e rest refused attention s).bay e.bay = s.bay e.bay := headGone_bay (by rw [ho]; nofun) _
  have hData : parseIdent (handedData e refused data) = parseIdent data := by
    rw [handedData, if_pos hd, transactionData, hr]
    exact parseIdent_bytesAt data
  simp only [ownerActs, deliver, ho, takeIdent, hd, hData, bay_modRun, hGone, hk]
  rfl

/-- A refusal with nothing on the bus (R37). -/
theorem refuse_over (hf : BusFree s.bus) (cause : EndCause) : Closed b .refused cause 0 (ownerDone b (refuse b cause s)) :=
  Closed.ownerDone enterClosing_closed fun _ => enterClosing_stage hf _ _ _ _

/-- An ident read that did not end DONE refuses the run (R184). -/
theorem fixtureCheckOwner_failed (ha : s.bus.state = .active) (ho : e.owner = .fixtureCheck)
    (hk : (s.bay e.bay).phase = .checking) (hd : transactionOutcome e refused ≠ .done) :
    Closed e.bay .refused .fixtureBus 0 (transactionOver e rest refused data attention s) := by
  have hGone : (headGone e rest refused attention s).bay e.bay = s.bay e.bay := headGone_bay (by rw [ho]; nofun) _
  have hActs : ownerActs e rest refused data attention s = refuse e.bay .fixtureBus
      ((headGone e rest refused attention s).modRun e.bay fun r => { r with identMark := false }) := by
    simp only [ownerActs, deliver, ho, takeIdent, bay_modRun, hGone, hk]
    simp [hd]
  rw [transactionOver, hActs]
  refine refuse_over ?_ _
  rw [modRun_bus]
  exact headGone_free ha

theorem fixtureCheckOwner (ha : s.bus.state = .active) (ho : e.owner = .fixtureCheck)
    (hk : (s.bay e.bay).phase = .checking) {h : Header} (hh : (s.bay e.bay).run.copy.header = some h)
    (hd : transactionOutcome e refused = .done) (hr : e.op = .read 14) :
    let t := transactionOver e rest refused data attention s
    idents (t.bay e.bay).status = (u16At data 0, BitVec.ofNat 32 (u32At data 2), BitVec.ofNat 32 (u32At data 6)) ∧
      (h.fixtureType ≠ 0 → h.fixtureType ≠ u16At data 0 → Closed e.bay .refused .fixtureMismatch 0 t) ∧
      (h.fixtureType = 0 ∨ h.fixtureType = u16At data 0 →
        (u32At data 10 ≠ 0 → u32At data 10 ≤ u32At data 6 → h.ignoreService = false →
          Closed e.bay .refused .serviceDue 0 t) ∧
        (u32At data 10 = 0 ∨ u32At data 6 < u32At data 10 ∨ h.ignoreService = true →
          (h.waitStart = true → (t.bay e.bay).phase = .arming) ∧
          (h.waitStart = false → (s.bay e.bay).supply.lidOpen = true → Closed e.bay .refused (.abort .lidOpen) 0 t) ∧
          (h.waitStart = false → (s.bay e.bay).supply.lidOpen = false →
            (t.bay e.bay).run.ran = true ∧ (t.bay e.bay).run.startTime = s.rackTime ∧
            (t.bay e.bay).phase ≠ .checking ∧ (t.bay e.bay).phase ≠ .arming))) := by
  have hTime : (identTaken e rest refused data attention s).rackTime = s.rackTime :=
    headGone_rackTime (e := e) (rest := rest) (refused := refused) (attention := attention)
  have hFree := identTaken_free (e := e) (rest := rest) (refused := refused) (data := data) (attention := attention) ha
  have hBay := identTaken_bay (rest := rest) (refused := refused) (data := data) (attention := attention) (s := s) ho
  dsimp only
  rw [transactionOver, ownerActs_fixtureCheck ho hk hd hr]
  generalize identTaken e rest refused data attention s = v at hTime hFree hBay
  have hCalm : Calm e.bay v (identJudged e.bay (parseIdent data) v) := identJudged_calm _
  obtain ⟨w, hw⟩ := ownerDone_bay (hCalm.held hFree (by rw [hBay]; exact fun h => absurd (hk.symm.trans h) nofun))
  have hHeader : (v.bay e.bay).run.copy.header = some h := by rw [hBay]; exact hh
  have hRefused {cause : EndCause} (h : identJudged e.bay (parseIdent data) v = refuse e.bay cause v) :
      Closed e.bay .refused cause 0 (ownerDone e.bay (identJudged e.bay (parseIdent data) v)) :=
    h ▸ refuse_over hFree cause
  have hLimit : (parseIdent data).limit.toNat = u32At data 10 := toNat_u32At data 10
  have hCycles : (parseIdent data).cycles.toNat = u32At data 6 := toNat_u32At data 6
  refine ⟨?_, fun h0 hx => hRefused (identJudged_refused (checkVerdict_mismatch hHeader h0 hx)),
    fun hx => ⟨fun h0 hDue hi => hRefused (identJudged_refused (checkVerdict_due hHeader hx ?_ ?_ hi)), fun hp => ?_⟩⟩
  · rw [hw]
    exact hCalm.ident.trans (by rw [hBay]; rfl)
  · rwa [hLimit]
  · rwa [hLimit, hCycles]
  · have hPassed := identJudged_passed (s := v) (checkVerdict_passed hHeader hx (by rwa [hLimit, hCycles]))
    refine ⟨fun hWait => ?_, fun hWait hl => ?_, fun hWait hl => ?_⟩
    · rw [hw, hPassed, checkPassed_arming hHeader hWait]
      exact enterArming_phase
    · exact hRefused (hPassed.trans (checkPassed_open hHeader hWait (by rw [hBay]; exact hl)))
    · rw [hw, hPassed, checkPassed_running hHeader hWait (by rw [hBay]; exact hl)]
      obtain ⟨hRan, hStart, -, hPhase⟩ := enterRunning_ran (b := e.bay) (s := v)
      refine ⟨hRan, hStart.trans hTime, ?_, ?_⟩ <;> dsimp only <;>
        rcases hPhase with h | h | h | h | h <;> rw [h] <;> nofun

end

end Sys2Proof.Machine

namespace Sys2Proof.Machine

open Sys2Proof

section
variable {b : Bay} {s t u v : State} {e x : BusEntry} {rest : List BusEntry} {refused : Option Nat} {data : List Byte}
  {attention : Bool} {i : Nat} {q : Prompt} {f : InFlight}

/-! ## A prompt's display write (R205, R206, R208) -/

theorem Ended.of_same {r : StepResult} (hb : v.bay b = s.bay b) (hx : v.xu = s.xu) (h : Ended b r v t) : Ended b r s t := by
  unfold Ended issued areaItem at h ⊢
  rwa [hb, hx] at h

theorem writable_busy {y : BayState} (h : ∃ q ∈ y.panel.prompts, q.state ≠ .waiting) : writable y = none := by
  obtain ⟨q, hq, hState⟩ := h
  have hAll : y.panel.prompts.all (fun q => q.state = .waiting) = false :=
    List.all_eq_false.2 ⟨q, hq, by simpa using hState⟩
  simp [writable, hAll]

/-- While a prompt is WRITING or ARMED only a text that waits is requested (R205). -/
theorem pumpDisplay_busy (h : ∃ q ∈ (s.bay b).panel.prompts, q.state ≠ .waiting) : pumpDisplay b s = pumpText b s := by
  obtain ⟨p, f, hp, hb⟩ := (pumpText_asks (b := b) (s := s)).bay
  have hNone : writable ((pumpText b s).bay b) = none := writable_busy (by rw [hb, hp]; exact h)
  simp only [pumpDisplay, pumpPrompts, hNone]

/-- A prompt ARMED at a rack time (R206). -/
def armedAt (now : RackTime) (x : Prompt) : Prompt :=
  { x with
    state := .armed
    remaining := if x.timeout = 0 then none else some x.timeout
    armedAt := some now }

theorem armPrompt_note (hq : q.form = .note) :
    armPrompt b q s = takeEnd b q.step .done .none ((settleChecks b s).modPanel b (takePrompt q.step)) := by
  simp only [armPrompt, hq, endPrompt]

theorem armPrompt_waits (hq : q.form ≠ .note) :
    armPrompt b q s = pumpDisplay b (s.modPanel b (markPrompt q.step (armedAt s.rackTime))) := by
  cases hf : q.form with
  | note => exact absurd hf hq
  | ask => simp only [armPrompt, hf] <;> rfl
  | ack => simp only [armPrompt, hf] <;> rfl

/-- A prompt that is ARMED (R206). -/
theorem armPrompt_armed (hq : q.form ≠ .note) (hMem : q ∈ (s.bay b).panel.prompts) :
    ∃ p g, p.prompts = (markPrompt q.step (armedAt s.rackTime) (s.bay b).panel).prompts ∧
      (armPrompt b q s).bay b = { s.bay b with panel := p, status := { (s.bay b).status with lampFailed := g } } := by
  generalize hm : s.modPanel b (markPrompt q.step (armedAt s.rackTime)) = m
  have hBay : m.bay b = { s.bay b with panel := markPrompt q.step (armedAt s.rackTime) (s.bay b).panel } := by
    rw [← hm, bay_modPanel]
  have hBusy : ∃ x ∈ (m.bay b).panel.prompts, x.state ≠ .waiting := by
    rw [hBay]
    exact ⟨_, List.mem_map_of_mem hMem, by rw [if_pos rfl]; nofun⟩
  obtain ⟨p, g, hp, hb⟩ := (pumpText_asks (b := b) (s := m)).bay
  rw [armPrompt_waits hq, hm, pumpDisplay_busy hBusy]
  rw [hBay] at hp hb
  exact ⟨p, g, hp, hb⟩

/-- The state after the display write of a transaction has left the panel. -/
def writeGone (e : BusEntry) (rest : List BusEntry) (refused : Option Nat) (attention : Bool) (s : State) : State :=
  (headGone e rest refused attention s).modPanel e.bay fun p => { p with display := none }

theorem writeGone_bay (ho : e.owner = .display (.prompt i)) : (writeGone e rest refused attention s).bay e.bay =
    { s.bay e.bay with panel := { (s.bay e.bay).panel with display := none } } := by
  rw [writeGone, bay_modPanel, headGone_bay (by rw [ho]; nofun)]

theorem writeGone_rackTime : (writeGone e rest refused attention s).rackTime = s.rackTime :=
  headGone_rackTime (e := e) (rest := rest) (refused := refused) (attention := attention)

theorem ownerActs_prompt (ho : e.owner = .display (.prompt i)) (hc : NoCheckDue e.bay s)
    (hq : writingPrompt (s.bay e.bay).panel i = some q) : ownerActs e rest refused data attention s =
      if transactionOutcome e refused = .done then armPrompt e.bay q (writeGone e rest refused attention s)
      else takeEnd e.bay i .error (.bus (transactionOutcome e refused))
        ((writeGone e rest refused attention s).modPanel e.bay (takePrompt i)) := by
  have hBay := writeGone_bay (rest := rest) (refused := refused) (attention := attention) (s := s) ho
  have hPrompt : writingPrompt ((writeGone e rest refused attention s).bay e.bay).panel i = some q := by rw [hBay]; exact hq
  have hSettled : settleChecks e.bay (writeGone e rest refused attention s) = writeGone e rest refused attention s :=
    settleChecks_idle (by rw [hBay]; exact hc)
  have hEnded : ownerActs e rest refused data attention s = displayEnded e.bay (.prompt i) (transactionOutcome e refused)
      (headGone e rest refused attention s) := by simp only [ownerActs, deliver, ho]
  rw [hEnded]
  unfold writeGone at hPrompt hSettled ⊢
  simp only [displayEnded, hPrompt, hSettled, endPrompt]

/-- The end of a prompt's step by its display write (R206, R208). -/
theorem promptOwner_ended {o : StepOutcome} {d : Detail} (ha : s.bus.state = .active)
    (ho : e.owner = .display (.prompt i)) (hp : (s.bay e.bay).phase = .running ∨ (s.bay e.bay).phase = .paused)
    (hi : i < (s.bay e.bay).run.next) (hf : findInFlight (s.bay e.bay).run i = some f)
    (hActs : ownerActs e rest refused data attention s = takeEnd e.bay i o d
      ((writeGone e rest refused attention s).modPanel e.bay (takePrompt i))) :
    Ended e.bay ⟨i, f.tag, o, d, f.clamped, f.reported, f.start, s.rackTime, workProbes f.work⟩ s
      (transactionOver e rest refused data attention s) := by
  have hGone : (headGone e rest refused attention s).bay e.bay = s.bay e.bay := headGone_bay (by rw [ho]; nofun) _
  have hFree := headGone_free (e := e) (rest := rest) (refused := refused) (attention := attention) ha
  have hXu := headGone_xu (e := e) (rest := rest) (refused := refused) (attention := attention) (s := s)
  have hTime := headGone_rackTime (e := e) (rest := rest) (refused := refused) (attention := attention) (s := s)
  rw [transactionOver, hActs, writeGone]
  generalize headGone e rest refused attention s = v at hGone hFree hXu hTime
  have hMoves : Moves none e.bay v ((v.modPanel e.bay fun p => { p with display := none }).modPanel e.bay (takePrompt i)) :=
    (modPanel_moves _).trans (modPanel_moves _)
  have hEnd : Ended e.bay (resultOf f o d v.rackTime) v (takeEnd e.bay i o d
      ((v.modPanel e.bay fun p => { p with display := none }).modPanel e.bay (takePrompt i))) :=
    takeEnd_ended_before (c := (v.bay e.bay).run.claims) (by rw [bay_modPanel, bay_modPanel]) hMoves
      (by rw [hGone]; exact hf) (by rw [hGone]; exact hi)
  have hCalm : Calm e.bay v (takeEnd e.bay i o d
      ((v.modPanel e.bay fun p => { p with display := none }).modPanel e.bay (takePrompt i))) :=
    (modPanel_calm rfl).trans ((modPanel_calm rfl).trans (takeEnd_calm i o d))
  have hHeld : NotHeld (v.bay e.bay) := by
    rw [hGone]
    exact fun h => by rcases hp with hp | hp <;> exact absurd (hp.symm.trans h) nofun
  have hOver := (hEnd.ownerDone (hCalm.held hFree hHeld) (Moves.grows (hMoves.trans (takeEnd_moves i o d)))).of_same hGone hXu
  rw [resultOf, (mem_of_find hf).2, hTime] at hOver
  exact hOver

theorem promptOwner (ha : s.bus.state = .active) (ho : e.owner = .display (.prompt i))
    (hp : (s.bay e.bay).phase = .running ∨ (s.bay e.bay).phase = .paused) (hc : NoCheckDue e.bay s)
    (hi : i < (s.bay e.bay).run.next) (hq : writingPrompt (s.bay e.bay).panel i = some q)
    (hf : findInFlight (s.bay e.bay).run i = some f) :
    let t := transactionOver e rest refused data attention s
    (transactionOutcome e refused ≠ .done → Ended e.bay ⟨i, f.tag, .error, .bus (transactionOutcome e refused),
      f.clamped, f.reported, f.start, s.rackTime, workProbes f.work⟩ s t) ∧
    (transactionOutcome e refused = .done → q.form = .note → Ended e.bay ⟨i, f.tag, .done, .none,
      f.clamped, f.reported, f.start, s.rackTime, workProbes f.work⟩ s t) ∧
    (transactionOutcome e refused = .done → q.form ≠ .note →
      (t.bay e.bay).phase = (s.bay e.bay).phase ∧ (t.bay e.bay).run = (s.bay e.bay).run ∧
      (t.bay e.bay).panel.prompts = (s.bay e.bay).panel.prompts.map fun x =>
        if x.step = i then armedAt s.rackTime x else x) := by
  have hActs := ownerActs_prompt (rest := rest) (refused := refused) (data := data) (attention := attention) ho hc hq
  have hBay := writeGone_bay (rest := rest) (refused := refused) (attention := attention) (s := s) ho
  have hStep : q.step = i := by
    have hTest := List.find?_some hq
    simp only [Bool.and_eq_true, decide_eq_true_eq] at hTest
    exact hTest.1
  refine ⟨fun hd => promptOwner_ended ha ho hp hi hf (hActs.trans (if_neg hd)), fun hd hNote => ?_, fun hd hNote => ?_⟩
  · refine promptOwner_ended ha ho hp hi hf ((hActs.trans (if_pos hd)).trans ?_)
    rw [armPrompt_note hNote, settleChecks_idle (by rw [hBay]; exact hc), hStep]
  · have hMem : q ∈ ((writeGone e rest refused attention s).bay e.bay).panel.prompts := by
      rw [hBay]
      exact List.mem_of_find?_eq_some hq
    obtain ⟨p, g, hPrompts, hArmed⟩ := armPrompt_armed hNote hMem
    rw [hBay, writeGone_rackTime, hStep] at hPrompts
    rw [← (hActs.trans (if_pos hd)), hBay] at hArmed
    obtain ⟨w, hw⟩ := ownerDone_bay (b := e.bay) (s := ownerActs e rest refused data attention s) (by
      rw [hArmed]
      exact fun h => by rcases hp with hp | hp <;> exact absurd (hp.symm.trans h) nofun)
    rw [hw, hArmed]
    exact ⟨rfl, rfl, hPrompts⟩

end

end Sys2Proof.Machine

namespace Sys2Proof.Machine

open Sys2Proof

section
variable {b : Bay} {s t u v : State} {e x : BusEntry} {rest : List BusEntry} {refused : Option Nat} {data : List Byte}
  {attention : Bool}

/-! ## The key read (R196, R201 to R203) -/

theorem endPrompt_calm (i : Nat) (o : StepOutcome) (d : Detail) : Calm b s (endPrompt b i o d s) :=
  (modPanel_calm rfl).trans (takeEnd_calm i o d)

theorem keyYes_calm : Calm b s (keyYes b s) := by
  refine settleChecks_calm.trans ?_
  simp only [keyYes]
  split
  · exact .refl b _
  · split
    · exact endPrompt_calm ..
    · exact endPrompt_calm ..
    · exact .refl b _

theorem keyNo_calm : Calm b s (keyNo b s) := by
  refine settleChecks_calm.trans ?_
  simp only [keyNo]
  split
  · exact .refl b _
  · split
    · exact endPrompt_calm ..
    · exact .refl b _
    · exact .refl b _

theorem keyStart_calm : Calm b s (keyStart b s) :=
  .ite (fun _ => .ite (fun _ => (modPanel_calm rfl).trans (wantText_calm _)) fun _ => enterRunning_calm) fun _ => .refl b s

theorem actKey_calm (key : Byte) : Calm b s (actKey b key s) :=
  .ite (fun _ => keyYes_calm) fun _ => .ite (fun _ => keyNo_calm) fun _ => .ite (fun _ => keyStart_calm) fun _ =>
    .ite (fun _ => abortRun_calm _) fun _ => .refl b s

theorem keyEnded_calm (o : BusOutcome) (data : List Byte) : Calm b s (keyEnded b o data s) :=
  .ite (fun _ => (modPanel_calm rfl).trans ((actKey_calm _).trans pollKeys_calm)) fun _ => modPanel_calm rfl

@[simp] theorem actKey_putWire (w : List Byte) (key : Byte) : actKey b key (putWire w s) = putWire w (actKey b key s) := by
  simp [actKey, putWire_ite]

theorem actKey_idle {key : Byte} (h : key = 0 ∨ 4 < key.toNat) : actKey b key s = s := by
  have hNot (k : Byte) (h1 : 1 ≤ k.toNat) (h4 : k.toNat ≤ 4) : key ≠ k := by
    rintro rfl
    rcases h with rfl | h
    · exact absurd h1 (by decide)
    · omega
  rw [actKey, if_neg (hNot 1 (by decide) (by decide)), if_neg (hNot 2 (by decide) (by decide)),
    if_neg (hNot 3 (by decide) (by decide)), if_neg (hNot 4 (by decide) (by decide))]

/-! ### The key read's end -/

theorem headGone_key (ho : e.owner = .key) : (headGone e rest refused attention s).bay e.bay =
    { s.bay e.bay with panel := { (s.bay e.bay).panel with attention := attention } } := by
  rw [headGone, keyAttention, if_pos ho, bay_modBus, bay_modPanel, bay_modBus]

theorem ownerActs_key (ho : e.owner = .key) : ownerActs e rest refused data attention s =
    keyEnded e.bay (transactionOutcome e refused) (handedData e refused data) (headGone e rest refused attention s) := by
  simp only [ownerActs, deliver, ho]

theorem keyOwner_held (ha : s.bus.state = .active) (ho : e.owner = .key) (hp : (s.bay e.bay).phase ≠ .closing) :
    NotHeld ((ownerActs e rest refused data attention s).bay e.bay) := by
  rw [ownerActs_key ho]
  exact (keyEnded_calm _ _).held (headGone_free ha) (by rw [headGone_key ho]; exact fun h => absurd h hp)

theorem keyOwner_attention (ha : s.bus.state = .active) (ho : e.owner = .key) (hp : (s.bay e.bay).phase ≠ .closing) :
    ((transactionOver e rest refused data attention s).bay e.bay).panel.attention = attention := by
  obtain ⟨w, hw⟩ := ownerDone_bay (keyOwner_held (rest := rest) (refused := refused) (data := data)
    (attention := attention) ha ho hp)
  rw [transactionOver, hw, ownerActs_key ho]
  exact (keyEnded_calm ..).attention.trans (by rw [headGone_key ho])

/-- A key read that did not end DONE (R201). -/
theorem keyOwner_failed (ho : e.owner = .key) (hp : (s.bay e.bay).phase ≠ .closing)
    (hd : transactionOutcome e refused ≠ .done) :
    let t := transactionOver e rest refused data attention s
    (t.bay e.bay).panel.keyRead = .waitBoundary ∧ (t.bay e.bay).phase = (s.bay e.bay).phase ∧
      (t.bay e.bay).run = (s.bay e.bay).run := by
  have hActs : (ownerActs e rest refused data attention s).bay e.bay = { s.bay e.bay with
      panel := { (s.bay e.bay).panel with attention := attention, keyRead := .waitBoundary } } := by
    rw [ownerActs_key ho, keyEnded, if_neg hd, bay_modPanel, headGone_key ho]
  obtain ⟨w, hw⟩ := ownerDone_bay (b := e.bay) (s := ownerActs e rest refused data attention s)
    (by rw [hActs]; exact fun h => absurd h hp)
  dsimp only
  rw [hw, hActs]
  exact ⟨rfl, rfl, rfl⟩

/-- The state in which a key is acted on, with the bytes sent as they were. -/
def keyTaken (e : BusEntry) (rest : List BusEntry) (attention : Bool) (s : State) : State :=
  { s with
    bus := { s.bus with queue := rest, onBus := false, scl := true, sda := true }
    bays := baySet s.bays e.bay { s.bay e.bay with
      panel := { (s.bay e.bay).panel with attention := attention, keyRead := .none } } }

theorem headGone_keyTaken (ho : e.owner = .key) :
    ((headGone e rest refused attention s).modPanel e.bay fun p => { p with keyRead := .none }) =
      putWire (bytesSent refused s.bus.wire) (keyTaken e rest attention s) := by
  rw [headGone, keyAttention, if_pos ho]
  simp only [State.modPanel, State.modBay, State.modBus, State.bay, baySet_baySet, bayGet_baySet]
  rfl

/-- A key read DONE acts on its key and looks at the attention line again (R201 to R203). -/
theorem ownerActs_keyDone (ho : e.owner = .key) (hd : transactionOutcome e refused = .done) (hr : e.op = .read 1) :
    ownerActs e rest refused data attention s = putWire (bytesSent refused s.bus.wire)
      (pollKeys e.bay (actKey e.bay (data.headD 0) (keyTaken e rest attention s))) := by
  have hKey : (handedData e refused data).headD 0 = data.headD 0 := by
    rw [handedData, if_pos hd, transactionData, hr]
    cases data <;> rfl
  rw [ownerActs_key ho, keyEnded, if_pos hd, hKey, headGone_keyTaken ho, actKey_putWire, pollKeys_putWire]

theorem keyOwner_acts {key : Instr} {op : State → State} (ha : s.bus.state = .active) (ho : e.owner = .key)
    (hp : (s.bay e.bay).phase ≠ .closing) (hd : transactionOutcome e refused = .done) (hr : e.op = .read 1)
    (hKey : actKey e.bay (data.headD 0) (keyTaken e rest attention s) = op (keyTaken e rest attention s))
    (hExec : exec key (keyTaken e rest attention s) = .next (op (keyTaken e rest attention s))) :
    KeyActs key e.bay (keyTaken e rest attention s) (transactionOver e rest refused data attention s) := by
  obtain ⟨w, hw⟩ := ownerDone_bay (keyOwner_held (rest := rest) (refused := refused) (data := data)
    (attention := attention) ha ho hp)
  obtain ⟨p, f, hPrompts, hb⟩ := (pollKeys_asks_only (b := e.bay) (s := op (keyTaken e rest attention s))).bay
  rw [ownerActs_keyDone ho hd hr, bay_putWire, hKey, hb] at hw
  rw [KeyActs, transactionOver, ownerActs_keyDone ho hd hr, hKey, hw]
  exact ⟨_, hExec, rfl, rfl, rfl, rfl, hPrompts⟩

/-- A key byte that names no key (R202). -/
theorem keyOwner_none (ha : s.bus.state = .active) (ho : e.owner = .key) (hp : (s.bay e.bay).phase ≠ .closing)
    (hd : transactionOutcome e refused = .done) (hr : e.op = .read 1)
    (hk : data.headD 0 = 0 ∨ 4 < (data.headD 0).toNat) :
    let t := transactionOver e rest refused data attention s
    (t.bay e.bay).phase = (s.bay e.bay).phase ∧ (t.bay e.bay).run = (s.bay e.bay).run ∧
      (attention = false → (t.bay e.bay).panel.keyRead = .none) ∧
      (attention = true → (t.bay e.bay).panel.keyRead = .outstanding ∧ keyEntry e.bay ∈ requests t.bus) := by
  have hHeld := keyOwner_held (rest := rest) (refused := refused) (data := data) (attention := attention) ha ho hp
  obtain ⟨w, hw⟩ := ownerDone_bay hHeld
  have hMem {x : BusEntry} := ownerDone_requests (x := x) hHeld
  have hActs := ownerActs_keyDone (rest := rest) (data := data) (attention := attention) (s := s) ho hd hr
  have hTaken : (keyTaken e rest attention s).bay e.bay = { s.bay e.bay with
      panel := { (s.bay e.bay).panel with attention := attention, keyRead := .none } } := bayGet_baySet ..
  have hState : (keyTaken e rest attention s).bus.state ≠ .failed := by
    rw [keyTaken, ha]
    nofun
  rw [actKey_idle hk] at hActs
  dsimp only
  rw [transactionOver, hw]
  rw [hActs] at hMem ⊢
  rw [bay_putWire]
  generalize keyTaken e rest attention s = u at hTaken hState hMem
  cases attention with
  | false =>
    rw [pollKeys_quiet (by rw [hTaken]), hTaken]
    exact ⟨rfl, rfl, fun _ => rfl, nofun⟩
  | true =>
    obtain ⟨hJoined, hBay⟩ := pollKeys_granted (b := e.bay) hState (by rw [hTaken]) (by rw [hTaken]) (by rw [hTaken]; exact hp)
    rw [hBay, hTaken]
    exact ⟨rfl, rfl, nofun, fun _ => ⟨rfl, hMem hJoined.joined⟩⟩

end

end Sys2Proof.Machine

namespace Sys2Proof.Machine

open Sys2Proof

section
variable {s : State} {e : BusEntry} {rest : List BusEntry} {refused : Option Nat} {data : List Byte} {attention : Bool}

theorem verdictText_pass {r : RunEngine} {h : Header} (hv : r.verdict = some .pass) (hh : r.copy.header = some h)
    (h0 : h.passText ≠ 0) : verdictText r = some (bytesAt r.copy.text h.passText 48) := by
  simp only [verdictText, hv, hh]
  exact if_neg h0

theorem verdictText_fail {r : RunEngine} {h : Header} (hv : r.verdict = some .fail) (hh : r.copy.header = some h)
    (h0 : h.failText ≠ 0) : verdictText r = some (bytesAt r.copy.text h.failText 48) := by
  simp only [verdictText, hv, hh]
  exact if_neg h0

theorem verdictText_none {r : RunEngine} (hv : r.verdict = some .aborted ∨ r.verdict = some .refused) :
    verdictText r = none := by
  rcases hv with hv | hv <;> simp [verdictText, hv]

/-- Settles O42, by the owner of the transaction that has ended. -/
theorem ownersTakeTheirOutcomes : Obligations.OwnersTakeTheirOutcomes := by
  intro s refused data attention hs ha hOn hw e rest hq
  refine ⟨transactionOver e rest refused data attention s,
    (exec_transactionEnd hs ha hOn hw data).trans (congrArg _ (stopHead_eq hq data)), ?_, ?_, ?_, ?_, ?_, ?_, ?_, ?_⟩
  · exact fixtureCheckOwner_discarded
  · refine fun ho hk => ⟨fixtureCheckOwner_failed ha ho hk, fun h hh hd hr => ?_⟩
    obtain ⟨hIdents, hJudged⟩ := fixtureCheckOwner (rest := rest) (data := data) (attention := attention) ha ho hk hh hd hr
    obtain ⟨hType, hSerial, hCycles⟩ := by simpa only [Prod.mk.injEq] using hIdents
    exact ⟨hType, hSerial, hCycles, hJudged⟩
  · intro ho hc hStage hl hd v hv i hi
    obtain ⟨hPhase, hPanel, hDone, hFailed, hLamp, hDisplay, hText⟩ := cycleCountOwner (rest := rest) (refused := refused)
      (data := data) (attention := attention) ha ho hc hStage hl hd hv hi
    refine ⟨hPhase, hPanel, hDone, hFailed, hLamp, fun h hh => ⟨?_, ?_⟩, fun hNone => ?_⟩
    · rintro ⟨rfl, h0⟩
      exact hText _ (verdictText_pass hv hh h0)
    · rintro ⟨rfl, h0⟩
      exact hText _ (verdictText_fail hv hh h0)
    · rw [hDisplay, verdictText_none (hNone.imp (· ▸ hv) (· ▸ hv)), Option.map_none]
  · exact fun text ho => fixedTextOwner ha ho
  · exact fun i ho hp hc hi q hPrompt f hf => promptOwner ha ho hp hc hi hPrompt hf
  · exact verdictTextOwner
  · exact lampOwner ha
  · refine fun ho hp => ⟨keyOwner_attention ha ho hp, keyOwner_failed ho hp, fun hd hr => ⟨fun hk => ?_, fun hk => ?_,
      fun hk => ?_, fun hk => ?_, keyOwner_none ha ho hp hd hr⟩⟩
    · exact keyOwner_acts (op := keyYes e.bay) ha ho hp hd hr (by rw [hk]; rfl) (exec_up hs rfl)
    · exact keyOwner_acts (op := keyNo e.bay) ha ho hp hd hr (by rw [hk]; rfl) (exec_up hs rfl)
    · exact keyOwner_acts (op := keyStart e.bay) ha ho hp hd hr (by rw [hk]; rfl) (exec_up hs rfl)
    · exact keyOwner_acts (op := keyAbort e.bay) ha ho hp hd hr (by rw [hk]; rfl) (exec_up hs rfl)

end

end Sys2Proof.Machine
